-- ==== Sys2Proof/Word.lean ====
section
/-! DEFINITION. The word types of the CU1088 model: lane words, bytes, rods and sparse tables as plain data. -/

namespace Sys2Proof

/-- A lane word: 32 bits (R36). -/
abbrev Word := BitVec 32

/-- A byte of memory. -/
abbrev Byte := BitVec 8

/-- A rod's 256 data bits (R237); byte `i` is bits `8i+7 : 8i`. -/
abbrev Rod := BitVec 256

/-- A sparse table: keys strictly rising, no entry equal to what an unlisted key reads as. -/
abbrev Tab (α : Type) := List (Nat × α)

/-- Byte memory in the same canonical form: (address, byte) pairs; an unlisted address reads as 0. -/
abbrev Mem := List (Nat × BitVec 8)

end Sys2Proof
end

