-- ==== Sys2Proof/Syntax.lean ====
section
/-! DEFINITION. The commands of the CU1088 block: one constructor per row of spec/opcode_table.json, in the table's
order, with the operands the row's rule gives it. A physical lane is its ID of R7 (0–1,087; stewards 1,088–1,091, R39
layout 0x440–0x443). A master is its 11-bit identity of R285. What the environment measures or answers is an operand. -/

namespace Sys2Proof

/-- What one pacer circuit holds, as the comparator of R24 sees it. -/
structure CircView where
  heatNum : BitVec 64
  state : BitVec 3
  trim : Int
  flag : Bool
  gun : Bool
  deriving DecidableEq, Repr

/-- The seconds of a Sync, with the port on which and the domain in which it came (R16). -/
structure PtpTime where
  port : Nat
  dom : Byte
  sec : BitVec 48
  deriving DecidableEq, Repr

/-- Why the PTP reference counts as lost (R18). -/
inductive PtpLoss
  | intervals (n : Nat)
  | distrust
  deriving DecidableEq, Repr

/-- A sample point of a heat (R398). -/
inductive SamplePoint
  | k (n : Nat)
  | egress
  | gun
  deriving DecidableEq, Repr

/-- What the checks beside a lane's logic find in a cycle: nothing; a unit's check that disagrees with a result becoming
readable (R120); or a mismatch in a residue, a parity bit or the copies of a tag beside its registers, operand ports, buses,
capability registers, `pcc`, return stack, `ctl.pc`, `ctl.rc`, address adder or store buffer (R131, R239, R254). -/
inductive LaneCheck
  | agree
  | result
  | storage
  deriving DecidableEq, Repr

/-- The bits that change in a rod and in its hop CRC between two stages of its way (R247). -/
structure HopErr where
  data : Rod
  crc : BitVec 16
  deriving DecidableEq, Repr

/-- A rod that arrives as it left. -/
def noHopErr : HopErr := ⟨0, 0⟩

/-- An array of a lane whose sharing port acts, and what the rod it moves undergoes on its way (R247, R249). -/
structure SharePort where
  arr : Nat
  hop : HopErr
  deriving DecidableEq, Repr

/-- What a rod undergoes on its way to a target: its data and hop CRC, and whether its header fails its parity there (R247,
R294). -/
structure RodErr where
  hop : HopErr
  hdr : Bool
  deriving DecidableEq, Repr

/-- A field mover that acts, and what the rod it moves undergoes on its way (R247, R405). -/
structure MoverIn where
  field : Nat
  hop : HopErr
  deriving DecidableEq, Repr

/-- The input of a router that a word stands at, and the outputs whose entry or phase directory reads uncorrectable there
(R220, R254). -/
structure HopIn where
  input : Nat
  bad : List Nat
  deriving DecidableEq, Repr

/-- A relay router: its kind and number (R230). -/
inductive RouterId
  | squad (r : Nat)
  | field (f : Nat)
  | ring (f : Nat)
  deriving DecidableEq, Repr

/-- A received Ethernet frame (R328, R329, R343): its bytes from the destination address to the FCS, how long before the end of
the current cycle its timestamp point came, in 50 ps, and the RS-FEC codewords corrected and uncorrectable while it came in. -/
structure Frame where
  bytes : List Byte
  ago : Nat
  fecCe : Nat
  fecUe : Nat
  deriving DecidableEq, Repr

/-- A 66-bit block on a Kaong link: its sync header, first bit sent lowest, and its payload bits as they stand on the line (R344). -/
structure KBlock where
  hdr : BitVec 2
  bits : BitVec 64
  deriving DecidableEq, Repr

/-- What a Kaong receiver finds from one control header to the next (R344, R349), and how long before the end of the current
cycle its first bit came, in 50 ps (R343). -/
structure KCell where
  blocks : List KBlock
  ago : Nat
  deriving DecidableEq, Repr

/-- How an access of the device to host memory fails (R362, R376): an Unsupported Request, a Completer Abort, a poisoned
completion, a timeout, or an uncorrectable error inside the PCI Express engine. -/
inductive HostErr
  | ur
  | ca
  | poisoned
  | timeout
  | engine
  deriving DecidableEq, Repr

/-- What the device's accesses to host memory find: how they fail, whether a link error was corrected on the way, the scatter
list, the bytes read (R361, R376). -/
structure HostBuf where
  fault : Option HostErr
  corrected : Bool
  sgl : List (Nat × Nat × Nat)
  data : List Byte
  deriving DecidableEq, Repr

/-- Every access succeeded. -/
def HostBuf.ok (b : HostBuf) : Bool := b.fault.isNone

/-- A submission entry (R360) with the queue it stands in and what its buffer holds. -/
structure Sqe where
  sq : Nat
  flags : Byte
  cid : BitVec 16
  handle : BitVec 16
  rsv0 : BitVec 16
  addr : BitVec 64
  len : Word
  rsv1 : Word
  param : List Byte
  buf : HostBuf
  deriving DecidableEq, Repr

/-- A best-effort fabric request (R290); `data` holds the bytes written, `hdrOk` whether its parity holds (R294). -/
structure FabReq where
  master : BitVec 11
  addr : Word
  len : Nat
  write : Bool
  data : List Byte
  hdrOk : Bool
  deriving DecidableEq, Repr

/-- What a training finds on one bit of a channel (R266, R268): the centres of its read and write eyes and the width of the
narrower one, in steps. A list of them holds bit `b` of device `d` at place 36d + b. -/
structure EyeMeas where
  rdCentre : Nat
  wrCentre : Nat
  eye : Nat
  deriving DecidableEq, Repr

/-- Progress of a channel's initialisation (R266): the step reached, whether it has passed, and what a training step measured. -/
structure QdrStep where
  step : Nat
  ok : Bool
  eyes : List EyeMeas
  deriving DecidableEq, Repr

/-- An address-parity report of a device (R272): `wrong` names the writes of the 16 clocks before it that reached another
index, by their place among those writes, oldest first, and that index. -/
structure AparIn where
  chan : Nat
  wrong : List (Nat × Nat)
  deriving DecidableEq, Repr

/-- Why a Kaong or Ethernet receiver loses lock (R347, R464). -/
inductive LinkLoss
  | syncHeaders
  | crcFailures
  | pll
  deriving DecidableEq, Repr

/-- The kinds of host reset (R374). -/
inductive HostReset
  | perst
  | hot
  | flr
  | linkDown
  deriving DecidableEq, Repr

/-- The causes of a device reset (R465). -/
inductive ResetCause
  | por
  | resetN
  | corePll
  | thermal
  | wdt
  deriving DecidableEq, Repr

/-- The clocks the monitor reports (R464), as bits of CLK_STATUS. -/
inductive Clock
  | core
  | periph
  | qdr (k : Nat)
  | serdes (g : Nat)
  | pcie
  | refclk
  | pcieRef
  deriving DecidableEq, Repr

/-- What one PMBus poll of a rail answers (R479). -/
structure PmbRail where
  answered : Bool
  status : BitVec 16
  pinMw : Nat
  deriving DecidableEq, Repr

/-- What the sensors read at a poll: twelve junction temperatures in 1/8 °C and the core supply in mV (R468, R448). -/
structure Sensors where
  temp : List Int
  vddMv : Nat
  deriving DecidableEq, Repr

/-- The commands, one constructor per row of the table. -/
inductive Instr
  | gun
  | tickEdge (b : Bool) (frac : BitVec 4)
  | ptpSync (sec : PtpTime) (ns : BitVec 30)
  | pacerPtpLost (why : PtpLoss)
  | pacerLocked
  | pacerUnlock
  | pacerReacquire
  | pacerFreerun
  | pacerCircDisagree (c0 c1 : CircView)
  | pacerCircReload (ok : Bool)
  | pacerRun (m : BitVec 11)
  | pacerStop (m : BitVec 11)
  | rephase (m : BitVec 11) (phase : Nat)
  | heatNumLoRead (m : BitVec 11)
  | applyHiWrite (m : BitVec 11) (v : Word)
  | transportCycle (p : Nat)
  | repIteration (p : Nat)
  | resultReady (p : Nat) (found : LaneCheck)
  | trapEntry (p : Nat)
  | fenceReportPost (p : Nat)
  | storeBufferDrain (p : Nat)
  | remoteAccessDone (p : Nat)
  | aluAdd (p : Nat) (n : Bool) (t : Word)
  | aluSub (p : Nat) (n : Bool) (t : Word)
  | aluAnd (p : Nat) (n : Bool) (t : Word)
  | aluOr (p : Nat) (n : Bool) (t : Word)
  | aluXor (p : Nat) (n : Bool) (t : Word)
  | aluAndn (p : Nat) (n : Bool) (t : Word)
  | aluShl (p : Nat) (n : Bool) (t : Word)
  | aluShr (p : Nat) (n : Bool) (t : Word)
  | aluSra (p : Nat) (n : Bool) (t : Word)
  | aluRotl (p : Nat) (n : Bool) (t : Word)
  | aluEq (p : Nat) (n : Bool) (t : Word)
  | aluLt (p : Nat) (n : Bool) (t : Word)
  | aluLtu (p : Nat) (n : Bool) (t : Word)
  | aluMin (p : Nat) (n : Bool) (t : Word)
  | aluMax (p : Nat) (n : Bool) (t : Word)
  | mulMul (p : Nat) (t : Word)
  | mulMulu (p : Nat) (t : Word)
  | mulMulsu (p : Nat) (t : Word)
  | fpuAdd (p : Nat) (t : Word)
  | fpuMul (p : Nat) (t : Word)
  | fpuFma (p : Nat) (t : Word)
  | fpuCvt (p : Nat) (t : Word)
  | fpuCmp (p : Nat) (t : Word)
  | macF (p : Nat) (k : BitVec 2) (t : Word)
  | macClr (p : Nat) (t : Word)
  | macSet (p : Nat) (t : Word)
  | lsuLd (p : Nat) (t : Word)
  | lsuSt (p : Nat) (t : Word)
  | lsuLr (p : Nat) (t : Word)
  | lsuSc (p : Nat) (t : Word)
  | lsuLdc (p : Nat) (t : Word)
  | lsuStc (p : Nat) (t : Word)
  | lsuFence (p : Nat) (t : Word)
  | ctlJump (p : Nat) (t : Word)
  | ctlCall (p : Nat) (t : Word)
  | ctlRet (p : Nat) (t : Word)
  | ctlSync (p : Nat) (t : Word)
  | splWait (p : Nat) (t : Word)
  | splChk (p : Nat) (t : Word)
  | splCmp (p : Nat) (t : Word)
  | splTimerFire (p : Nat)
  | splLate (p : Nat)
  | comparePoint (h : Nat) (pt : SamplePoint)
  | trapT (p : Nat) (t : Word)
  | trapRet (p : Nat) (t : Word)
  | gpos (p : Nat)
  | gbase (p : Nat)
  | glim (p : Nat)
  | gperm (p : Nat)
  | gtag (p : Nat)
  | glen (p : Nat)
  | move (p : Nat)
  | spos (p : Nat)
  | ipos (p : Nat)
  | sbnd (p : Nat)
  | aperm (p : Nat)
  | cltag (p : Nat)
  | seal (p : Nat)
  | unseal (p : Nat)
  | cmpb (p : Nat)
  | rdsys (p : Nat)
  | wrsys (p : Nat)
  | rlySend (p : Nat) (v : Word)
  | relayHop (r : RouterId) (input : HopIn)
  | relayArrival (p : Nat)
  | rlyRxRead (p : Nat)
  | rlyFlush (p : Nat) (v : Word)
  | mbxWr (p : Nat) (v : Word)
  | mbxGo (p : Nat) (v : Word)
  | mbxWait (p : Nat) (v : Word)
  | mbxRdRead (p : Nat)
  | mbxPostArrive (c : Nat)
  | mbxReleaseArrive (c : Nat)
  | mbxWaitEnd (p : Nat)
  | mbxFabricGo (m : BitVec 11) (c : Nat) (be : BitVec 4) (v : Word)
  | mbxFabricRead (m : BitVec 11) (c : Nat) (w : Nat) (be : BitVec 4)
  | bind (m : BitVec 11) (c : Nat) (v : Word)
  | mbxLock (m : BitVec 11) (v : Word)
  | sysWr (p : Nat) (v : Word)
  | scrubVisit (p : Nat) (hard0 hard1 hardIs : Bool)
  | memCmd (m : BitVec 11) (p : Nat) (v : Word)
  | sharerAccess (p : Nat) (arr : SharePort)
  | smBusyRetry
  | smScrub (hard : Bool)
  | qdrInit (m : BitVec 11) (k : Nat)
  | qdrReady (k : Nat) (res : QdrStep)
  | qdrCtrlFail (m : BitVec 11) (k : Nat)
  | qdrRetrain (k : Nat) (eyes : List EyeMeas) (driftOk : Bool)
  | qdrZqCalibration (k : Nat)
  | qdrScrub (k : Nat) (hard : List Nat)
  | qdrApar (a : AparIn)
  | qdrWriteReplay (k : Nat)
  | streamRodIssue (e : Nat)
  | streamRodArrive (e : Nat)
  | fabricRequest (r : FabReq)
  | fabricGrant (t : Nat) (err : RodErr)
  | fabricResponse (m : BitVec 11) (hop : HopErr)
  | periphBusAccess
  | fabWaitMaxClear (m : BitVec 11) (t : Nat)
  | loadCard (e : Sqe)
  | cardAdmission
  | activate (e : Sqe)
  | withdraw (e : Sqe)
  | seedWrite (h : Nat)
  | seatClearDone (seat : Nat)
  | frameReceive (port : Nat) (f : Frame)
  | kaongCellReceive (port : Nat) (c : KCell)
  | kaongLock (port : Nat)
  | portLinkDown (port : Nat) (why : LinkLoss)
  | ingestRodEnter (port : Nat) (bank : Bool)
  | ingestRodArrive (port : Nat) (bank : Bool)
  | ingestStatusRod (port : Nat) (rec : Nat)
  | ingestMapSwitch (port : Nat)
  | egressReadRequest (port : Nat)
  | egressFrameSend (port : Nat)
  | kaongCellSend (port : Nat)
  | stewardFrameSend (port : Nat) (bytes : List Byte)
  | identify (e : Sqe)
  | attest (e : Sqe)
  | queryContract (e : Sqe)
  | readLog (e : Sqe)
  | snapshotArm (e : Sqe)
  | snapshotRead (e : Sqe)
  | fwStage (e : Sqe)
  | fwCommit (e : Sqe)
  | pacerCfg (e : Sqe)
  | resourceClaim (e : Sqe)
  | resourceRelease (e : Sqe)
  | resourceQuery (e : Sqe)
  | lifecycleTransition (e : Sqe)
  | keyEnrol (e : Sqe)
  | keyRevoke (e : Sqe)
  | debugOpen (e : Sqe)
  | debugClose (e : Sqe)
  | debugExpire
  | telemetryCfg (e : Sqe)
  | invalidOpcode (e : Sqe) (op : Byte)
  | sqTail (q : Nat) (v : Word)
  | cqHead (q : Nat) (v : Word)
  | evtHead (v : Word)
  | telemHead (v : Word)
  | ringEnable (ring : Nat) (cfg : Word)
  | completionPost (q : Nat)
  | eventDeliver
  | telemetryRecord
  | hostReset (k : HostReset)
  | d3hotEntry
  | repairSweep (mv : MoverIn)
  | groupResume (h : Nat) (seat : Nat)
  | shadowTest (p : Nat) (sigOk copyOk : Bool)
  | stewardDuplexMismatch
  | stewardBoot (imgA imgB : List Byte)
  | identityGenerate (healthOk : Bool)
  | secExtend (m : BitVec 11) (v : Word)
  | secTamper (src : Nat)
  | photoInEdge
  | pfProgTrigger
  | pfCmdTrig (m : BitVec 11)
  | pfCmdRelease (m : BitVec 11)
  | pfCapture
  | snapshotHoldExpire
  | logSliceWrite (verify1 verify2 : Bool)
  | pwrReq (m : BitVec 11) (v : Word)
  | pwrDomainOn (d : Nat)
  | deviceReset (c : ResetCause)
  | resetRelease
  | mainPowerFail
  | clkFail (c : Clock)
  | corePllLockLoss
  | wdtKick (m : BitVec 11) (v : Word)
  | wdtExpired (st : Nat)
  | pwrTjWarn (sensor : Nat) (tj : BitVec 16)
  | thermalTrip (sensor : Nat)
  | pwrLaneRst (m : BitVec 11) (v : Word)
  | pwrFieldRst (m : BitVec 11) (v : Word)
  | rtcLoRead (m : BitVec 11)
  | uartTxWrite (m : BitVec 11) (v : Word)
  | uartRxRead (m : BitVec 11)
  | uartRxByte (b : Byte) (stopOk : Bool)
  | uartTxByteDone
  | i2c1Xfer (m : BitVec 11) (v : Word)
  | i2c1ByteDone (ack arb : Bool) (b : Byte)
  | tmrCompare (k : Nat)
  | tmrCapture (k : Nat)
  | tickOutPulse
  | pmbusPoll (rails : List PmbRail) (x : Sensors)
  | registerWrite (m : BitVec 11) (a : Word) (v : Word)
  | clkLockReturn (c : Clock)
  | d3hotExit
  | msixUnmask (vec : Nat)
  | standbySelfTestDone
  | vbatApplication
  deriving DecidableEq, Repr

end Sys2Proof
end

