-- ==== Sys2Proof/Machine/LaneState.lean ====
section
/-! DEFINITION. The state of one lane: registers, unit ports, capabilities, control, store buffer, split, trap, relay
and mailbox registers, and its memory block (R36–R71, R100–R123, R127–R163, R164–R194, R232, R237–R258). -/

namespace Sys2Proof.Machine
open Sys2Proof

/-- A capability with its tag (R164, R165). -/
structure Cap where
  pos : Word
  base : Word
  limit : Word
  perms : BitVec 12
  otype : BitVec 8
  rsv : BitVec 12
  tag : Bool
  deriving DecidableEq, Repr

/-- What a lane is doing between instructions. -/
inductive Mode
  | idle      -- out of reset, no work: transports nothing
  | run       -- transporting
  | wait      -- in spl.wait (R156)
  | mbxWait   -- in mbx.wait (R387)
  | remote    -- stalled on a remote access (R138)
  | held      -- held for repair, in lane reset (R404)
  | fenced    -- fenced (R192)
  deriving DecidableEq, Repr

/-- A result or write that becomes readable in a later cycle (R45, R46). -/
inductive Res
  | alu (n : Bool) (v : Word)
  | mul (lo hi : Word)
  | fpu (v : Word) (flags : BitVec 4)
  | acc (k : Nat) (raw : BitVec 40)              -- the port view of a_k
  | macst (bits : BitVec 12)                     -- sticky MAC flags: [11:8] OVF, [3:0] NV OF UF NX
  | macstClr
  | lsuR (v : Word)
  | lsuUa (v : Word)
  | scs (v : Word)
  | capR (r : Word)
  | capSt (st : BitVec 3)
  | capC (d : Nat) (c : Cap)
  | tdt (c : Cap)
  | sig (v : Word)
  | sys (idx : Nat) (v : Word) (at_ : Nat)       -- a write of a system register, moved in cycle at_
  | pend (k : Nat)                               -- interrupt 32 + k becomes pending (R189)
  | drain8 (rod : Word)                          -- R150
  | schk9                                        -- R161
  deriving DecidableEq, Repr

structure Flight where
  due : Nat
  unit : Nat       -- 0 ALU0, 1 ALU1, 2 MUL, 3 FPU, 4 MAC, 5 LSU, 7 SPL, 9 CAP, 12 SYS, 13 no unit (R68 order)
  res : Res
  deriving DecidableEq, Repr

/-- Operand ports, result ports and accumulators (R38, R52, R71). -/
structure Units where
  alu0o : Word
  alu0r : Word
  alu1o : Word
  alu1r : Word
  mulo : Word
  mulLo : Word
  mulHi : Word
  fo1 : Word
  fo2 : Word
  fr : Word
  fflags : BitVec 4
  fmode : Word
  maco : Word
  macmode : Word
  macst : BitVec 12
  acc : Tab (BitVec 40)       -- the accumulators as the next trigger finds them (R118)
  vis : Tab (BitVec 40)       -- the accumulators as the ports show them (R116)
  macTrig : Tab Nat           -- 1 + cycle of the last trigger that changed a_k (R118); 0 none
  base : Word
  idx : Word
  data : Word
  lmode : Word
  lr : Word
  ua : Word
  scs : Word
  capsel : Word
  capo : Word
  capr : Word
  capst : BitVec 3
  mbxsel : Word
  syssel : BitVec 12
  deriving DecidableEq, Repr

/-- A taken transfer whose delay slot has not completed (R53, R55). -/
structure Xfer where
  kind : Nat          -- 0 jump, 1 call, 2 return
  target : Word
  addr : Word         -- the transfer instruction's address
  t : Nat             -- its transport cycle
  deriving DecidableEq, Repr

/-- A running repetition (R82–R88). -/
structure Rep where
  addr : Word         -- address of the REP instruction
  word : Word         -- its move word
  ext : Option Word
  g3 : Option Bool    -- the NEG bit of a G3 prefix
  int : Bool
  next : Word         -- the instruction that follows
  deriving DecidableEq, Repr

/-- A frame that a trap entry will write: the cycle, the address, and four rods with their tags (R184, R205). -/
structure Push where
  at_ : Nat
  addr : Nat
  rods : List (List Byte × BitVec 2)
  deriving DecidableEq, Repr

/-- A trap that has been raised and whose entry is not complete (R186, R205, R206). -/
structure TrapReq where
  n : Nat
  detail : Nat
  sub : Nat
  addr : Word
  ret : Word
  repActive : Bool
  repCount : Nat
  b : Nat
  a : Option (Nat × Word × Nat)  -- once cycle b has been reached: cycles from b to the next step of the entry (A of
                                 -- R205 at first), and `spl.heat` and `spl.cyc` in cycle b
  deriving DecidableEq, Repr

/-- Fetch and control state (R53–R59, R82–R94, R196). -/
structure Ctl where
  pc : Word                    -- address of the next instruction; fcap.POS follows it (R168)
  rc : Nat                     -- ctl.rc
  rep : Option Rep
  resumeRc : Option Nat        -- remaining count restored by trap.ret (R88)
  xfer : Option Xfer
  rstk : Tab Word
  top : BitVec 4
  depth : Nat
  ready : Nat                  -- cycle the next instruction's issue cost counts from (R196)
  restart : Bool               -- the next instruction is the first after a change of fetch address (R89)
  exact : Bool                 -- the first instruction of a heat: transported at gun + 2, c' not applied (R204)
  bnd : Option Nat             -- an instruction boundary not yet passed: its cycle (R60)
  lsuMark : Nat                -- 1 + cycle of the last load trigger (R47); 0 none
  lastT : Nat                  -- 1 + cycle of the last transport that fetched from the instruction store; 0 none
  stallUntil : Nat             -- the lane stalls in cycles below this one (R48)
  fetched : List (Nat × Word × Bool)  -- words already fetched when a store was transported: address, old contents, uncorrectable (R91)
  shownAt : Nat                -- 1 + last cycle in which a unit's result became readable; 0 none (R120)
  after : Option Mode          -- the wait that the other move of a word asks for when the present one ends (R44)
  fetchRods : List Nat         -- the rods of steward memory that fetch holds, at most two (R155)
  fetchAgain : Bool            -- its access was refused with BUSY and is retried (R251)
  deriving DecidableEq, Repr

/-- Trap state (R179–R194). -/
structure Trap where
  mask : Word
  pend : Word
  curNum : BitVec 8
  curOt : BitVec 8
  cnt : Word
  cause : Word
  addr : Word
  scr : Tab Word
  due : Option TrapReq         -- raised by an instruction or at the gun, not yet entered
  push : Option Push           -- the frame of an entry, until it is written
  ret : Option (Nat × Word)    -- a `trap.ret` in progress: the cycle of its frame read, and the frame address f (R187, R207)
  load8 : Option (Word × Nat)  -- trap 8 of a load: address, first cycle it can be taken (R149)
  drain8 : Option Word         -- trap 8 of a drain: rod address (R150)
  schk9 : Bool                 -- trap 9 pending (R161)
  fence : Option (List Word)   -- a fence report waiting for channel 64 (R192, R393)
  fenceAt : Nat
  deriving DecidableEq, Repr

/-- One store-buffer entry (R139–R145). -/
structure SbEntry where
  rod : Nat                    -- lane byte address of the rod
  valid : BitVec 32
  data : Rod
  tag0 : Option Bool           -- tag action of the low half: none leave, some t write t
  tag1 : Option Bool
  alloc : Nat                  -- cycle of allocation
  elig : Option Nat            -- earliest cycle from filling or a newer allocation (R140)
  begun : Bool                 -- the read of its read-modify-write is done
  deriving DecidableEq, Repr

/-- A remote access in progress (R138). -/
structure RemoteAcc where
  store : Bool
  addr : Word
  size : Nat
  sx : Bool
  ids : List Nat               -- fabric transactions not yet answered
  data : List Byte             -- bytes returned so far, or still to write on port A
  left : List (Nat × Nat × Nat)  -- rods of steward memory still to access on port A: rod, offset, length (R251)
  bad : BitVec 2               -- worst response code so far
  deriving DecidableEq, Repr

/-- LSU state beyond its ports (R139, R146, R163). -/
structure Lsu where
  sb : List SbEntry            -- oldest first
  rsv : Option Nat             -- rod address reserved
  unmapped : Bool
  ovl : Word
  full : Word
  remote : Option RemoteAcc
  force : List (Nat × Nat)     -- entries (rod, alloc) that drain at once (R142, R143, R148)
  forceEnd : Nat               -- the cycle by which they have drained; 0 none
  drainAt : Nat                -- 1 + cycle of the last drain; 0 none
  scUndo : Option (Nat × Nat × List SbEntry)  -- the last `lsu.sc` that succeeded: cycle, rod, the buffer before it (R147)
  deriving DecidableEq, Repr

/-- Split state (R156–R163). -/
structure Split where
  sig : Word
  lastSig : Word
  flag : Bool
  schkEvt : Bool
  late : Bool
  schkTrap : Bool
  tmrArm : Bool
  tmrPer : Bool
  tmrCyc : BitVec 24
  tmrFrom : Nat                -- first device cycle in which the timer compares
  sampleK : BitVec 8
  sampleE : Bool
  sampleGun : Bool
  schkCnt : Word
  lateAt : Nat                 -- 1 + heat of the last R157 event; 0 none
  deriving DecidableEq, Repr

/-- A word that arrived in cycle `at_`: a remote move of `port`, or 128 for the receive queue (R222, R223, R226). -/
structure RMove where
  port : Nat
  v : Word
  at_ : Nat
  deriving DecidableEq, Repr

/-- Relay state of a lane (R223–R232). -/
structure Rly where
  rx : List Word
  ovf : Bool
  unf : Bool
  gundrop : Bool
  clash : Word
  unslot : Word
  qovf : Word
  rej : Word
  ce : Word
  ue : Word
  team : Word                  -- TEAM_INFO
  moves : List RMove
  deriving DecidableEq, Repr

structure Lane where
  mode : Mode
  w : Tab Word
  g : BitVec 4
  u : Units
  c : Tab Cap
  fcap : Cap                   -- its POS is ctl.pc while the lane runs
  tdt : Cap
  ctl : Ctl
  trap : Trap
  lsu : Lsu
  spl : Split
  rly : Rly
  nochan : Bool
  master : BitVec 11           -- LANE_ID.MASTER
  cfg : BitVec 2               -- LANE_CFG
  flight : List Flight         -- in the order of `due`
  deriving DecidableEq, Repr

/-- A spare row's REMAP entry (R258). -/
structure Remap where
  v : Bool
  bad : Bool
  row : Nat
  deriving DecidableEq, Repr

/-- A rod-coded array: 36 stored symbols a row (R240) at 36·row, data bytes first, spare rows after the rows in
service; the tag array holds each of two bits three times (R238). -/
structure RodArr where
  cells : Mem
  tags : Tab (BitVec 6)
  remap : Tab Remap
  deriving DecidableEq, Repr

/-- A sharer's pending request at a sharing port (R248, R249). -/
inductive ShKind
  | write (rod : Rod) (mask : BitVec 32) (tags : Option (Bool × Bool)) (poison : Bool)
  | readEgress (port elem : Nat) (heat : Nat)
  | readStream (engine : Nat) (desc n : Nat)
  | readFab (id : Nat)
  deriving DecidableEq, Repr

structure ShReq where
  cls : Nat                    -- class 1–5 of R249
  rod : Nat                    -- rod index within the home or the instruction store
  deadline : Option (Nat)      -- device cycle after which a scheduled rod is late (R250)
  fab : Option Nat             -- fabric transaction a write answers
  kind : ShKind
  sig : Option Word := none    -- input signature carried beside the hop CRC (R257)
  deriving DecidableEq, Repr

/-- One sharing port: requests, oldest first, of which the first four writes and four reads stand in the port (R249), the
ingest queue of R334, and the cycles in which the array is used. -/
structure ShPort where
  pend : List ShReq
  ingest : List ShReq
  busy : List Nat              -- cycles from the last one on in which the lane uses the array
  share : List Nat             -- cycles from the last one on in which a sharer uses it
  deriving DecidableEq, Repr

/-- A lane's memory block and arrays (R237–R258). -/
structure LaneMem where
  h0 : RodArr
  h1 : RodArr
  is : RodArr
  p0 : ShPort
  p1 : ShPort
  pis : ShPort
  exhaust : Bool
  marked : Bool
  ue : Bool
  ce : Bool
  remapAuto : Bool
  scrubEn : Bool
  cmd : Option (Nat × Nat)     -- bank and row of a MEM_CMD waiting for the next cool-down
  ceCnt : Tab Word             -- 0 home bank 0, 1 home bank 1, 2 instruction store
  tagCe : Word
  ueCnt : Tab Word
  late : Word                  -- SHARE_LATE_CNT
  lastErr : Word
  lastSyn : Word
  row : Nat                    -- SCRUB_POS.ROW
  rowIs : Nat                  -- the instruction store's own position
  sweeps : Nat
  visited : Nat                -- 1 + heat of the last scrub visit; 0 none
  dirty : List Nat             -- logical rods 0–2,559 marked dirty since a sweep copied them (R406)
  fresh : List Nat             -- rods a sharer wrote while held (R406)
  deriving DecidableEq, Repr

end Sys2Proof.Machine
end

