-- ==== Sys2Proof/Machine/CardTypes.lean ====
section
/-! DEFINITION. A race card as its sections give it (R302–R314, R330, R337), and a contract (R321, R366). -/

namespace Sys2Proof.Machine
open Sys2Proof

/-- A SEATS record (R304). -/
structure SeatRec where
  seat : Nat
  partner : Nat
  role : Nat
  startIdx : Nat
  image : Nat
  homeImg : Nat
  certIdx : Nat
  deriving DecidableEq, Repr

/-- An IMAGES record (R305) with its bytes. -/
structure ImageRec where
  kind : Nat
  loadAt : Nat
  bytes : List Byte
  deriving DecidableEq, Repr

/-- A START record (R306): capability specifications as 16-byte halves, and seeds. -/
structure StartRec where
  fcap : Cap
  c : List Cap
  tdt : Cap
  laneCfg : Word
  seeds : List (Nat × Cap)
  deriving DecidableEq, Repr

/-- A RELAY record (R309). -/
structure RelayRec where
  router : RouterId
  output : Nat
  dir : List (BitVec 64)
  ent : List (BitVec 16)
  deriving DecidableEq, Repr

/-- A STREAMS record (R310): an engine and its descriptors (R275). -/
structure StreamRec where
  engine : Nat
  desc : List (BitVec 128)
  deriving DecidableEq, Repr

/-- A MULTICAST record (R310). -/
structure McastRec where
  list : Nat
  bits : BitVec 128
  deriving DecidableEq, Repr

/-- An INGEST record (R330). -/
structure IngestRec where
  port : Nat
  kind : Nat
  srcIp : Word
  dstIp : Word
  dstUdp : BitVec 16
  status : Word
  map : List Word
  deriving DecidableEq, Repr

/-- An EGRESS record (R337). -/
structure EgressRec where
  port : Nat
  kind : Nat
  ofs : Nat
  dstMac : List Byte
  vlan : BitVec 16
  dstIp : Word
  srcUdp : BitVec 16
  dstUdp : BitVec 16
  tos : Byte
  ttl : Byte
  trailer : Bool
  elem : List Word
  deriving DecidableEq, Repr

/-- The WINDOWS record (R312). -/
structure Windows where
  i : Nat
  c : Nat
  e : Nat
  k : List Nat
  deriving DecidableEq, Repr

/-- A TEAMS record (R313). -/
structure TeamRec where
  team : Nat
  parent : Nat
  front : Nat
  tier : Nat
  nIn : Nat
  nOut : Nat
  lambda : Nat
  hold : Nat
  trigFirst : Nat
  trigPeriod : Nat
  trigCount : Nat
  ports : List Nat
  seats : List Nat
  deriving DecidableEq, Repr

/-- A window record of a certificate (R314). -/
structure CertWin where
  start : Nat
  end_ : Nat
  lc : Nat
  idle0 : Nat
  idle1 : Nat
  rods0 : Nat
  rods1 : Nat
  deriving DecidableEq, Repr

/-- A seat record of a certificate (R314). -/
structure CertSeat where
  seat : Nat
  workEnd : Nat
  sends : Nat
  recvs : Nat
  win : List CertWin
  deriving DecidableEq, Repr

/-- The CERT section (R314). -/
structure Cert where
  qrod : List Nat
  inWire : List Nat
  outWire : List Nat
  outputs : Nat
  seats : List CertSeat
  deriving DecidableEq, Repr

/-- A race card (R302). -/
structure Card where
  paired : Bool
  inSig : Bool
  outSig : Bool
  cardId : BitVec 64
  replaces : BitVec 64
  heatLen : Nat
  seats : List SeatRec
  images : List ImageRec
  start : List StartRec
  relay : List RelayRec
  streams : List StreamRec
  mcast : List McastRec
  ingest : List IngestRec
  egress : List EgressRec
  win : Windows
  teams : List TeamRec
  cert : Cert
  deriving DecidableEq, Repr

/-- The states of a contract (R321). -/
inductive CState
  | admitted
  | scheduled
  | active
  | broken
  deriving DecidableEq, Repr

/-- The outcome of a pair's or a seat's comparison in one heat (R398–R400). -/
structure PairSel where
  lead : Nat                 -- the lead seat, or the seat of a single contract
  miss : Bool                -- a point of the heat has shown a mismatch
  partnerSel : Bool          -- the partner's side is delivered
  disputed : Bool
  leadFlag : Bool            -- the lead's flag was set at a sample point up to the fixing cycle
  partFlag : Bool
  counted : Bool             -- its delivered result has been counted
  deriving DecidableEq, Repr

/-- An admitted race card (R321, R366). -/
structure Contract where
  handle : Nat
  state : CState
  card : Card
  startGun : Nat             -- G, 0 before SCHEDULED
  pendW : Option Nat         -- a withdrawal gun in force
  replaced : Option Nat      -- the handle of the contract this card replaces, while that contract lasts (R323)
  swapped : Nat              -- 1 + the gun of its swap with that contract; 0 none (R229)
  brkCause : Nat
  brkSeat : Nat
  flagged : Word
  disputed : Word
  overruns : Word
  unsync : Bool
  keySlot : Nat
  sampled : List Nat         -- sample points of this heat taken: 1–8 Kn, 9 E, 10 the gun
  sel : List PairSel         -- this heat's comparisons
  selPrev : List PairSel     -- the previous heat's, for E ≥ L (R399)
  seeded : Bool
  banksAt : Nat              -- the switch gun the inactive banks were written for; 0 none
  deriving DecidableEq, Repr

/-- A race card that LOAD_CARD has read and admission has not yet judged (R316). -/
structure Loading where
  sq : Nat
  cid : BitVec 16
  bytes : Option (List Byte)  -- none when an access to host memory failed
  discarded : Bool
  written : List Nat          -- lanes written during the load
  takenAt : Nat               -- cycle in which the command was taken (R448)
  deriving DecidableEq, Repr

end Sys2Proof.Machine
end

