-- ==== Sys2Proof/Machine/DevState.lean ====
section
/-! DEFINITION. The state of the blocks of the CU1088 outside the lanes: pacer, relay network, mailboxes, steward
memory, QDR and streams, fabric, ports, host interface, pairing, security, snapshots and log, power, peripherals. -/

namespace Sys2Proof.Machine
open Sys2Proof

/-- The pacer states of R21. -/
inductive PState
  | stopped
  | internal
  | acquire
  | locked
  | flywheel
  | freerun
  deriving DecidableEq, Repr

/-- Pacer changes held pending until APPLY (R32). -/
structure PacerPend where
  heatLen : Option Nat
  tick : Option Word
  ptp : Option Word
  epochSec : Option (BitVec 48)
  epochNs : Option (BitVec 30)
  src : Option (BitVec 2)
  deriving DecidableEq, Repr

/-- The pacer (R9–R35, R497). -/
structure Pacer where
  run : Bool
  src : BitVec 2
  state : PState
  single : Bool
  flyCnt : Nat
  flag0 : Bool
  flag1 : Bool
  tickAOk : Bool
  tickBOk : Bool
  heatLen : Nat
  heatNum : BitVec 64
  hiLatch : Option Word      -- HEAT_NUM_HI latched for its next read (R34)
  tickCfg : Word             -- layout of PACER.TICK_CFG
  ptpCfg : Word              -- layout of PACER.PTP_CFG
  epochSec : BitVec 48
  epochNs : BitVec 30
  flyLimit : Nat
  trim : Int
  phaseErr : Int
  applyLo : Word
  applyHi : Word
  applyArmed : Bool
  pend : PacerPend
  events : BitVec 10
  open_ : Bool               -- a heat has begun since device reset
  elapsed : Nat              -- lc since the gun of the heat in progress
  gunAt : Nat                -- the device cycle of that gun
  firstGun : Option Nat      -- cycle from which the first gun after RUN may fall (R34, R497)
  firstNum : BitVec 64       -- its number
  rephase : Option Nat       -- length of the rephase heat in progress (R20)
  edgeA : Option Int         -- accepted edge of this heat, in 1/16 lc from the prediction
  edgeB : Option Int
  aLost : Bool               -- the previous heat had no accepted edge of A
  bLost : Bool
  lockRun : Nat              -- consecutive heats within ±1 lc
  unlockRun : Nat            -- consecutive heats beyond ±4 lc with a valid reference
  validRun : Nat             -- consecutive heats with a valid reference
  ptpT : Nat                 -- the disciplined clock in units of 0.2 ns (R17)
  ptpSeen : Bool             -- a Sync has been accepted and the reference has not been lost since
  ptpNew : Bool              -- a Sync has been accepted since the last gun (R18)
  circGun : Option Nat       -- cycle in which the circuit that is distributed asserts a gun the other does not (R24)
  reload : Option Bool       -- circuit the firmware reloads in the next cool-down (R24)
  lastDis : Option (Bool × Nat)  -- circuit and heat of the last disagreement
  disabled : Option Bool
  deriving DecidableEq, Repr

/-- One router output (R217, R231). -/
structure ROut where
  bank0 : Tab (BitVec 16)
  bank1 : Tab (BitVec 16)
  dir0 : Tab (BitVec 64)
  dir1 : Tab (BitVec 64)
  owner : BitVec 16
  newOwner : BitVec 16       -- owner written with the inactive bank, in force at the switch (R229)
  refused : Bool
  arm : Bool
  bank : Bool
  deriving DecidableEq, Repr

/-- The counters of one router (R231). -/
structure RCnt where
  ce : Word
  ue : Word
  drop : Word
  deriving DecidableEq, Repr

/-- Where a relay word is (R218). -/
inductive RLoc
  | atRouter (r : RouterId) (input : Nat)
  | atLane (p : Nat) (remote : Bool) (dport : Nat)
  deriving DecidableEq, Repr

/-- A relay word on its way (R214, R218). -/
structure RWord where
  loc : RLoc
  due : Nat
  data : Word
  check : BitVec 7
  poison : Bool
  src : Option Nat           -- the sending lane, before the first router
  prev : Option RouterId     -- the router that forwarded it
  taken : Bool               -- another stage already took this word on (ring pass)
  deriving DecidableEq, Repr

structure RelayNet where
  outs : Tab ROut
  cnt : Tab RCnt
  words : List RWord
  deriving DecidableEq, Repr

/-- One mailbox channel: the block's registers and the two lanes' views (R377–R394). -/
structure Chan where
  data : Tab Word
  len : Nat
  msgEpoch : BitVec 8
  epoch : BitVec 8
  full : Bool
  busy : Bool
  badlen : Bool
  dropped : Bool
  postCnt : Word
  busyCnt : Word
  dropCnt : Word
  bindV : Bool
  sender : BitVec 11
  receiver : BitVec 11
  sFull : Bool               -- the sender's view
  sBusy : Bool
  sBadlen : Bool
  sDropped : Bool
  rFull : Bool               -- the receiver's view
  discardTo : Nat            -- posts arriving below this cycle are discarded (R391)
  deriving DecidableEq, Repr

inductive MKind
  | wr (word : Nat) (v : Word)
  | go (len : Nat) (epoch : BitVec 8)
  | release
  | viewClear
  deriving DecidableEq, Repr

/-- An item on the mailbox path (R385, R386). -/
structure MItem where
  chan : Nat
  due : Nat
  kind : MKind
  deriving DecidableEq, Repr

structure Mail where
  chans : Tab Chan
  lock : Bool
  path : List MItem
  deriving DecidableEq, Repr

/-- A steward-memory access that met a collision (R251). -/
structure SmReq where
  portA : Bool
  addr : Nat
  write : Bool
  data : List Byte
  be : List Bool
  who : Nat                  -- the lane of a port A access, the fabric transaction of a port B access
  poison : Bool
  at_ : Nat                  -- the cycle of the refusal
  deriving DecidableEq, Repr

/-- A use of a port of steward memory: cycle, rod, direction, and the bytes a write enables (R251). -/
structure SmUse where
  at_ : Nat
  rod : Nat
  write : Bool
  be : List Bool
  deriving DecidableEq, Repr

/-- One rod of a fabric request, waiting or in a bridge (R290, R296). -/
structure FRod where
  id : Nat
  master : BitVec 11
  target : Nat
  addr : Nat
  len : Nat
  write : Bool
  data : List Byte
  waited : Nat
  bad : Bool                 -- answers ERR unperformed (R292)
  drop : Bool                -- its master was reset: the answer is dropped (R299)
  deriving DecidableEq, Repr

/-- What it takes to refuse a port B request of the current cycle after all, when port A meets it: both then arrived at the
same clock edge (R251). -/
structure SmUndo where
  req : SmReq
  rod : FRod
  arr : RodArr
  deriving DecidableEq, Repr

/-- Steward memory and its controller (R251–R253, R258). -/
structure StewMem where
  arr : RodArr
  busy : Bool
  ue : Bool
  ce : Bool
  ceCnt : Word
  ueCnt : Word
  busyA : Word
  busyB : Word
  secRef : Word
  lastErr : Word
  row : Nat
  lastA : Option SmUse
  lastB : Option SmUse
  undoB : Option SmUndo               -- the request of `lastB`, unless it is one retried
  retry : List SmReq
  scrubAt : Nat                       -- cycle of the next scrub access
  scrubbed : Nat                      -- 1 + cycle of the last one; 0 none
  deriving DecidableEq, Repr

/-- An access issued to a QDR channel, kept for R264, R271 and R272: QDR clock, physical index, port, what the rod held
before a write and what it was to hold. -/
structure QAcc where
  clock : Nat
  idx : Nat
  portB : Bool
  old : Option (List Byte)
  new : Option (List Byte)
  fid : Option Nat           -- the fabric transaction of a best-effort read
  readAt : Option Nat        -- the clock of the read that a partial write or a scrub's rewrite goes back to
  deriving DecidableEq, Repr

/-- A QDR controller and its channel (R259–R273, R281). `cells` holds 36 symbols a physical rod as differences from the
rod that step 10 of R266 writes there. -/
structure Qdr where
  failUe : Byte
  zq : BitVec 4
  retrain : BitVec 4
  freq : BitVec 2
  dens : Bool
  scrubEn : Bool
  remapAuto : Bool
  present : Bool
  freqF : BitVec 2           -- FREQ and DENS in force since the last R266; PRESENT in force is a state other than ABSENT
  densF : Bool
  state : BitVec 2
  initStep : Nat
  events : BitVec 7
  ceCnt : Word
  ueCnt : Word
  aparCnt : Word
  retrainCnt : Word
  sweepCnt : Word
  lastErr : Word
  rdDly : Tab Nat            -- read and write delay of each bit, in steps (R268); bit b of device d is at 36d + b
  wrDly : Tab Nat
  train : Tab Word
  remap : Tab Remap
  cells : Mem
  scrubPos : Nat
  failRun : Nat              -- retrainings failed in succession
  ueHeat : Nat               -- uncorrectable reads in this heat
  aparHeats : Nat            -- consecutive heats with an address-parity report
  aparIn : Bool              -- this heat has had one
  recent : List QAcc
  replay : List QAcc
  dueRetrain : Bool          -- a due step moved to the next heat (R267)
  dueZq : Bool
  used : Nat                 -- lc of this cool-down taken by replay, retraining and ZQ
  busyTo : Nat               -- maintenance occupies the ports before this cycle (R267)
  scrubbed : Bool
  deriving DecidableEq, Repr

/-- A DIR = 0 rod between its issue and its arrival (R277). -/
structure SRod where
  due : Nat
  rod : Rod
  poison : Bool
  mc : Bool
  seat : Nat                 -- seat, or multicast list
  home : Nat
  clock : Nat
  deriving DecidableEq, Repr

/-- A DIR = 1 rod: its reading, and whether it has been served (R277, R278). -/
structure SRead where
  desc : Nat
  n : Nat
  rod : Rod
  poison : Bool
  at_ : Nat
  deriving DecidableEq, Repr

structure Engine where
  bank0 : Tab (BitVec 128)
  bank1 : Tab (BitVec 128)
  owner : BitVec 16
  newOwner : BitVec 16
  refused : Bool
  arm : Bool
  bank : Bool
  baddesc : Bool
  desc : Nat
  n : Nat
  ended : Bool               -- the program has ended in this heat
  asked : Nat                -- DIR = 1 rods whose read has been requested
  shift : Option (Nat × Nat) -- a late rod of the running descriptor and the cycle of its issue (R278)
  lateCnt : Word
  flying : List SRod
  reads : List SRead
  deriving DecidableEq, Repr

structure Mcast where
  bank0 : Tab (BitVec 128)
  bank1 : Tab (BitVec 128)
  refused : Bool
  arm : Bool
  bank : Bool
  deriving DecidableEq, Repr

/-- A response on its way to its master (R292). -/
structure FResp where
  id : Nat
  master : BitVec 11
  target : Nat
  addr : Nat
  write : Bool
  code : BitVec 2
  data : List Byte
  deriving DecidableEq, Repr

structure Fab where
  abort : Bool
  hopcrc : Bool
  hdr : Bool
  err : Bool
  errCnt : Word
  poisonCnt : Word
  hopCnt : Word
  hdrCnt : Word
  abortCnt : Word
  lastErr : Word
  lastAddr : Word
  grants : Tab Nat           -- FAB_WAIT_MAX[t].GRANTS
  rounds : Tab (BitVec 16)
  served : Tab (List Nat)    -- leaves whose SERVED bit is set, per target
  ptr : Tab Nat              -- an arbiter's pointer
  credit : Tab Nat           -- an arbiter's credit
  reqs : List FRod
  bridge : List FRod
  resps : List FResp
  done : List FResp          -- responses delivered to a master's port
  nextId : Nat
  deriving DecidableEq, Repr

/-- A frame for the steward firmware that waits at an ingest engine (R329, R343): its timestamp, PTP time in 50 ps, and what is
still to be written to steward memory. -/
structure StwFrame where
  port : Nat
  stamp : Nat
  left : List Byte
  deriving DecidableEq, Repr

/-- A received input waiting for its delivery slots (R333). -/
structure PRod where
  elem : Word
  rod : Rod
  ready : Nat
  due : Nat                  -- arrival cycle once it has entered; 0 before
  deadline : Option Nat
  heat : Nat                 -- the heat that it is an input of
  sig : Option Word          -- its input signature (R257)
  deriving DecidableEq, Repr

/-- What a flow has received for one heat (R332, R335). -/
structure FlowHeat where
  flow : Nat
  heat : Nat
  accepted : Nat
  dup : Nat
  first : Option Nat
  last : Option Nat
  rods : List Nat
  status : Bool              -- the status rod of this heat is written
  deriving DecidableEq, Repr

/-- An egress element whose read has been served (R340). -/
structure ElemGot where
  g : Nat
  rod : Rod
  poison : Bool
  late : Bool
  sig : Option Word := none  -- the output signature formed at the sending port (R256)
  deriving DecidableEq, Repr

/-- The emission of one heat's results on a port (R337–R341): gun + E of that heat, the records, and for each element the
lane it is read from and its FLAGGED [0] and DISPUTED [1] marks. -/
structure EgRun where
  heat : Nat
  base : Nat
  recs : List EgressRec
  srcs : List (Option Nat × BitVec 2)
  sig : Bool
  asked : Nat                -- elements requested
  got : List ElemGot
  nextRec : Nat              -- next record to send
  nextCell : Nat             -- next element of a Kaong record to send
  deriving DecidableEq, Repr

/-- The output or input half of a port's engine slot: two record banks and PCTRL (R351). -/
structure Pctrl where
  owner : BitVec 16
  newOwner : BitVec 16
  refused : Bool
  arm : Bool
  bank : Bool
  deriving DecidableEq, Repr

/-- A serial port with its ingest and egress engine slots (R326–R351). -/
structure Port where
  vid : BitVec 12
  vlan : Bool
  mode : BitVec 3
  kstate : BitVec 2
  lock : Bool
  cdr : Bool
  macLo : Word
  macHi : BitVec 16
  ip : Word
  ctrlUdp : BitVec 16
  tsCorr : Word
  kcfg : Word                -- KAONG_CFG
  krtt : Word
  txTs : Option Nat          -- timestamp of the last steward frame sent: PTP time in 50 ps (R343)
  scrRx : BitVec 58          -- the last 58 line bits received and sent (R344)
  scrTx : BitVec 58
  hdrRun : Nat               -- consecutive valid sync headers (R347)
  hdrs : BitVec 64           -- the last 64 sync headers, 1 for an invalid one, the last lowest
  events : BitVec 5
  cnt : Tab Word             -- the counters of 0x040–0x078, by word
  crcRun : Nat               -- consecutive CRC failures
  seqRx : Option (BitVec 16) -- previous good SEQ
  seqTx : BitVec 16
  lastTrain : Option (Word × Nat)   -- TX_TIME of the last TRAIN cell received, and when
  nonData : Nat              -- non-DATA cells sent, modulo 64
  txBusy : Nat               -- the transmitter is busy below this cycle
  ig : Pctrl
  in0 : Mem                  -- bank 0 of the ingest slot: headers and elements (R351)
  in1 : Mem
  inAt : Option Nat          -- cycle at which the other bank takes over (R336)
  inWas : Option (Nat × BitVec 16)  -- the cycle of the last such switch and the owner before it
  q0 : List PRod             -- rods for bank 0, oldest first
  q1 : List PRod
  flows : List FlowHeat
  eg : Pctrl
  out0 : Mem
  out1 : Mem
  runs : List EgRun          -- emissions not yet ended, oldest first
  ran : Nat                  -- 1 + last heat whose emission has begun
  deriving DecidableEq, Repr

/-- A ring of the host interface (R355, R358). -/
structure Ring where
  lo : Word
  hi : Word
  vector : BitVec 6
  size : Nat
  en : Bool
  head : Nat
  tail : Nat
  phase : Bool
  stopped : Bool
  bell : Word
  deriving DecidableEq, Repr

/-- An MSI-X table entry (R373). -/
structure Msix where
  addr : BitVec 64
  data : Word
  mask : Bool
  pend : Bool
  deriving DecidableEq, Repr

/-- What leaves the device on its links and pins. -/
inductive Out
  | dma (addr : Nat) (bytes : List Byte)
  | dmaRead (addr : Nat) (len : Nat)
  | completion (ur ep : Bool) (data : List Byte)
  | msix (vec : Nat) (addr : Nat) (data : Word)
  | frame (port : Nat) (bytes : List Byte) (checkOk : Bool)
  | cell (port : Nat) (blocks : List KBlock) (checkOk : Bool)
  | pin (n : Nat) (width : Nat)
  | uart (b : Byte)
  | i2c (start stop : Bool) (addr : BitVec 8) (b : Byte)
  | flash (cs : Nat) (bytes : List Byte)
  deriving DecidableEq, Repr

/-- A command that has finished and whose completion is not yet written (R362). -/
structure Compl where
  sq : Nat
  op : Byte
  cid : BitVec 16
  status : Nat
  r0 : Word
  r1 : Word
  sqHead : Nat
  dma : List Out             -- host writes that leave with the completion (R425)
  deriving DecidableEq, Repr

/-- Telemetry (R368, R369). -/
structure Telem where
  on : Bool
  irq : Bool
  periodMs : Nat
  seq : Nat
  skipped : Nat
  phaseMax : Nat
  utilMax : Nat
  base : Tab Nat             -- counter sums at the previous record
  deriving DecidableEq, Repr

structure Hif where
  errRing : BitVec 4
  resetSeen : Bool
  refused : Bool
  dberr : Bool
  ready : Bool
  sq : Tab Ring
  cq : Tab Ring
  evt : Ring
  tel : Ring
  msix : Tab Msix
  busMaster : Bool
  d3 : Bool
  absent : Bool
  cor : Bool                 -- AER: a correctable link error, an advisory non-fatal error, a fatal error (R376)
  advisory : Bool
  fatal : Bool
  pass : Nat                 -- first submission queue not yet served in this pass (R359)
  busy : Tab Bool            -- a command of queue q has been taken and not completed
  cut : List Nat             -- queues whose taken command a host reset fell on: its completion is not written (R374)
  compl : List Compl
  telem : Telem
  deriving DecidableEq, Repr

/-- An event entry (R370). -/
structure Event where
  code : Nat
  held : Bool
  seq : Nat
  heat : BitVec 64
  cyc : Word
  src : Word
  data : BitVec 64
  deriving DecidableEq, Repr

/-- The steward event queue (R372). -/
structure EvQ where
  q : List Event             -- oldest first
  seq : Nat                  -- next SEQ
  lost : Option (Nat × Nat)  -- an open EVENT_LOST: count and first SEQ lost
  deriving DecidableEq, Repr

/-- What R401 asks for a lane. -/
inductive ActKind
  | refresh
  | history
  | scratch
  deriving DecidableEq, Repr

/-- A fault action due at gun `gun` (R401). `cause` is the code of LANE_SCRATCHED (R404); 0 for a disputed result. -/
structure Act where
  lane : Nat
  kind : ActKind
  cause : Nat
  gun : Nat
  handle : Nat               -- 65536 for a lane of no running contract
  deriving DecidableEq, Repr

/-- A repair copy of a held seat (R404–R407). -/
structure Copy where
  seat : Nat
  lane : Nat
  src : Nat
  gid : Nat                  -- its repair group
  gun : Nat                  -- heat number of its action gun
  pos : Nat                  -- rods swept, 0–2,560
  reseat : Bool              -- the seat moved to a reserve
  deriving DecidableEq, Repr

/-- A repair group with a held lane (R403, R407, R409). -/
structure Group where
  gid : Nat
  handle : Nat
  gunNum : Nat               -- heat number of the action gun
  resume : Option Nat        -- the gun at which its members resume
  restart : Bool             -- every sweep restarts from row 0 at the next gun
  deriving DecidableEq, Repr

/-- Pairing, repair and steward pairs (R395–R415). -/
structure Pairing where
  stbyOk : Bool
  svc : Bool
  cnt : Tab Word             -- the eight counters of offsets 0x010–0x02C
  scratched : List Nat
  seatMap : Tab (Option Nat) -- lane of a seat
  seatSt : Tab (BitVec 2)    -- SEAT_STATE.STATE
  off : List Nat             -- seats of pairs single until service whose side is not delivered (R273, R409)
  acts : List Act
  deferred : List (Nat × Nat × Nat)  -- contract, lane and cause of a SCRATCH deferred to the withdrawal gun (R402)
  lastRefresh : Tab Nat      -- 1 + heat of a lane's last REFRESH, kept in the lifetime log (R401, R450)
  fencedIn : Tab Nat         -- 1 + heat in which a lane fenced
  copies : List Copy         -- in the order of service (R405)
  groups : List Group
  moved : Tab Nat            -- rod cycles a field mover has used in this cool-down (R407)
  nextGid : Nat
  shadow : Tab Nat           -- consecutive shadow-test failures of a reserve (R410)
  shadowIn : Tab Nat         -- 1 + heat of a reserve's last shadow test
  takeover : Bool            -- the standby takes service at the next gun
  stbyImage : Bool           -- image of the standby pair: 0 A, 1 B (R412)
  staged : Option (List Byte)
  commit : Option (Nat × Nat × BitVec 16)  -- gun, submission queue and CID of a FW_COMMIT
  selfTest : Bool            -- the reset pair is under self-test
  clearing : List (Nat × Nat)  -- seats being cleared, and the gun by which that has ended (R324)
  deriving DecidableEq, Repr

/-- Lifecycle record of R417. -/
structure LcRec where
  state : BitVec 3
  tokenSeq : Nat
  active : Bool
  minSvn : Nat
  keys : Tab (Option (List Byte))
  count : Nat
  deriving DecidableEq, Repr

/-- A firmware image's identity (R418). -/
structure Fw where
  version : Nat
  svn : Nat
  raise : Bool
  hash : BitVec 256
  deriving DecidableEq, Repr

/-- Security, identity and lifecycle (R416–R434). -/
structure Sec where
  serial : BitVec 128
  vendorHash : BitVec 256
  ownerHash : BitVec 256
  lcFuse : BitVec 2
  lc : LcRec
  tamper : BitVec 6
  tamperCnt : Word
  meas : Tab (BitVec 256)
  bootFail : Bool
  fallback : Bool
  image : Bool
  fw : Tab Fw                -- 0 image A, 1 image B
  debugLeft : Option Nat     -- heats an opened debug access has left
  rng : Nat                  -- draws made from the random number generator
  needId : Bool              -- a new identity is due (R431)
  tamperSince : Bool         -- SEC_TAMPER since the key was made
  up : Bool                  -- the steward firmware runs
  tamperLate : Bool          -- a detection whose SEC_TAMPER event waits for the next boot (R431)
  pendTok : Option (Nat × Nat × BitVec 16)  -- a transition to OPERATIONAL awaiting its identity: new state, queue, CID
  deriving DecidableEq, Repr

/-- A held snapshot: its header's fields, the byte ranges of its sections, and the sections (R441, R442). -/
structure Shot where
  num : Nat
  cause : Word
  heat : BitVec 64
  cyc : Word
  missed : Word
  domOff : Word
  secs : List (List Byte)
  deriving DecidableEq, Repr

/-- Photo-finish (R435–R440, R453). -/
structure Snap where
  arm : Word
  progCyc : BitVec 24
  progHeat : BitVec 64
  count : Word
  missed : Word
  pend : Option Nat          -- capture cycle c
  causes : BitVec 5
  primary : Nat
  code : Nat                 -- code of the first event trigger
  took : Word                -- bits of PF_ARM whose sources took part in the pending capture (R438)
  held : Option Shot
  heldAt : Nat
  deriving DecidableEq, Repr

/-- The lifetime log (R445–R453). -/
structure Log where
  mem : Mem                  -- the MRAM window, offsets from 0x6000_0000
  holdS : BitVec 16
  periodMs : BitVec 16
  slice : Nat
  seq : Nat                  -- SEQ of the frame being written
  boot : Nat
  frame : List Byte          -- the frame being written
  tot : Tab Nat              -- lifetime totals by frame word
  prev : Tab Nat             -- source counters at the previous pass
  jNext : Nat
  jSec : Nat                 -- entries written in the current second
  jSkip : Nat                -- events skipped in it
  hist : Tab Nat             -- lifetime values by frame word: histogram bins (R448) and the seconds each domain was powered
  ev : Tab Nat               -- counts kept by the firmware: 0x01A0 words, 64 + class for events, 128 + k for failures of channel k
  utilMax : Nat
  heatStart : BitVec 64
  deriving DecidableEq, Repr

/-- Power, clocks and reset (R455–R470). -/
structure Pwr where
  on : BitVec 20
  off : BitVec 20            -- PWR_REQ
  closing : Option Nat       -- a domain whose switch is closed and that is not yet ready
  events : BitVec 5
  cause : BitVec 5
  clk : BitVec 11
  wdtEn : Bool
  wdtPer : Nat
  wdtExp : Word
  kick : Tab Nat             -- cycle of a steward's last kick
  tjWarn : BitVec 16
  warned : Bool
  vddMv : BitVec 16
  temp : Tab (BitVec 16)
  rtc : BitVec 64
  rtcHi : Word
  rtcAcc : Nat
  mainOn : Bool
  inReset : Bool
  vbat : Bool                -- VBAT has been applied to D0
  deriving DecidableEq, Repr

structure Claim where
  held : Bool
  via : Nat
  owner : BitVec 11
  cfg : Word
  deriving DecidableEq, Repr

structure Tmr where
  en : Bool
  mode : BitVec 2
  gunsync : Bool
  rsv : BitVec 28
  cmp : Word
  cnt : Word
  cap : Word
  deriving DecidableEq, Repr

/-- The peripherals (R471–R481). -/
structure Periph where
  claim : Tab Claim
  refused : Bool
  dir : Word
  out : Word
  tx : List Byte
  rx : List Byte
  txovf : Bool
  overrun : Bool
  framing : Bool
  i2cBusy : Bool
  i2cCur : Word              -- the transfer in progress, as written
  i2cOpen : Option (BitVec 8)  -- ADDR and RD of the open transfer
  i2cRx : Byte
  i2cArb : Bool
  i2cNack : Bool
  tmr : Tab Tmr
  rail : Tab Word            -- PMB_RAIL
  powerMw : Nat
  tickDone : Bool            -- TICK_OUT has pulsed in this heat
  deriving DecidableEq, Repr

/-- The answer to the last register or port read. -/
structure Resp where
  code : BitVec 2
  data : Word
  deriving DecidableEq, Repr

end Sys2Proof.Machine
end

