-- ==== Sys2Proof/Machine/Tab.lean ====
section
/-! DEFINITION. Reading and writing a sparse table in canonical form. `D k` is what the unlisted key `k` reads as. -/

namespace Sys2Proof.Machine
open Sys2Proof

/-- What key `k` of table `m` holds. -/
def tget {α : Type} (D : Nat → α) : Tab α → Nat → α
  | [], k => D k
  | (i, v) :: r, k => if i = k then v else if k < i then D k else tget D r k

/-- Drop key `k` or set it to `v` before `r`, whose keys lie above `k`: the one place that decides whether an entry is
kept. A dropped key stays dropped in any list. -/
def tcons {α : Type} [DecidableEq α] (D : Nat → α) (k : Nat) (v : α) (r : Tab α) : Tab α :=
  if v = D k then r.filter (fun e => decide (k < e.1)) else (k, v) :: r

/-- `m` with key `k` holding `v`; an entry equal to the unlisted value is removed. -/
def tput {α : Type} [DecidableEq α] (D : Nat → α) : Tab α → Nat → α → Tab α
  | [], k, v => tcons D k v []
  | (i, u) :: r, k, v =>
    if i = k then tcons D k v r
    else if k < i then tcons D k v ((i, u) :: r)
    else (i, u) :: tput D r k v

/-- `f` applied to every key of the table (`f k (D k)` must be `D k`). -/
def tmap {α : Type} [DecidableEq α] (D : Nat → α) (f : Nat → α → α) : Tab α → Tab α
  | [] => []
  | (i, u) :: r => tcons D i (f i u) (tmap D f r)

/-- Every key lies above `lo`, keys strictly rise and no entry holds its unlisted value. -/
def tabove {α : Type} [DecidableEq α] (D : Nat → α) : Option Nat → Tab α → Bool
  | _, [] => true
  | lo, (i, u) :: r => (match lo with | none => true | some l => decide (l < i)) && decide (u ≠ D i) && tabove D (some i) r

/-- The canonical form. -/
def twf {α : Type} [DecidableEq α] (D : Nat → α) (m : Tab α) : Bool := tabove D none m

/-- An unlisted byte of memory reads as 0 (R461 step 3: every array is written with zero data). -/
def memDflt : Nat → BitVec 8 := fun _ => 0

def mget (m : Mem) (a : Nat) : BitVec 8 := tget memDflt m a
def mput (m : Mem) (a : Nat) (v : BitVec 8) : Mem := tput memDflt m a v

/-- The canonical form of a byte memory. -/
def memWf (m : Mem) : Bool := twf memDflt m

/-- `n` bytes from address `a`, lowest address first. -/
def mread (m : Mem) (a : Nat) : Nat → List Byte
  | 0 => []
  | n + 1 => mget m a :: mread m (a + 1) n

/-- The bytes `l` stored from address `a` upward. -/
def mwrite (m : Mem) (a : Nat) : List Byte → Mem
  | [] => m
  | b :: r => mwrite (mput m a b) (a + 1) r

/-- Little-endian value of a byte list (R7). -/
def leNat : List Byte → Nat
  | [] => 0
  | b :: r => b.toNat + 256 * leNat r

/-- The `n` low bytes of `v`, little-endian (R7). -/
def leBytes (v : Nat) : Nat → List Byte
  | 0 => []
  | n + 1 => BitVec.ofNat 8 v :: leBytes (v / 256) n

/-- The n-th byte of a list, 0 beyond its end. -/
def byteAt (l : List Byte) (i : Nat) : Byte := l.getD i 0

/-- Little-endian field of `n` bytes at offset `o` of a byte string. -/
def leAt (l : List Byte) (o n : Nat) : Nat := leNat ((l.drop o).take n)

end Sys2Proof.Machine
end

