-- ==== Sys2Proof/Machine/State.lean ====
section
/-! DEFINITION. The machine state of the CU1088, its faults and refusals, and the state right after device reset. -/

namespace Sys2Proof.Machine
open Sys2Proof

/-- Every piece of state of the device, and the queue of commands that wait. -/
structure State where
  now : Nat                  -- lane cycles since device reset
  pacer : Pacer
  lanes : Tab Lane
  mems : Tab LaneMem
  relay : RelayNet
  mail : Mail
  sm : StewMem
  qdr : Tab Qdr
  eng : Tab Engine
  mc : Mcast
  fab : Fab
  con : List Contract        -- in ascending handle order
  load : Option Loading
  ports : Tab Port
  stw : Tab (List StwFrame)  -- steward frames waiting at each ingest engine, oldest first
  hif : Hif
  ev : EvQ
  pair : Pairing
  sec : Sec
  snap : Snap
  log : Log
  pwr : Pwr
  per : Periph
  resp : Resp
  out : List Out             -- newest first
  free : Nat                 -- the model's own: draws of free values made so far
  pending : List Instr
  deriving DecidableEq, Repr

/-- Why a step can stop with a fault. No meaning of this model raises one: every command of the table answers a next
state. The one constructor is never built; a stop under it would be safe (the machine would stop where it goes on). -/
inductive Fault
  | never
  deriving DecidableEq, Repr

/-- Why a command can be refused. `notModelled` is raised only by an arm of `exec` that has no meaning (none has);
it is safe: the model stops where the device goes on. -/
inductive Refusal
  | notModelled (mnemonic : String)
  deriving DecidableEq, Repr

/-- The null capability (R165). -/
def nullCap : Cap := ⟨0, 0, 0, 0, 0, 0, false⟩

/-- The stewards' root capability (R168). -/
def rootCap (pos : Word) : Cap := ⟨pos, 0, 0, 0xFFE#12, 0, 0, true⟩

def unitsReset : Units :=
  { alu0o := 0, alu0r := 0, alu1o := 0, alu1r := 0, mulo := 0, mulLo := 0, mulHi := 0, fo1 := 0, fo2 := 0, fr := 0,
    fflags := 0, fmode := 0, maco := 0, macmode := 0, macst := 0, acc := [], vis := [], macTrig := [], base := 0,
    idx := 0, data := 0, lmode := 0, lr := 0, ua := 0, scs := 0, capsel := 0, capo := 0, capr := 0, capst := 0,
    mbxsel := 0, syssel := 0 }

def ctlReset : Ctl :=
  { pc := 0, rc := 0, rep := none, resumeRc := none, xfer := none, rstk := [], top := 0, depth := 0, ready := 0,
    restart := false, exact := false, bnd := none, lsuMark := 0, lastT := 0, stallUntil := 0, fetched := [],
    shownAt := 0, after := none, fetchRods := [], fetchAgain := false }

def trapReset : Trap :=
  { mask := 0, pend := 0, curNum := 0, curOt := 0, cnt := 0, cause := 0, addr := 0, scr := [], due := none, push := none, ret := none,
    load8 := none, drain8 := none, schk9 := false, fence := none, fenceAt := 0 }

def lsuReset : Lsu :=
  { sb := [], rsv := none, unmapped := false, ovl := 0, full := 0, remote := none, force := [],
    forceEnd := 0, drainAt := 0, scUndo := none }

def splitReset : Split :=
  { sig := 0xFFFFFFFF, lastSig := 0xFFFFFFFF, flag := false, schkEvt := false, late := false, schkTrap := false,
    tmrArm := false, tmrPer := false, tmrCyc := 0, tmrFrom := 0, sampleK := 0, sampleE := false, sampleGun := false,
    schkCnt := 0, lateAt := 0 }

def rlyReset : Rly :=
  { rx := [], ovf := false, unf := false, gundrop := false, clash := 0, unslot := 0, qovf := 0, rej := 0, ce := 0,
    ue := 0, team := 0x0000FFFF, moves := [] }

/-- A field lane after lane reset (R52, R163, R168, R194, R232): it holds no seat and has no work. -/
def laneReset0 : Lane :=
  { mode := .idle, w := [], g := 0, u := unitsReset, c := [], fcap := nullCap, tdt := nullCap, ctl := ctlReset,
    trap := trapReset, lsu := lsuReset, spl := splitReset, rly := rlyReset, nochan := false, master := 0x7FE,
    cfg := 0b11, flight := [] }

/-- Lane `p` after lane reset; a steward starts in the boot ROM with the root capability in `fcap` and c0 (R168). -/
def laneReset (p : Nat) : Lane :=
  if p < 1088 then laneReset0
  else
    { laneReset0 with
      mode := .run
      c := [(0, rootCap 0)]
      fcap := rootCap 0xF0000000
      ctl := { ctlReset with pc := 0xF0000000, restart := true }
      trap := { trapReset with mask := 0x10 }
      master := BitVec.ofNat 11 (0x400 + (p - 1088)) }

def rodArrReset : RodArr := { cells := [], tags := [], remap := [] }
def shPortReset : ShPort := { pend := [], ingest := [], busy := [], share := [] }

/-- A lane's memory block after device reset (R258, R461). -/
def laneMemReset : LaneMem :=
  { h0 := rodArrReset, h1 := rodArrReset, is := rodArrReset, p0 := shPortReset, p1 := shPortReset, pis := shPortReset,
    exhaust := false, marked := false, ue := false, ce := false, remapAuto := true, scrubEn := true, cmd := none,
    ceCnt := [], tagCe := 0, ueCnt := [], late := 0, lastErr := 0, lastSyn := 0, row := 0, rowIs := 0, sweeps := 0,
    visited := 0, dirty := [], fresh := [] }

def pendReset : PacerPend :=
  { heatLen := none, tick := none, ptp := none, epochSec := none, epochNs := none, src := none }

/-- The pacer after device reset (R34). -/
def pacerReset : Pacer :=
  { run := false, src := 0, state := .stopped, single := false, flyCnt := 0, flag0 := false, flag1 := false,
    tickAOk := false, tickBOk := false, heatLen := 125000, heatNum := 0, hiLatch := none, tickCfg := 0x00080000,
    ptpCfg := 0x00000030, epochSec := 0, epochNs := 0, flyLimit := 256, trim := 0, phaseErr := 0, applyLo := 0,
    applyHi := 0, applyArmed := false, pend := pendReset, events := 0, open_ := false, elapsed := 0, gunAt := 0,
    firstGun := none, firstNum := 0, rephase := none, edgeA := none, edgeB := none, aLost := false, bLost := false,
    lockRun := 0, unlockRun := 0, validRun := 0, ptpT := 0, ptpSeen := false, ptpNew := false, circGun := none, reload := none, lastDis := none,
    disabled := none }

def routReset : ROut :=
  { bank0 := [], bank1 := [], dir0 := [], dir1 := [], owner := 0xFFFF, newOwner := 0xFFFF, refused := false,
    arm := false, bank := false }
def rcntReset : RCnt := { ce := 0, ue := 0, drop := 0 }

def chanReset : Chan :=
  { data := [], len := 0, msgEpoch := 0, epoch := 0, full := false, busy := false, badlen := false, dropped := false,
    postCnt := 0, busyCnt := 0, dropCnt := 0, bindV := false, sender := 0, receiver := 0, sFull := false,
    sBusy := false, sBadlen := false, sDropped := false, rFull := false, discardTo := 0 }

def smReset : StewMem :=
  { arr := rodArrReset, busy := false, ue := false, ce := false, ceCnt := 0, ueCnt := 0, busyA := 0, busyB := 0,
    secRef := 0, lastErr := 0, row := 0, lastA := none, lastB := none, undoB := none, retry := [],
    scrubAt := 1024, scrubbed := 0 }

/-- A QDR controller after device reset (R281). -/
def qdrReset : Qdr :=
  { failUe := 16, zq := 10, retrain := 12, freq := 0, dens := false, scrubEn := true, remapAuto := true,
    present := false, freqF := 0, densF := false, state := 0, initStep := 0, events := 0,
    ceCnt := 0, ueCnt := 0, aparCnt := 0, retrainCnt := 0, sweepCnt := 0, lastErr := 0, rdDly := [], wrDly := [], train := [], remap := [],
    cells := [], scrubPos := 0, failRun := 0, ueHeat := 0, aparHeats := 0, aparIn := false, recent := [],
    replay := [], dueRetrain := false, dueZq := false, used := 0, busyTo := 0, scrubbed := false }

def engReset : Engine :=
  { bank0 := [], bank1 := [], owner := 0xFFFF, newOwner := 0xFFFF, refused := false, arm := false, bank := false,
    baddesc := false, desc := 0, n := 0, ended := true, asked := 0, shift := none, lateCnt := 0, flying := [],
    reads := [] }

def fabReset : Fab :=
  { abort := false, hopcrc := false, hdr := false, err := false, errCnt := 0, poisonCnt := 0, hopCnt := 0, hdrCnt := 0,
    abortCnt := 0, lastErr := 0, lastAddr := 0, grants := [], rounds := [], served := [], ptr := [], credit := [],
    reqs := [], bridge := [], resps := [], done := [], nextId := 0 }

def pctrlReset : Pctrl := { owner := 0xFFFF, newOwner := 0xFFFF, refused := false, arm := false, bank := false }

/-- A serial port after device reset (R351). -/
def portReset : Port :=
  { vid := 0, vlan := false, mode := 0, kstate := 0, lock := false, cdr := false, macLo := 0, macHi := 0, ip := 0,
    ctrlUdp := 0, tsCorr := 0, kcfg := 0, krtt := 0, txTs := none, scrRx := 0, scrTx := 0,
    hdrRun := 0, hdrs := 0, events := 0, cnt := [], crcRun := 0, seqRx := none, seqTx := 0,
    lastTrain := none, nonData := 0, txBusy := 0, ig := pctrlReset, in0 := [], in1 := [], inAt := none, inWas := none, q0 := [],
    q1 := [], flows := [], eg := pctrlReset, out0 := [], out1 := [], runs := [], ran := 0 }

/-- A ring after a host reset (R355). -/
def ringReset : Ring :=
  { lo := 0, hi := 0, vector := 0, size := 4, en := false, head := 0, tail := 0, phase := true, stopped := false,
    bell := 0 }

def msixReset : Msix := { addr := 0, data := 0, mask := true, pend := false }

def telemReset : Telem :=
  { on := false, irq := false, periodMs := 0, seq := 0, skipped := 0, phaseMax := 0, utilMax := 0, base := [] }

/-- The host interface after device reset (R355): the host is absent until it enables the event ring (R375). -/
def hifReset : Hif :=
  { errRing := 0, resetSeen := true, refused := false, dberr := false, ready := false, sq := [], cq := [],
    evt := ringReset, tel := ringReset, msix := [], busMaster := false, d3 := false, absent := true, cor := false,
    advisory := false, fatal := false, pass := 0, busy := [], cut := [], compl := [], telem := telemReset }

def pairReset : Pairing :=
  { stbyOk := false, svc := false, cnt := [], scratched := [], seatMap := [], seatSt := [], off := [], acts := [], deferred := [],
    lastRefresh := [], fencedIn := [], copies := [], groups := [], moved := [], nextGid := 0, shadow := [],
    shadowIn := [], takeover := false, stbyImage := false, staged := none, commit := none, selfTest := false, clearing := [] }

def lcRecReset : LcRec := { state := 0, tokenSeq := 0, active := false, minSvn := 0, keys := [], count := 0 }

def fwReset : Fw := { version := 0, svn := 0, raise := false, hash := 0 }

/-- Fuses and lifecycle record of a BLANK part (R416, R417). -/
def secReset : Sec :=
  { serial := 0, vendorHash := 0, ownerHash := 0, lcFuse := 0, lc := lcRecReset, tamper := 0, tamperCnt := 0,
    meas := [], bootFail := false, fallback := false, image := false, fw := [], debugLeft := none, rng := 0,
    needId := false, tamperSince := false, up := false, tamperLate := false, pendTok := none }

def snapReset : Snap :=
  { arm := 0, progCyc := 0, progHeat := 0, count := 0, missed := 0, pend := none, causes := 0, primary := 0, code := 0, took := 0,
    held := none, heldAt := 0 }

/-- The lifetime log of a part that has written nothing (R445, R453). -/
def logReset : Log :=
  { mem := [], holdS := 60, periodMs := 1000, slice := 0, seq := 0, boot := 0, frame := [], tot := [], prev := [],
    jNext := 0, jSec := 0, jSkip := 0, hist := [], ev := [], utilMax := 0, heatStart := 0 }

/-- The power controller after a power-on reset (R461, R469). -/
def pwrReset : Pwr :=
  { on := 0xE07FF, off := 0x1F800, closing := none, events := 0, cause := 0b00001, clk := 0, wdtEn := false,
    wdtPer := 100000, wdtExp := 0, kick := [], tjWarn := 0x0370, warned := false, vddMv := 0, temp := [], rtc := 0,
    rtcHi := 0, rtcAcc := 0, mainOn := true, inReset := true, vbat := false }

/-- A free resource (R477). -/
def claimFree : Claim := { held := false, via := 0, owner := 0, cfg := 0 }

def tmrReset : Tmr := { en := false, mode := 0, gunsync := false, rsv := 0, cmp := 0xFFFFFFFF, cnt := 0, cap := 0 }

/-- The steward firmware holds resources 0x40 and 0x41 from boot (R476). -/
def fwClaim (r : Nat) : Claim := { held := true, via := r, owner := 0x404, cfg := 0 }

def perReset : Periph :=
  { claim := [(0x40, fwClaim 0x40), (0x41, fwClaim 0x41)], refused := false, dir := 0, out := 0, tx := [],
    rx := [], txovf := false, overrun := false, framing := false, i2cBusy := false, i2cCur := 0, i2cOpen := none,
    i2cRx := 0, i2cArb := false, i2cNack := false, tmr := [], rail := [], powerMw := 0,
    tickDone := false }

/-- The device in its first device reset, not yet released (R461): every register at its reset value, no contract, guns
stopped, every lane in the reset state of R52. RESET_RELEASE is the command that starts it. -/
def State.reset : State :=
  { now := 0, pacer := pacerReset, lanes := [], mems := [], relay := { outs := [], cnt := [], words := [] },
    mail := { chans := [], lock := false, path := [] }, sm := smReset, qdr := [], eng := [],
    mc := { bank0 := [], bank1 := [], refused := false, arm := false, bank := false }, fab := fabReset, con := [],
    load := none, ports := [], stw := [], hif := hifReset, ev := { q := [], seq := 0, lost := none },
    pair := pairReset, sec := secReset, snap := snapReset, log := logReset, pwr := pwrReset, per := perReset,
    resp := { code := 0, data := 0 }, out := [], free := 0, pending := [] }

end Sys2Proof.Machine
end

