-- ==== Sys2Proof/Machine/RodCode.lean ====
section
/-! DEFINITION. The rod code RS(36,32), rows of rod-coded arrays with spare rows and tags, and the CRCs (R159, R237–R247). -/

namespace Sys2Proof.Machine
open Sys2Proof

/-- Multiplication by α = 0x02 in GF(2^8) of 0x11D (R240). -/
def gfX (a : Byte) : Byte := (a <<< 1) ^^^ (if a.msb then 0x1D else 0)

def gfMulAux : Nat → Byte → Byte → Byte
  | 0, _, _ => 0
  | n + 1, a, b => (if b.getLsbD 0 then a else 0) ^^^ gfMulAux n (gfX a) (b >>> 1)

/-- Product in GF(2^8). -/
def gfMul (a b : Byte) : Byte := gfMulAux 8 a b

/-- α^j. -/
def gfPow : Nat → Byte
  | 0 => 1
  | j + 1 => gfX (gfPow j)

/-- Division of the data polynomial by g(x), highest coefficient first; the remainder's x^0 to x^3 (R240). -/
def rsStep (p : Byte × Byte × Byte × Byte) (d : Byte) : Byte × Byte × Byte × Byte :=
  let f := d ^^^ p.2.2.2
  (gfMul f 0x40, p.1 ^^^ gfMul f 0x78, p.2.1 ^^^ gfMul f 0x36, p.2.2.1 ^^^ gfMul f 0x0F)

/-- The check bytes p_0 to p_3 of 32 data bytes (R240). -/
def rsCheck (d : List Byte) : List Byte :=
  let p := d.foldl rsStep (0, 0, 0, 0)
  [p.1, p.2.1, p.2.2.1, p.2.2.2]

/-- The 36 stored symbols of a rod (R240). -/
def rodEncode (d : List Byte) : List Byte := d ++ rsCheck d

/-- The stored symbols of a marked rod: p_0 and p_1 XORed with 0x5A (R242). -/
def rodEncodeMarked (d : List Byte) : List Byte :=
  match rsCheck d with
  | [a, b, c, e] => d ++ [a ^^^ 0x5A, b ^^^ 0x5A, c, e]
  | l => d ++ l

/-- Symbols from the coefficient of x^35 down to x^0. -/
def rodPoly (w : List Byte) : List Byte := w.take 32 ++ (w.drop 32).reverse

/-- The received word evaluated at `x` (R241). -/
def rodEval (w : List Byte) (x : Byte) : Byte := (rodPoly w).foldl (fun acc c => gfMul acc x ^^^ c) 0

/-- The syndromes S_0 to S_3 (R241). -/
def rodSyn (w : List Byte) : Byte × Byte × Byte × Byte :=
  (rodEval w 1, rodEval w 2, rodEval w 4, rodEval w 8)

/-- The exponent j of a single-symbol error, searched from `j` for `n` values (R241). -/
def rodFind (s : Byte × Byte × Byte × Byte) : Nat → Nat → Option Nat
  | 0, _ => none
  | n + 1, j =>
    let a := gfPow j
    if s.2.1 = gfMul s.1 a ∧ s.2.2.1 = gfMul s.2.1 a ∧ s.2.2.2 = gfMul s.2.2.1 a then some j else rodFind s n (j + 1)

/-- Outcome of reading one row. -/
inductive RodOk
  | clean
  | corrected
  | uncor (marked : Bool)
  deriving DecidableEq, Repr

/-- What a read of a row delivers: 32 data bytes, tags, the outcome, the syndromes S_3…S_0 (LAST_SYN) and whether the
copies of a tag bit disagree. -/
structure RowRead where
  data : List Byte
  tags : BitVec 2
  ok : RodOk
  syn : Word
  tagCe : Bool
  deriving DecidableEq, Repr

def RowRead.bad (r : RowRead) : Bool := match r.ok with | .uncor _ => true | _ => false
def RowRead.marked (r : RowRead) : Bool := match r.ok with | .uncor m => m | _ => false
def RowRead.fixed (r : RowRead) : Bool := match r.ok with | .corrected => true | _ => false

/-- Decode 36 stored symbols: the delivered data and the outcome (R241). -/
def rodDecode (w : List Byte) : List Byte × RodOk × Word :=
  let s := rodSyn w
  let syn : Word := s.2.2.2.zeroExtend 32 <<< 24 ||| s.2.2.1.zeroExtend 32 <<< 16 ||| s.2.1.zeroExtend 32 <<< 8
    ||| s.1.zeroExtend 32
  if s = (0, 0, 0, 0) then (w.take 32, .clean, syn)
  else if s = (0, 0xEE, 0x2F, 0xB0) then (w.take 32, .uncor true, syn)
  else if s.1 = 0 then (w.take 32, .uncor false, syn)
  else match rodFind s 36 0 with
    | none => (w.take 32, .uncor false, syn)
    | some j =>
      if 4 ≤ j then ((w.take 32).set (35 - j) (byteAt w (35 - j) ^^^ s.1), .corrected, syn)
      else (w.take 32, .corrected, syn)

/-- The majority of three copies of a tag pair (R238). -/
def tagMaj (t : BitVec 6) : BitVec 2 :=
  let a := t.extractLsb' 0 2; let b := t.extractLsb' 2 2; let c := t.extractLsb' 4 2
  (a &&& b) ||| (b &&& c) ||| (a &&& c)

/-- The physical row of a logical row: the spare that replaces it, if any (R245). -/
def physRow (a : RodArr) (rows row : Nat) : Nat :=
  match a.remap.find? (fun e => e.2.v && decide (e.2.row = row)) with
  | some (k, _) => rows + k
  | none => row

def tagDflt : Nat → BitVec 6 := fun _ => 0
def remapDflt : Nat → Remap := fun _ => ⟨false, false, 0⟩

/-- Read a physical row. -/
def readPhys (a : RodArr) (r : Nat) : RowRead :=
  let d := rodDecode (mread a.cells (36 * r) 36)
  let t := tget tagDflt a.tags r
  { data := d.1, tags := tagMaj t, ok := d.2.1, syn := d.2.2,
    tagCe := !(decide (t.extractLsb' 0 2 = t.extractLsb' 2 2) && decide (t.extractLsb' 2 2 = t.extractLsb' 4 2)) }

/-- Write a physical row with its symbols and all three copies of its tags. -/
def writePhys (a : RodArr) (r : Nat) (sym : List Byte) (t : BitVec 2) : RodArr :=
  { a with cells := mwrite a.cells (36 * r) sym, tags := tput tagDflt a.tags r (t ++ t ++ t) }

/-- Read a logical row of an array with `rows` rows in service. -/
def readRow (a : RodArr) (rows row : Nat) : RowRead := readPhys a (physRow a rows row)

/-- Write a logical row, encoded afresh, with its tags. -/
def writeRow (a : RodArr) (rows row : Nat) (d : List Byte) (t : BitVec 2) (mark : Bool) : RodArr :=
  writePhys a (physRow a rows row) (if mark then rodEncodeMarked d else rodEncode d) t

/-- Replace the bytes of `old` that `m` selects by those of `new`. -/
def mergeBytes : List Byte → List Byte → List Bool → List Byte
  | o :: os, n :: ns, m :: ms => (if m then n else o) :: mergeBytes os ns ms
  | os, _, _ => os

/-- The 32 bytes of a rod value, lowest address first. -/
def rodBytes (r : Rod) : List Byte := leBytes r.toNat 32

/-- The rod value of its bytes. -/
def bytesRod (l : List Byte) : Rod := BitVec.ofNat 256 (leNat l)

/-- The bits of a byte mask. -/
def maskBools (m : BitVec 32) : List Bool := (List.range 32).map m.getLsbD

/-- One bit of the reflected CRC-32C (R159). -/
def crc32cBit (c : Word) : Word := (c >>> 1) ^^^ (if c.getLsbD 0 then 0x82F63B78 else 0)

def iter {α : Type} (f : α → α) : Nat → α → α
  | 0, a => a
  | n + 1, a => iter f n (f a)

def crc32cByte (c : Word) (b : Byte) : Word := iter crc32cBit 8 (c ^^^ b.zeroExtend 32)

/-- CRC-32C over bytes, initial value 0xFFFF_FFFF, no final XOR (R159, R256). -/
def crc32c (l : List Byte) : Word := l.foldl crc32cByte 0xFFFFFFFF

/-- One fold of the signature (R159). -/
def sigFold (sig t : Word) : Word := iter crc32cBit 32 (sig ^^^ t)

/-- The 16-bit hop CRC over data bytes in order (R247). -/
def crc16Bit (c : BitVec 16) : BitVec 16 := (c <<< 1) ^^^ (if c.msb then 0x1021 else 0)
def crc16Byte (c : BitVec 16) (b : Byte) : BitVec 16 := iter crc16Bit 8 (c ^^^ (b.zeroExtend 16 <<< 8))
def hopCrc (l : List Byte) : BitVec 16 := l.foldl crc16Byte 0xFFFF

/-- A rod at the end of a way on which `e` came over it: what arrives, and whether its hop CRC fails there (R247). -/
def hopPass (d : Rod) (e : HopErr) : Rod × Bool :=
  (d ^^^ e.data, decide (hopCrc (rodBytes (d ^^^ e.data)) ≠ hopCrc (rodBytes d) ^^^ e.crc))

end Sys2Proof.Machine
end

