-- ==== Sys2Proof/Machine/LinkCode.lean ====
section
/-! DEFINITION. What the serial links are coded in: the frame check, the fields and checksums of a received frame, and the 66-bit
blocks and the scrambler of a Kaong link (R328, R338, R344). The standards that R328 and R344 name supply what they leave out
(PRESUMED, log 82). -/

namespace Sys2Proof.Machine
open Sys2Proof

/-- Big-endian value of `n` bytes at offset `o`. -/
def beAt (l : List Byte) (o n : Nat) : Nat := leNat ((l.drop o).take n).reverse

/-- Big-endian bytes. -/
def netBytes (v n : Nat) : List Byte := (leBytes v n).reverse

/-- One bit of the reflected CRC-32 of IEEE 802.3. -/
def crc32Bit (c : Word) : Word := (c >>> 1) ^^^ (if c.getLsbD 0 then 0xEDB88320 else 0)
def crc32Byte (c : Word) (b : Byte) : Word := iter crc32Bit 8 (c ^^^ b.zeroExtend 32)

/-- The FCS of a frame, sent lowest byte first (R328, R338). -/
def crc32 (l : List Byte) : Word := l.foldl crc32Byte 0xFFFFFFFF ^^^ 0xFFFFFFFF

/-- The sum of 16-bit words, highest byte first, of the Internet checksum; an odd last byte has a zero byte behind it. -/
def ipSum : List Byte → Nat
  | a :: b :: r => a.toNat * 256 + b.toNat + ipSum r
  | [a] => a.toNat * 256
  | [] => 0

/-- That sum in ones' complement. -/
def onesSum (l : List Byte) : Nat :=
  let x := ipSum l
  let x := x % 65536 + x / 65536
  x % 65536 + x / 65536
def ipChecksum (l : List Byte) : Nat := 65535 - onesSum l

/-! ### Received frames (R328, R329) -/

/-- What a port reads of a received frame. `payEnd` is how many bytes of the frame end with the last UDP payload byte. -/
structure FrameView where
  fcsOk : Bool
  length : Nat
  dstMac : BitVec 48
  vlan : Option (BitVec 12)
  etherType : BitVec 16
  ipOk : Bool
  proto : BitVec 8
  srcIp : Word
  dstIp : Word
  udpOk : Bool
  dstUdp : BitVec 16
  payload : List Byte
  payEnd : Nat
  deriving DecidableEq, Repr

/-- The pseudo-header of a UDP checksum. -/
def pseudoHead (b : List Byte) (o udpLen : Nat) : List Byte := (b.drop (o + 12)).take 8 ++ [0, 17] ++ netBytes udpLen 2

/-- The fields of a frame; its IPv4 header begins at offset 14, or at 18 behind a tag. The header is valid with version 4, IHL
5, a right checksum, no fragment and a total length that the frame holds; the UDP header with a length that the datagram holds
and a checksum that is 0 or right (R328). -/
def frameView (f : Frame) : FrameView :=
  let b := f.bytes
  let n := b.length
  let tag := decide (beAt b 12 2 = 0x8100)
  let o := if tag then 18 else 14
  let ipLen := beAt b (o + 2) 2
  let udpLen := beAt b (o + 24) 2
  { fcsOk := decide (4 ≤ n) && decide (leAt b (n - 4) 4 = (crc32 (b.take (n - 4))).toNat)
    length := n
    dstMac := BitVec.ofNat 48 (beAt b 0 6)
    vlan := if tag then some (BitVec.ofNat 12 (beAt b 14 2)) else none
    etherType := BitVec.ofNat 16 (beAt b (o - 2) 2)
    ipOk := decide (byteAt b o = 0x45) && decide (onesSum ((b.drop o).take 20) = 65535) && decide (beAt b (o + 6) 2 % 16384 = 0)
      && decide (20 ≤ ipLen) && decide (o + ipLen + 4 ≤ n)
    proto := byteAt b (o + 9)
    srcIp := BitVec.ofNat 32 (beAt b (o + 12) 4)
    dstIp := BitVec.ofNat 32 (beAt b (o + 16) 4)
    udpOk := decide (8 ≤ udpLen) && decide (20 + udpLen ≤ ipLen)
      && (decide (beAt b (o + 26) 2 = 0) || decide (onesSum (pseudoHead b o udpLen ++ (b.drop (o + 20)).take udpLen) = 65535))
    dstUdp := BitVec.ofNat 16 (beAt b (o + 22) 2)
    payload := (b.drop (o + 28)).take (udpLen - 8)
    payEnd := o + 20 + udpLen }

/-! ### Kaong blocks (R344) -/

/-- The sync headers in the order sent, first bit lowest: 10 for control, 01 for data. -/
def hdrControl : BitVec 2 := 1
def hdrData : BitVec 2 := 2
def blockValid (b : KBlock) : Bool := decide (b.hdr = hdrControl) || decide (b.hdr = hdrData)

/-- One bit through the scrambler x^58 + x^39 + 1, whose state `st` holds the last 58 bits sent, the last one lowest. -/
def scrTap (st : BitVec 58) : Bool := xor (st.getLsbD 38) (st.getLsbD 57)
def scrPush (st : BitVec 58) (b : Bool) : BitVec 58 := (st <<< 1) ||| (if b then 1 else 0)
def bitAt (i : Nat) (b : Bool) : BitVec 64 := if b then (1 : BitVec 64) <<< i else 0

/-- The 64 payload bits of a block scrambled, lowest first. -/
def scramble64 (st : BitVec 58) (w : BitVec 64) : BitVec 64 × BitVec 58 :=
  (List.range 64).foldl (fun a i =>
    let o := xor (w.getLsbD i) (scrTap a.2)
    (a.1 ||| bitAt i o, scrPush a.2 o)) (0, st)

/-- The received bits descrambled. -/
def descramble64 (st : BitVec 58) (w : BitVec 64) : BitVec 64 × BitVec 58 :=
  (List.range 64).foldl (fun a i =>
    let r := w.getLsbD i
    (a.1 ||| bitAt i (xor r (scrTap a.2)), scrPush a.2 r)) (0, st)

/-- A cell's bytes, eight a block, scrambled behind their sync headers: the first block of a cell is a control block. -/
def cellBlocks (st : BitVec 58) : Nat → Nat → List Byte → List KBlock × BitVec 58
  | 0, _, _ => ([], st)
  | n + 1, i, b =>
    let x := scramble64 st (BitVec.ofNat 64 (leNat (b.take 8)))
    let q := cellBlocks x.2 n (i + 1) (b.drop 8)
    ({ hdr := if i = 0 then hdrControl else hdrData, bits := x.1 } :: q.1, q.2)

/-- Received blocks descrambled: each header with its eight bytes. -/
def readBlocks (st : BitVec 58) : List KBlock → List (KBlock × List Byte) × BitVec 58
  | [] => ([], st)
  | b :: r =>
    let x := descramble64 st b.bits
    let q := readBlocks x.2 r
    ((b, leBytes x.1.toNat 8) :: q.1, q.2)

end Sys2Proof.Machine
end

