-- ==== Sys2Proof/Config.lean ====
section
/-! DEFINITION. What an implementation fixes and the values the spec leaves open: opaque constants with no body. A field
applied to `State.free`, a counter that each draw advances, gives a fresh free value. -/

namespace Sys2Proof

/-- Word `i` of the boot ROM (R155, R420): the spec does not give its contents. -/
opaque Config.bootRom : Nat → Word

/-- The amount by which the pacer would steer its trim at a gun, in ppb: the spec bounds it and gives no law (R19). -/
opaque Config.steer : Nat → Int

/-- What the rod of a refused steward-memory read holds (R251: "a rod of undefined data"). -/
opaque Config.undefRod : Nat → Rod

/-- SLH-DSA-SHA2-128s verification of (public key, formatted message, signature) (FIPS 205, R315). -/
opaque Config.slhVerify : List Byte → List Byte → List Byte → Bool

/-- SLH-DSA-SHA2-128s signature under a private key of a formatted message, with the randomness of draw `n` (FIPS 205, R315). -/
opaque Config.slhSign : Nat → List Byte → List Byte → List Byte

/-- The identity private key generated at draw `n` of the random number generator (R422); its last 32 bytes are the
public key (FIPS 205). -/
opaque Config.identityKey : Nat → List Byte

/-- The vendor identifier in the configuration space (R353): the spec does not give its value. -/
opaque Config.vendorId : BitVec 16

/-- The payload and read request sizes that the host has set, as the exponents of 128 · 2^n bytes (R352). -/
opaque Config.payload : Nat
opaque Config.readRequest : Nat

/-- SILICON_REV of IDENTIFY (R364): the spec does not give it. -/
opaque Config.siliconRev : Word

/-- The levels of the GPIO pins at read `n`, where the device does not drive them (R477). -/
opaque Config.pinLevels : Nat → Word

/-- Where the reference lies, in lc after the current heat's L-th cycle, when PACER_CFG asks for a rephase (R20). -/
opaque Config.refPhase : Nat → Nat

/-- The bytes of a copy of the lifecycle record before its CRC, from STATE, TOKEN_SEQ, ACTIVE, MIN_SVN, KEYS and the write
count (R417): the spec gives no offsets. -/
opaque Config.lcRecord : Nat → Nat → Nat → Nat → List (Option (List Byte)) → Nat → List Byte

/-- The fuse values as M1 is extended with them, from SERIAL, VENDOR_KEY_HASH, OWNER_KEY_HASH and LC_FUSE (R420): the spec
gives no byte order. -/
opaque Config.fuseBytes : Nat → Nat → Nat → Nat → List Byte

/-- The header region of the lifetime log, from SERIAL, BOOT and PERIOD_MS (R445): the spec gives no offsets. -/
opaque Config.logHeader : Nat → Nat → Nat → List Byte

/-- What a range of the log holds after write `n` failed its verification twice (R445). -/
opaque Config.failedWrite : Nat → List Byte

end Sys2Proof
end

