-- ==== Sys2Proof/Machine/Ops.lean ====
section
/-! DEFINITION. The named operations over State that every meaning shares: access to the tables, saturating counters,
heat time, events with the journal and photo-finish triggers, results in flight, and rows of a lane's arrays. -/

namespace Sys2Proof.Machine
open Sys2Proof

/-! ### Tables -/

def lmemDflt : Nat → LaneMem := fun _ => laneMemReset
def qdrDflt : Nat → Qdr := fun _ => qdrReset
def engDflt : Nat → Engine := fun _ => engReset
def stwDflt : Nat → List StwFrame := fun _ => []
def portDflt : Nat → Port := fun _ => portReset
def chanDflt : Nat → Chan := fun _ => chanReset
def routDflt : Nat → ROut := fun _ => routReset
def rcntDflt : Nat → RCnt := fun _ => rcntReset
def zeroW : Nat → Word := fun _ => 0
def zeroN : Nat → Nat := fun _ => 0

def State.lane (s : State) (p : Nat) : Lane := tget laneReset s.lanes p
def State.setLane (s : State) (p : Nat) (l : Lane) : State := { s with lanes := tput laneReset s.lanes p l }
def State.lmem (s : State) (p : Nat) : LaneMem := tget lmemDflt s.mems p
def State.setLmem (s : State) (p : Nat) (m : LaneMem) : State := { s with mems := tput lmemDflt s.mems p m }
def State.qch (s : State) (k : Nat) : Qdr := tget qdrDflt s.qdr k
def State.setQch (s : State) (k : Nat) (q : Qdr) : State := { s with qdr := tput qdrDflt s.qdr k q }
def State.engine (s : State) (e : Nat) : Engine := tget engDflt s.eng e
def State.setEngine (s : State) (e : Nat) (v : Engine) : State := { s with eng := tput engDflt s.eng e v }
def State.port (s : State) (k : Nat) : Port := tget portDflt s.ports k
def State.setPort (s : State) (k : Nat) (v : Port) : State := { s with ports := tput portDflt s.ports k v }
def State.chan (s : State) (c : Nat) : Chan := tget chanDflt s.mail.chans c
def State.setChan (s : State) (c : Nat) (v : Chan) : State :=
  { s with mail := { s.mail with chans := tput chanDflt s.mail.chans c v } }

def getW (t : Tab Word) (k : Nat) : Word := tget zeroW t k
def putW (t : Tab Word) (k : Nat) (v : Word) : Tab Word := tput zeroW t k v
def getN (t : Tab Nat) (k : Nat) : Nat := tget zeroN t k
def putN (t : Tab Nat) (k : Nat) (v : Nat) : Tab Nat := tput zeroN t k v

/-! ### Counters -/

/-- A 32-bit counter that saturates at 0xFFFF_FFFF, advanced by `n`. -/
def satAdd (c : Word) (n : Nat) : Word := if c.toNat + n ≥ 4294967295 then 0xFFFFFFFF else c + BitVec.ofNat 32 n
def sat1 (c : Word) : Word := satAdd c 1
def bumpW (t : Tab Word) (k : Nat) : Tab Word := putW t k (sat1 (getW t k))
/-- A total kept by the firmware, saturating at 0xFFFF_FFFF (R446). -/
def bumpN (t : Tab Nat) (k : Nat) : Tab Nat := putN t k (min (getN t k + 1) 4294967295)

/-- Count `k` of the firmware's own counts (offset 0x01A0 of a frame, R447). -/
def State.tally (s : State) (k : Nat) : State := { s with log := { s.log with ev := bumpN s.log.ev k } }

/-- One more in the 4-byte histogram bin at frame offset `o` (R448). -/
def State.hist4 (s : State) (o : Nat) : State := { s with log := { s.log with hist := bumpN s.log.hist (o / 4) } }
/-- One more in the 8-byte histogram bin at frame offset `o` (R448). -/
def State.hist8 (s : State) (o : Nat) : State :=
  { s with log := { s.log with hist := putN s.log.hist (o / 4) (min (getN s.log.hist (o / 4) + 1) 18446744073709551615) } }

/-! ### Heat time -/

/-- The cool-down length of R3: the larger of 400 lc and 3 % of L rounded up. -/
def coolLen (l : Nat) : Nat := max 400 ((3 * l + 99) / 100)

def State.L (s : State) : Nat := s.pacer.heatLen
def State.D (s : State) : Nat := coolLen s.pacer.heatLen

/-- `spl.cyc` (R10); it reads 0 before the first gun. -/
def State.cyc (s : State) : Nat := if s.pacer.open_ then min s.pacer.elapsed (s.L - 1) else 0

/-- The heat is in its contract part: relay tables and streams run (R217, R277). -/
def State.working (s : State) : Bool := s.pacer.open_ && decide (s.pacer.elapsed < s.L - s.D)

/-- The current cycle lies in the cool-down (R3, R20, R497). -/
def State.cooling (s : State) : Bool :=
  s.pacer.open_ && decide (s.L - s.D ≤ s.pacer.elapsed) && decide (s.pacer.elapsed < s.L)

/-- The cool-down cycle, from 0. -/
def State.coolCyc (s : State) : Nat := s.pacer.elapsed - (s.L - s.D)

def State.heatW (s : State) : Word := s.pacer.heatNum.truncate 32

/-! ### Contracts -/

def State.anyActive (s : State) : Bool := s.con.any (fun c => c.state == .active)
def State.anyLive (s : State) : Bool := s.con.any (fun c => c.state == .active || c.state == .scheduled)
def State.contract (s : State) (h : Nat) : Option Contract := s.con.find? (fun c => c.handle == h)
def State.setContract (s : State) (c : Contract) : State :=
  { s with con := s.con.map (fun d => if d.handle = c.handle then c else d) }

/-- Lane `p` is a steward lane. -/
def isStw (p : Nat) : Bool := decide (1088 ≤ p) && decide (p < 1092)

/-- A master identity is the steward firmware: a steward lane or the steward pair in service (R285). -/
def isStwMaster (m : BitVec 11) : Bool := decide (0x400 ≤ m.toNat) && decide (m.toNat ≤ 0x404)

/-- What a command makes of a device that is out of device reset; in reset nothing but reset, power and tamper acts
(R461). -/
def State.live (s t : State) : State := if s.pwr.inReset then s else t

/-! ### Results in flight -/

/-- Insert after every entry due at the same time or before. -/
def addLast (f : Flight) : List Flight → List Flight
  | [] => [f]
  | g :: r => if g.due ≤ f.due then g :: addLast f r else f :: g :: r

/-- Insert before every entry due at the same time. -/
def addFirst (f : Flight) : List Flight → List Flight
  | [] => [f]
  | g :: r => if g.due < f.due then g :: addFirst f r else f :: g :: r

def Lane.fly (l : Lane) (due unit : Nat) (r : Res) : Lane :=
  { l with flight := addLast { due := due, unit := unit, res := r } l.flight }

/-- Interrupt 32 + k becomes pending in the current cycle; boundaries of the next cycle see it (R189, R208). -/
def State.pendInt (s : State) (p k : Nat) : State := s.setLane p ((s.lane p).fly (s.now + 1) 13 (.pend k))

/-! ### Photo-finish triggers -/

def leW (v : Word) : List Byte := leBytes v.toNat 4

/-- The 32 bytes of an event entry (R370). -/
def eventBytes (e : Event) (p : Bool) (b3 : Byte) : List Byte :=
  leBytes e.code 2 ++ [(if p then 1 else 0) ||| (if e.held then 2 else 0), b3] ++ leBytes e.seq 4
    ++ leBytes e.heat.toNat 8 ++ leW e.cyc ++ leW e.src ++ leBytes e.data.toNat 8

/-- Append an entry to the event journal, or count it as skipped (R449). -/
def State.journal (s : State) (e : Event) : State :=
  if s.log.jSec ≥ 10000 then
    { s with log := { s.log with jSkip := s.log.jSkip + 1, ev := bumpN s.log.ev 18 } }
  else
    { s with log := { s.log with
        mem := mwrite s.log.mem (0x280000 + 32 * s.log.jNext) (eventBytes e true (BitVec.ofNat 8 s.log.boot)),
        jNext := (s.log.jNext + 1) % 32768, jSec := s.log.jSec + 1 } }

/-- The device may access host memory: the host is there, and no fatal error waits for a host reset (R375, R376). -/
def State.hostHere (s : State) : Bool := s.hif.busMaster && !s.hif.d3 && !s.hif.absent && !s.hif.fatal

/-- Whether an entry may move from the steward queue to the event ring (R372, R375). -/
def ringFull (r : Ring) : Bool := decide ((r.tail + 1) % 2 ^ r.size = r.head)
def State.evtOpen (s : State) : Bool := s.hif.evt.en && !s.hif.evt.stopped && !ringFull s.hif.evt && s.hostHere

/-- The source word of an event: kind and number (R370). -/
def srcW (kind num : Nat) : Word := BitVec.ofNat 32 (kind * 268435456 + num)

def evq (s : State) (code : Nat) (src : Word) (data : BitVec 64) (tied : Bool) (seq : Nat) (held : Bool) : Event :=
  { code := code, held := held, seq := seq % 4294967296, heat := s.pacer.heatNum,
    cyc := if tied then BitVec.ofNat 32 s.cyc else 0xFFFFFFFF, src := src, data := data }

/-- Place an event in the steward event queue with its SEQ, or count it as lost (R372). -/
def State.enqueue (s : State) (code : Nat) (src : Word) (data : BitVec 64) (tied : Bool) : State :=
  let held := !s.evtOpen || s.ev.q.any (·.held)
  match s.ev.lost with
  | none =>
    let e := evq s code src data tied s.ev.seq held
    if s.ev.q.length ≥ 4095 then
      ({ s with ev := { s.ev with seq := s.ev.seq + 1, lost := some (1, s.ev.seq) } }).journal e
    else ({ s with ev := { s.ev with q := s.ev.q ++ [e], seq := s.ev.seq + 1 } }).journal e
  | some (n, first) =>
    if s.ev.q.length + 1 ≥ 4095 then
      ({ s with ev := { s.ev with seq := s.ev.seq + 1, lost := some (n + 1, first) } }).journal
        (evq s code src data tied s.ev.seq held)
    else
      let l := evq s 0x0804 0 (BitVec.ofNat 64 (n % 4294967296 + (first % 4294967296) * 4294967296)) false s.ev.seq true
      let e := evq s code src data tied (s.ev.seq + 1) true
      (({ s with ev := { q := s.ev.q ++ [l, e], seq := s.ev.seq + 2, lost := none } }).journal l).journal e

/-- Raise an event: it is queued, logged and counted by class, and interrupt 37 follows on the stewards (R372, R189). -/
def State.raiseCore (s : State) (code : Nat) (src : Word) (data : BitVec 64) (tied : Bool) : State :=
  let s := s.enqueue code src data tied
  let s := { s with log := { s.log with ev := bumpN s.log.ev (64 + code / 256) } }
  (((s.pendInt 1088 5).pendInt 1089 5).pendInt 1090 5).pendInt 1091 5

/-- A photo-finish trigger of source `bit` in the current cycle: it starts or joins a capture, or is missed (R435–R437).
`armBit` is the bit of PF_ARM that armed the source, `code` the event's code. -/
def State.pfTrigger (s : State) (bit code : Nat) (armBit : Option Nat) : State :=
  let took := match armBit with | none => (0 : Word) | some k => 1 <<< k
  match s.snap.held, s.snap.pend with
  | some h, _ =>
    let m : Word := sat1 h.missed
    let s := { s with snap := { s.snap with missed := sat1 s.snap.missed, held := some { h with missed := m } } }
    (s.raiseCore 0x0A02 0 (BitVec.ofNat 64 h.num) true).tally 17
  | none, none =>
    { s with snap := { s.snap with
        pend := some (s.now + 8), causes := 1 <<< bit, primary := bit, code := code, took := took } }
  | none, some c =>
    { s with snap := { s.snap with
        causes := s.snap.causes ||| (1 <<< bit),
        primary := if c = s.now + 8 then min s.snap.primary bit else s.snap.primary,
        code := if s.snap.code = 0 then code else s.snap.code, took := s.snap.took ||| took } }

/-- Raise an event and, when its class is armed, the photo-finish trigger that it is (R371, R435, R454). -/
def State.raise (s : State) (code : Nat) (src : Word) (data : BitVec 64) (tied : Bool := true) : State :=
  let s := s.raiseCore code src data tied
  let k := code / 256
  if 1 ≤ k ∧ k ≤ 9 ∧ s.snap.arm.getLsbD (15 + k) then s.pfTrigger 4 code (some (15 + k)) else s

/-! ### Self-check events -/

/-- A self-check event of lane `p`: the sticky flag, the counter and, when enabled, trap 9 (R120, R160, R161). -/
def Lane.selfCheck (l : Lane) (now : Nat) : Lane :=
  let l := { l with spl := { l.spl with flag := true, schkEvt := true, schkCnt := sat1 l.spl.schkCnt } }
  if l.spl.schkTrap then l.fly (now + 1) 13 .schk9 else l

/-! ### Rows of a lane's arrays -/

def LaneMem.arr (m : LaneMem) (k : Nat) : RodArr := if k = 0 then m.h0 else if k = 1 then m.h1 else m.is
def LaneMem.setArr (m : LaneMem) (k : Nat) (a : RodArr) : LaneMem :=
  if k = 0 then { m with h0 := a } else if k = 1 then { m with h1 := a } else { m with is := a }
def LaneMem.sp (m : LaneMem) (k : Nat) : ShPort := if k = 0 then m.p0 else if k = 1 then m.p1 else m.pis
def LaneMem.setSp (m : LaneMem) (k : Nat) (a : ShPort) : LaneMem :=
  if k = 0 then { m with p0 := a } else if k = 1 then { m with p1 := a } else { m with pis := a }

/-- Rows in service of array 0, 1 (home banks) and 2 (instruction store) (R237). -/
def arrRows (k : Nat) : Nat := if k = 2 then 512 else 1024

/-- The array of a lane address: home bank A[5], or the instruction store (R125, R237). -/
def arrOf (a : Nat) : Nat := if a < 0x10000 then a / 32 % 2 else 2
/-- Its row. -/
def rowOf (a : Nat) : Nat := if a < 0x10000 then a / 64 else a % 0x4000 / 32
/-- The lane address of a row. -/
def addrOfRow (k row : Nat) : Nat := if k = 2 then 0x10000 + 32 * row else 64 * row + 32 * k

/-- A use of array `k` by the lane in cycle `now` (R209). -/
def LaneMem.use (m : LaneMem) (k now : Nat) : LaneMem :=
  m.setSp k { m.sp k with busy := now :: (m.sp k).busy.filter (fun c => decide (now ≤ c + 1)) }
/-- The lane does not use array `k` in cycle `now`. -/
def LaneMem.idle (m : LaneMem) (k now : Nat) : Bool := !(m.sp k).busy.contains now
/-- A use of array `k` by a sharer in `n` cycles from `now` on (R244, R248). -/
def LaneMem.useShare (m : LaneMem) (k now n : Nat) : LaneMem :=
  m.setSp k { m.sp k with share := (List.range n).map (fun i => now + i) ++ (m.sp k).share.filter (fun c => decide (now ≤ c + 1)) }
/-- No sharer uses array `k` in cycle `now` (R237, R248). -/
def LaneMem.unshared (m : LaneMem) (k now : Nat) : Bool := !(m.sp k).share.contains now

/-- Record what a read of array `k` found: counters, MEM_STATUS, LAST_ERR and LAST_SYN (R243, R258). -/
def LaneMem.note (m : LaneMem) (k src a : Nat) (r : RowRead) : LaneMem :=
  let m := if r.tagCe ∧ k < 2 then { m with tagCe := sat1 m.tagCe } else m
  let err : Word := 0x80000000 ||| BitVec.ofNat 32 (k * 536870912) ||| BitVec.ofNat 32 (src * 16777216)
    ||| BitVec.ofNat 32 (a % 131072 / 32 * 32)
  match r.ok with
  | .clean => m
  | .corrected =>
    let m := { m with ce := true, ceCnt := bumpW m.ceCnt k }
    if m.lastErr.getLsbD 31 && m.lastErr.getLsbD 28 then m else { m with lastErr := err, lastSyn := r.syn }
  | .uncor md =>
    { m with ue := true, marked := m.marked || md, ueCnt := bumpW m.ueCnt k,
             lastErr := err ||| 0x10000000 ||| (if md then 0x08000000 else 0), lastSyn := r.syn }

/-- Read the rod at lane address `a` of lane `p` for reader `src`, with its error reporting (R241, R243). -/
def State.rodRead (s : State) (p a src : Nat) : RowRead × State :=
  let m := s.lmem p
  let k := arrOf a
  let r := readRow (m.arr k) (arrRows k) (rowOf a)
  let s := s.setLmem p (m.note k src a r)
  (r, if r.bad then s.raise 0x0401 (srcW 1 p) 0 else s)

/-- What the rod at lane address `a` would deliver, without any report. -/
def State.rodPeek (s : State) (p a : Nat) : RowRead := readRow ((s.lmem p).arr (arrOf a)) (arrRows (arrOf a)) (rowOf a)

/-- The place of a rod in the sweep of a repair copy: instruction-store rows, then home rods (R405). -/
def sweepIdx (a : Nat) : Nat := if a < 0x10000 then 512 + a / 32 else (a - 0x10000) / 32
/-- The lane address of place `i`. -/
def sweepAddr (i : Nat) : Nat := if i < 512 then 0x10000 + 32 * i else 32 * (i - 512)

/-- Write a whole rod at lane address `a` with its tags (bit 0: bytes 0–15). -/
def State.rodWrite (s : State) (p a : Nat) (d : List Byte) (t : BitVec 2) (mark : Bool) : State :=
  let m := s.lmem p
  let k := arrOf a
  s.setLmem p (m.setArr k (writeRow (m.arr k) (arrRows k) (rowOf a) d (if k = 2 then 0 else t) mark))

/-- A write by the lane itself of a row that a sweep has copied marks the row dirty, and clears its mark as fresh on the
held lane (R406). -/
def State.dirtyMark (s : State) (p a : Nat) : State :=
  let i := sweepIdx a
  (s.pair.copies.filter (fun c => decide (c.src = p) && decide (i < c.pos))).foldl (fun s c =>
    let m := s.lmem p
    let s := s.setLmem p { m with dirty := if m.dirty.contains i then m.dirty else m.dirty ++ [i] }
    let h := s.lmem c.lane
    s.setLmem c.lane { h with fresh := h.fresh.filter (fun j => decide (j ≠ i)) }) s

/-- A rod written by lane `p` itself: a drain or a frame push. -/
def State.laneWrite (s : State) (p a : Nat) (d : List Byte) (t : BitVec 2) (mark : Bool) : State :=
  (s.rodWrite p a d t mark).dirtyMark p a

/-- `n` bytes at lane address `a` (home or instruction store) as stored, corrected where possible. -/
def State.lanePeek (s : State) (p a n : Nat) : List Byte :=
  ((s.rodPeek p a).data.drop (a % 32)).take n ++
    (if a % 32 + n > 32 then (s.rodPeek p (a / 32 * 32 + 32)).data.take (a % 32 + n - 32) else [])

/-! ### Answers and outputs -/

/-- Answer a register or port read. Code 0 OK, 1 OK_BUSY, 2 ERR, 3 POISON (R292). -/
def State.answer (s : State) (code : BitVec 2) (v : Word) : State := { s with resp := { code := code, data := v } }

/-- Something leaves the device. -/
def State.emit (s : State) (o : Out) : State := { s with out := o :: s.out }

/-- Draw a fresh index for a free value. -/
def State.draw (s : State) : State := { s with free := s.free + 1 }

end Sys2Proof.Machine
end

