-- ==== Sys2Proof/Machine/Flags.lean ====
section
/-! DEFINITION. Floating-point values, rounding and the flags NV, OF, UF, NX (R103–R110), and the MAC readout (R116). -/

namespace Sys2Proof.Machine
open Sys2Proof

/-- Flags: bit 3 NV, 2 OF, 1 UF, 0 NX (R110). -/
abbrev FFlags := BitVec 4
def flagNV : FFlags := 8
def flagOF : FFlags := 4
def flagUF : FFlags := 2
def flagNX : FFlags := 1

/-- A binary format: significand bits, fraction bits' ulp exponent of the smallest subnormal, exponent field width. -/
structure Fmt where
  p : Nat
  emin : Int
  ew : Nat
  deriving DecidableEq, Repr

def fmt32 : Fmt := ⟨24, -149, 8⟩
def fmt16 : Fmt := ⟨11, -24, 5⟩

/-- A floating-point datum: a NaN (signalling or quiet), an infinity, or ±m·2^e. -/
inductive FV
  | nan (sig : Bool)
  | inf (neg : Bool)
  | fin (neg : Bool) (m : Nat) (e : Int)
  deriving DecidableEq, Repr

/-- The datum of an encoding (R103, R105). -/
def fpDecode (f : Fmt) (v : Nat) : FV :=
  let fb := f.p - 1
  let frac := v % 2 ^ fb
  let ex := v / 2 ^ fb % 2 ^ f.ew
  let neg := decide (v / 2 ^ (fb + f.ew) % 2 = 1)
  if ex = 2 ^ f.ew - 1 then
    if frac = 0 then .inf neg else .nan (decide (frac < 2 ^ (fb - 1)))
  else if ex = 0 then .fin neg frac f.emin
  else .fin neg (frac + 2 ^ fb) (f.emin + (ex - 1 : Nat))

def fpSign (f : Fmt) (neg : Bool) : Nat := if neg then 2 ^ (f.p - 1 + f.ew) else 0
def fpInf (f : Fmt) (neg : Bool) : Nat := fpSign f neg + (2 ^ f.ew - 1) * 2 ^ (f.p - 1)
/-- The canonical quiet NaN: 0x7FC0_0000 or 0x7E00 (R106). -/
def fpNan (f : Fmt) : Nat := (2 ^ f.ew - 1) * 2 ^ (f.p - 1) + 2 ^ (f.p - 2)
/-- The largest finite value (R104). -/
def fpMax (f : Fmt) (neg : Bool) : Nat := fpInf f neg - 1

def bitLen (m : Nat) : Nat := if m = 0 then 0 else Nat.log2 m + 1

/-- m·2^(-sh) rounded to an integer; the second part says whether it was inexact. `rz`: toward zero, else to nearest
even. -/
def rshift (rz : Bool) (m sh : Nat) : Nat × Bool :=
  let q := m / 2 ^ sh
  let r := m % 2 ^ sh
  let up := !rz && (decide (2 * r > 2 ^ sh) || (decide (2 * r = 2 ^ sh) && decide (q % 2 = 1)))
  (if up then q + 1 else q, decide (r ≠ 0))

/-- Round ±m·2^e (m ≠ 0) once to the format, with overflow and underflow (R102, R104, R105). -/
def fpRound (f : Fmt) (rz neg : Bool) (m : Nat) (e : Int) : Nat × FFlags :=
  let qu := e + (bitLen m : Int) - (f.p : Int)
  let q := max qu f.emin
  let r : Nat × Bool := if q ≤ e then (m * 2 ^ (e - q).toNat, false) else rshift rz m (q - e).toNat
  let big := decide (r.1 = 2 ^ f.p)
  let mant := if big then 2 ^ (f.p - 1) else r.1
  let q := if big then q + 1 else q
  let ex : Nat := if mant < 2 ^ (f.p - 1) then 0 else (q - f.emin).toNat + 1
  -- tininess after rounding: the value rounded with an unbounded exponent lies below the smallest normal
  let tiny := decide (qu < f.emin) &&
    !(decide (qu + 1 = f.emin) && decide ((if qu ≤ e then m * 2 ^ (e - qu).toNat else (rshift rz m (qu - e).toNat).1) = 2 ^ f.p))
  if ex ≥ 2 ^ f.ew - 1 then (if rz then fpMax f neg else fpInf f neg, flagOF ||| flagNX)
  else
    (fpSign f neg + ex * 2 ^ (f.p - 1) + mant % 2 ^ (f.p - 1),
      (if r.2 then flagNX else 0) ||| (if tiny && r.2 then flagUF else 0))

/-- The exact value of a signed term at the exponent `e0` ≤ e. -/
def termAt (e0 : Int) (t : Bool × Nat × Int) : Int :=
  let m : Int := (t.2.1 * 2 ^ (t.2.2 - e0).toNat : Nat)
  if t.1 then -m else m

/-- The exact sum of finite terms rounded once; an exact zero is −0 only when every term is −0 (R107, R114). -/
def fpSum (f : Fmt) (rz : Bool) (l : List (Bool × Nat × Int)) : Nat × FFlags :=
  let e0 := l.foldl (fun a t => min a t.2.2) 0
  let v := (l.map (termAt e0)).foldl (· + ·) 0
  if v = 0 then (fpSign f (l.all (fun t => t.1 && decide (t.2.1 = 0))), 0)
  else fpRound f rz (decide (v < 0)) v.natAbs e0

def FV.isNan : FV → Bool | .nan _ => true | _ => false
def FV.isSig : FV → Bool | .nan s => s | _ => false
def FV.negate : FV → FV
  | .nan s => .nan s
  | .inf n => .inf (!n)
  | .fin n m e => .fin (!n) m e

/-- The product of two data: a NaN datum, an infinity or the exact product; `none` for zero by infinity (R106). -/
def fvMul : FV → FV → Option FV
  | .nan s, .nan t => some (.nan (s || t))
  | .nan s, _ => some (.nan s)
  | _, .nan t => some (.nan t)
  | .inf a, .inf b => some (.inf (a != b))
  | .inf a, .fin b m _ => if m = 0 then none else some (.inf (a != b))
  | .fin a m _, .inf b => if m = 0 then none else some (.inf (a != b))
  | .fin a m e, .fin b n g => some (.fin (a != b) (m * n) (e + g))

/-- The sum of data, each exact, rounded once by the format (R104–R107, R114). -/
def fvSum (f : Fmt) (rz : Bool) (l : List FV) : Nat × FFlags :=
  if l.any FV.isSig then (fpNan f, flagNV)
  else
    let pos := l.any (fun v => v == .inf false)
    let neg := l.any (fun v => v == .inf true)
    if l.any FV.isNan then (fpNan f, if pos && neg then flagNV else 0)
    else if pos && neg then (fpNan f, flagNV)
    else if pos then (fpInf f false, 0)
    else if neg then (fpInf f true, 0)
    else fpSum f rz (l.filterMap (fun v => match v with | .fin n m e => some (n, m, e) | _ => none))

/-- `fpu.add` on one element (R102). -/
def fpAdd (f : Fmt) (rz ng : Bool) (a b : Nat) : Nat × FFlags :=
  let x := fpDecode f a
  fvSum f rz [if ng then x.negate else x, fpDecode f b]

/-- `fpu.mul` on one element (R102, R106, R107). -/
def fpMul (f : Fmt) (rz ng : Bool) (a b : Nat) : Nat × FFlags :=
  let x := fpDecode f a
  let y := fpDecode f b
  if x.isSig || y.isSig then (fpNan f, flagNV)
  else match fvMul x y with
    | none => (fpNan f, flagNV)
    | some (.nan _) => (fpNan f, 0)
    | some (.inf n) => (fpInf f (n != ng), 0)
    | some (.fin n m e) => if m = 0 then (fpSign f (n != ng), 0) else fpRound f rz (n != ng) m e

/-- `fpu.fma` on one element: the product is unrounded (R102, R106). -/
def fpFma (f : Fmt) (rz ng : Bool) (a b c : Nat) : Nat × FFlags :=
  let x := fpDecode f a
  let y := fpDecode f b
  let z := fpDecode f c
  if x.isSig || y.isSig || z.isSig then (fpNan f, flagNV)
  else match fvMul x y with
    | none => (fpNan f, flagNV)
    | some v => fvSum f rz [if ng then v.negate else v, z]

/-- Three-term sum of the MAC in fp16 mode, as binary32 (R113, R114). -/
def macSum (rz : Bool) (acc o0 t0 o1 t1 : Nat) : Nat × FFlags :=
  let a := fpDecode fmt32 acc
  let l := [fpDecode fmt16 o0, fpDecode fmt16 t0, fpDecode fmt16 o1, fpDecode fmt16 t1]
  if a.isSig || l.any FV.isSig then (fpNan fmt32, flagNV)
  else match fvMul (fpDecode fmt16 o0) (fpDecode fmt16 t0), fvMul (fpDecode fmt16 o1) (fpDecode fmt16 t1) with
    | some p, some q => fvSum fmt32 rz [a, p, q]
    | _, _ => (fpNan fmt32, flagNV)

/-- ±m·2^e rounded to an integer. -/
def toInt (rz neg : Bool) (m : Nat) (e : Int) : Int × Bool :=
  let r : Nat × Bool := if 0 ≤ e then (m * 2 ^ e.toNat, false) else rshift rz m (-e).toNat
  (if neg then -(r.1 : Int) else r.1, r.2)

/-- binary32 to signed int32 (R108, CVT 0x0). -/
def cvtS32 (rz : Bool) (t : Nat) : Nat × FFlags :=
  match fpDecode fmt32 t with
  | .nan _ => (0, flagNV)
  | .inf n => (if n then 0x80000000 else 0x7FFFFFFF, flagNV)
  | .fin n m e =>
    if e > 40 ∧ m ≠ 0 then (if n then 0x80000000 else 0x7FFFFFFF, flagNV)
    else
      let r := toInt rz n m e
      if r.1 > 2147483647 then (0x7FFFFFFF, flagNV)
      else if r.1 < -2147483648 then (0x80000000, flagNV)
      else ((r.1 % 4294967296).toNat, if r.2 then flagNX else 0)

/-- binary32 to unsigned int32 (R108, CVT 0x1). -/
def cvtU32 (rz : Bool) (t : Nat) : Nat × FFlags :=
  match fpDecode fmt32 t with
  | .nan _ => (0, flagNV)
  | .inf n => (if n then 0 else 0xFFFFFFFF, flagNV)
  | .fin n m e =>
    if e > 40 ∧ m ≠ 0 then (if n then 0 else 0xFFFFFFFF, flagNV)
    else
      let r := toInt rz n m e
      if r.1 > 4294967295 then (0xFFFFFFFF, flagNV)
      else if r.1 < 0 then (0, flagNV)
      else (r.1.toNat, if r.2 then flagNX else 0)

/-- An integer to binary32 (R108, CVT 0x2 and 0x3). -/
def cvtFrom (rz : Bool) (v : Int) : Nat × FFlags :=
  if v = 0 then (0, 0) else fpRound fmt32 rz (decide (v < 0)) v.natAbs 0

/-- Between formats (R108, CVT 0x4 to 0x6). -/
def cvtFmt (src dst : Fmt) (rz : Bool) (v : Nat) : Nat × FFlags :=
  match fpDecode src v with
  | .nan s => (fpNan dst, if s then flagNV else 0)
  | .inf n => (fpInf dst n, 0)
  | .fin n m e => if m = 0 then (fpSign dst n, 0) else fpRound dst rz n m e

/-- The order of two data that are not NaNs: negative, zero or positive as a − b is. Zeros are equal. -/
def fvCmp : FV → FV → Int
  | .inf a, .inf b => if a = b then 0 else if a then -1 else 1
  | .inf a, _ => if a then -1 else 1
  | _, .inf b => if b then 1 else -1
  | .fin a m e, .fin b n g =>
    let e0 := min e g
    let d := termAt e0 (a, m, e) - termAt e0 (b, n, g)
    if d < 0 then -1 else if d > 0 then 1 else 0
  | _, _ => 0

def FV.neg? : FV → Bool | .inf n => n | .fin n _ _ => n | .nan _ => false

/-- `fpu.cmp` on one element (R109). Codes 6 and 7 raise trap 1 before. -/
def fpCmp (f : Fmt) (c : Nat) (a b : Nat) : Nat × FFlags :=
  let x := fpDecode f a
  let y := fpDecode f b
  let sg : FFlags := if x.isSig || y.isSig then flagNV else 0
  let nn := x.isNan || y.isNan
  let d := fvCmp x y
  let b1 : Bool → Nat := fun t => if t then 1 else 0
  if c = 0 then (b1 (!nn && decide (d = 0)), sg)
  else if c = 1 then (b1 (!nn && decide (d < 0)), if nn then flagNV else 0)
  else if c = 2 then (b1 (!nn && decide (d ≤ 0)), if nn then flagNV else 0)
  else if c = 3 then (b1 nn, sg)
  else if x.isNan && y.isNan then (fpNan f, sg)
  else if x.isNan then (b, sg)
  else if y.isNan then (a, sg)
  else
    let less := decide (d < 0) || (decide (d = 0) && x.neg? && !y.neg?)
    if c = 4 then (if less then a else b, sg) else (if less then b else a, sg)

/-! ### MAC readout -/

/-- The view of an accumulator under a mode, and whether it saturated (R116). -/
def macView (mode : Word) (raw : BitVec 40) : Word × Bool :=
  let md := (mode.extractLsb' 0 2).toNat
  if md = 0 ∨ md = 3 then (raw.truncate 32, false)
  else
    let sh := (mode.extractLsb' 9 5).toNat
    let v : Int := raw.toInt + (if mode.getLsbD 8 ∧ 0 < sh then (2 ^ (sh - 1) : Nat) else (0 : Nat))
    let w := v / (2 ^ sh : Nat)
    if w > 2147483647 then (0x7FFFFFFF, true)
    else if w < -2147483648 then (0x80000000, true)
    else (BitVec.ofInt 32 w, false)

end Sys2Proof.Machine
end

