-- ==== Sys2Proof/Machine/Units.lean ====
section
/-! DEFINITION. The compute units of a lane: what a trigger in cycle `now` starts, and when it is refused with trap 1
(R95–R119), and the signature fold (R159). Each works on the lane alone. -/

namespace Sys2Proof.Machine
open Sys2Proof

def b2w (b : Bool) : Word := if b then 1 else 0

/-- The ALU operation of trigger offset 1–15: add, sub, and, or, xor, andn, shl, shr, sra, rotl, eq, lt, ltu, min, max
(R96, R97). -/
def aluOp (op : Nat) (o t : Word) : Word :=
  match op with
  | 1 => o + t
  | 2 => o - t
  | 3 => o &&& t
  | 4 => o ||| t
  | 5 => o ^^^ t
  | 6 => o &&& ~~~t
  | 7 => o <<< (t.toNat % 32)
  | 8 => o >>> (t.toNat % 32)
  | 9 => o.sshiftRight (t.toNat % 32)
  | 10 => o.rotateLeft (t.toNat % 32)
  | 11 => b2w (o == t)
  | 12 => b2w (o.slt t)
  | 13 => b2w (o.ult t)
  | 14 => if o.slt t then o else t
  | 15 => if o.slt t then t else o
  | _ => 0

/-- An ALU trigger (R96); `n` selects ALU1. -/
def Lane.fireAlu (l : Lane) (now : Nat) (n : Bool) (op : Nat) (t : Word) : Lane :=
  l.fly (now + 1) (if n then 1 else 0) (.alu n (aluOp op (if n then l.u.alu1o else l.u.alu0o) t))

/-- The exact 64-bit product (R98): 0 signed × signed, 1 unsigned × unsigned, 2 signed × unsigned. -/
def mulOp (k : Nat) (o t : Word) : BitVec 64 :=
  BitVec.ofInt 64 ((if k = 1 then (o.toNat : Int) else o.toInt) * (if k = 0 then t.toInt else (t.toNat : Int)))

def Lane.fireMul (l : Lane) (now k : Nat) (t : Word) : Lane :=
  let r := mulOp k l.u.mulo t
  l.fly (now + 3) 2 (.mul (r.extractLsb' 0 32) (r.extractLsb' 32 32))

/-! ### FPU -/

def fmtOf (mode : Word) : Nat := (mode.extractLsb' 0 2).toNat
def cvtOf (mode : Word) : Nat := (mode.extractLsb' 12 4).toNat
def cmpOf (mode : Word) : Nat := (mode.extractLsb' 8 3).toNat

/-- An FPU trigger 0 add, 1 mul, 2 fma, 3 cvt, 4 cmp uses a reserved field (R101). -/
def fpuIllegal (mode : Word) (op : Nat) : Bool :=
  if op = 3 then decide (7 ≤ cvtOf mode)
  else decide (2 ≤ fmtOf mode) || (decide (op = 4) && decide (6 ≤ cmpOf mode))

/-- Apply an element operation in the format of the mode: binary32, or both binary16 halves (R103). -/
def fpLanes (mode : Word) (g : Fmt → Nat → Nat → Nat → Nat × FFlags) (a b c : Word) : Word × FFlags :=
  if fmtOf mode = 0 then
    let r := g fmt32 a.toNat b.toNat c.toNat
    (BitVec.ofNat 32 r.1, r.2)
  else
    let lo := g fmt16 (a.toNat % 65536) (b.toNat % 65536) (c.toNat % 65536)
    let hi := g fmt16 (a.toNat / 65536) (b.toNat / 65536) (c.toNat / 65536)
    (BitVec.ofNat 32 (lo.1 + 65536 * hi.1), lo.2 ||| hi.2)

/-- The result and flags of an FPU trigger (R102–R109). DESIGN CHOICE (log 87): a reserved `fpu.mode` that a remote move writes in
the trigger's own cycle, after the checks of R101, computes as paired binary16, conversion 6 and MAX. -/
def fpuOp (mode : Word) (op : Nat) (o1 o2 t : Word) : Word × FFlags :=
  let rz := mode.getLsbD 2
  let ng := mode.getLsbD 3
  match op with
  | 0 => fpLanes mode (fun f a b _ => fpAdd f rz ng a b) o1 t 0
  | 1 => fpLanes mode (fun f a b _ => fpMul f rz ng a b) o1 t 0
  | 2 => fpLanes mode (fun f a b c => fpFma f rz ng a b c) o1 o2 t
  | 3 =>
    let w : Nat × FFlags → Word × FFlags := fun r => (BitVec.ofNat 32 r.1, r.2)
    match cvtOf mode with
    | 0 => w (cvtS32 rz t.toNat)
    | 1 => w (cvtU32 rz t.toNat)
    | 2 => w (cvtFrom rz t.toInt)
    | 3 => w (cvtFrom rz t.toNat)
    | 4 =>
      let lo := cvtFmt fmt32 fmt16 rz t.toNat
      let hi := cvtFmt fmt32 fmt16 rz o1.toNat
      (BitVec.ofNat 32 (lo.1 + 65536 * hi.1), lo.2 ||| hi.2)
    | 5 => w (cvtFmt fmt16 fmt32 rz (t.toNat % 65536))
    | _ => w (cvtFmt fmt16 fmt32 rz (t.toNat / 65536))
  | _ => fpLanes mode (fun f a b _ => fpCmp f (cmpOf mode) a b) o1 t 0

def Lane.fireFpu (l : Lane) (now op : Nat) (t : Word) : Lane :=
  let r := fpuOp l.u.fmode op l.u.fo1 l.u.fo2 t
  l.fly (now + if op = 2 then 4 else 3) 3 (.fpu r.1 r.2)

/-! ### MAC -/

def accDflt : Nat → BitVec 40 := fun _ => 0
def Units.accAt (u : Units) (k : Nat) : BitVec 40 := tget accDflt u.acc k
def Units.visAt (u : Units) (k : Nat) : BitVec 40 := tget accDflt u.vis k

/-- A MAC trigger that examines the mode raises trap 1 while MODE = 0b11 (R112). -/
def macIllegal (mode : Word) : Bool := decide (mode.extractLsb' 0 2 = 3)

/-- Element i of width `w` of an operand, signed or unsigned. -/
def elemAt (v : Word) (w i : Nat) (uns : Bool) : Int :=
  let n := v.toNat / 2 ^ (w * i) % 2 ^ w
  if !uns && decide (2 ^ (w - 1) ≤ n) then (n : Int) - (2 ^ w : Nat) else n

/-- The exact dot product of `n` elements of width `w` (R113). -/
def dot (o t : Word) (w n : Nat) (ou tu : Bool) : Int :=
  ((List.range n).map (fun i => elemAt o w i ou * elemAt t w i tu)).foldl (· + ·) 0

/-- The accumulator after a `mac.fK`, with its sticky status bits (R113–R115). -/
def macStep (mode : Word) (k : Nat) (raw : BitVec 40) (o t : Word) : BitVec 40 × BitVec 12 :=
  if mode.extractLsb' 0 2 = 0 then
    let r := macSum (mode.getLsbD 3) (raw.toNat % 4294967296) (o.toNat % 65536) (t.toNat % 65536)
      (o.toNat / 65536) (t.toNat / 65536)
    (BitVec.ofNat 40 r.1, r.2.zeroExtend 12)
  else
    let i8 := decide (mode.extractLsb' 0 2 = 2)
    let v := raw.toInt + dot o t (if i8 then 8 else 16) (if i8 then 4 else 2) (mode.getLsbD 4) (mode.getLsbD 5)
    (BitVec.ofInt 40 v, if v < -549755813888 ∨ 549755813887 < v then 1 <<< (8 + k) else 0)

/-- Set accumulator k in cycle `now`; its port shows it 2 lc later (R46, R118). -/
def Lane.setAcc (l : Lane) (now k : Nat) (raw : BitVec 40) : Lane :=
  ({ l with u := { l.u with
      acc := tput accDflt l.u.acc k raw, macTrig := putN l.u.macTrig k (now + 1) } }).fly (now + 2) 4 (.acc k raw)

def Lane.fireMacF (l : Lane) (now k : Nat) (t : Word) : Lane :=
  let r := macStep l.u.macmode k (l.u.accAt k) l.u.maco t
  (l.setAcc now k r.1).fly (now + 2) 4 (.macst r.2)

def Lane.fireMacClr (l : Lane) (now : Nat) (t : Word) : Lane :=
  let l := (List.range 4).foldl (fun l k => if t.getLsbD k then l.setAcc now k 0 else l) l
  if t.getLsbD 8 then l.fly (now + 2) 4 .macstClr else l

def Lane.fireMacSet (l : Lane) (now : Nat) (t : Word) : Lane :=
  l.setAcc now (t.toNat % 4)
    (if l.u.macmode.extractLsb' 0 2 = 0 then l.u.maco.zeroExtend 40 else l.u.maco.signExtend 40)

/-- `mac.st` (R119): the sticky bits and the saturation of each view. -/
def macSt (u : Units) : Word :=
  (List.range 4).foldl
    (fun w k => if (macView u.macmode (u.visAt k)).2 then w ||| (1 <<< (16 + k)) else w) (u.macst.zeroExtend 32)

/-! ### Signature -/

/-- `spl.chk` folds t into the signature, shown from the next cycle (R159). -/
def Lane.fireChk (l : Lane) (now : Nat) (t : Word) : Lane := l.fly (now + 1) 7 (.sig (sigFold l.spl.sig t))

/-! ### Destinations a remote move may name -/

/-- The destination is a port that a remote move may name (R225). -/
def remoteDst (d : Nat) : Bool :=
  decide (d ≤ 0x43) || (decide (0x48 ≤ d) && decide (d ≤ 0x57)) || decide (d = 0x69)
    || (decide (0x6C ≤ d) && decide (d ≤ 0x6F))

/-- The unit of a trigger port, numbered as in FEAT0; none for a port that is no trigger (R38, R39). -/
def trigUnit (d : Nat) : Option Nat :=
  if 0x21 ≤ d ∧ d ≤ 0x2F then some 0
  else if 0x31 ≤ d ∧ d ≤ 0x3F then some 1
  else if 0x41 ≤ d ∧ d ≤ 0x43 then some 2
  else if 0x4A ≤ d ∧ d ≤ 0x4E then some 3
  else if 0x52 ≤ d ∧ d ≤ 0x57 then some 4
  else if 0x5C ≤ d ∧ d ≤ 0x62 then some 5
  else if 0x64 ≤ d ∧ d ≤ 0x67 then some 6
  else if 0x68 ≤ d ∧ d ≤ 0x6A then some 7
  else if d = 0x70 ∨ d = 0x71 then some 8
  else if d = 0x76 then some 9
  else if d = 0x78 then some 10
  else if 0x7B ≤ d ∧ d ≤ 0x7D then some 11
  else if d = 0x7F then some 12
  else none

/-- What `trap.mask` keeps: bit 4 reads 1 on a steward, bits 4 and 5 read 0 elsewhere (R189). -/
def maskFix (stw : Bool) (v : Word) : Word := if stw then v ||| 0x10 else v &&& ~~~(0x30 : Word)

def Lane.stw (l : Lane) : Bool := decide (0x400 ≤ l.master.toNat) && decide (l.master.toNat ≤ 0x403)

/-- Step 2 of R44: write a storage or operand port; a trigger port stores nothing. DESIGN CHOICE (log 76): reserved bits typed RW
read back as written. -/
def Lane.writePort (l : Lane) (d : Nat) (v : Word) : Lane :=
  if d < 32 then { l with w := putW l.w d v }
  else if 0x6C ≤ d ∧ d ≤ 0x6F then
    { l with g := if v = 0 then l.g &&& ~~~((1 : BitVec 4) <<< (d - 0x6C)) else l.g ||| ((1 : BitVec 4) <<< (d - 0x6C)) }
  else match d with
    | 0x20 => { l with u := { l.u with alu0o := v } }
    | 0x30 => { l with u := { l.u with alu1o := v } }
    | 0x40 => { l with u := { l.u with mulo := v } }
    | 0x48 => { l with u := { l.u with fo1 := v } }
    | 0x49 => { l with u := { l.u with fo2 := v } }
    | 0x4F => { l with u := { l.u with fmode := v } }
    | 0x50 => { l with u := { l.u with maco := v } }
    | 0x51 => { l with u := { l.u with macmode := v } }
    | 0x58 => { l with u := { l.u with base := v } }
    | 0x59 => { l with u := { l.u with idx := v } }
    | 0x5A => { l with u := { l.u with data := v } }
    | 0x5B => { l with u := { l.u with lmode := v } }
    | 0x72 => { l with trap := { l.trap with mask := maskFix l.stw v } }
    | 0x74 => { l with u := { l.u with capo := v } }
    | 0x75 => { l with u := { l.u with capsel := v } }
    | 0x7A => { l with u := { l.u with mbxsel := v } }
    | 0x7E => { l with u := { l.u with syssel := v.truncate 12 } }
    | _ => l

/-- Step 3 of R44 for the triggers that a remote move may name. -/
def Lane.fireCompute (l : Lane) (now d : Nat) (v : Word) : Lane :=
  if 0x21 ≤ d ∧ d ≤ 0x2F then l.fireAlu now false (d - 0x20) v
  else if 0x31 ≤ d ∧ d ≤ 0x3F then l.fireAlu now true (d - 0x30) v
  else if 0x41 ≤ d ∧ d ≤ 0x43 then l.fireMul now (d - 0x41) v
  else if 0x4A ≤ d ∧ d ≤ 0x4E then l.fireFpu now (d - 0x4A) v
  else if 0x52 ≤ d ∧ d ≤ 0x55 then l.fireMacF now (d - 0x52) v
  else if d = 0x56 then l.fireMacClr now v
  else if d = 0x57 then l.fireMacSet now v
  else if d = 0x69 then l.fireChk now v
  else l

/-- A compute trigger would raise trap 1 (R101, R112). -/
def computeIllegal (u : Units) (d : Nat) : Bool :=
  if 0x4A ≤ d ∧ d ≤ 0x4E then fpuIllegal u.fmode (d - 0x4A)
  else if (0x52 ≤ d ∧ d ≤ 0x55) ∨ d = 0x57 then macIllegal u.macmode
  else false

/-! ### The receive queue -/

/-- A word enters the receive queue at the end of its arrival cycle, after any pop; interrupt 33 follows (R223). -/
def Lane.rxPush (l : Lane) (at_ : Nat) (v : Word) : Lane :=
  if l.rly.rx.length ≥ 8 then { l with rly := { l.rly with ovf := true, qovf := sat1 l.rly.qovf } }
  else ({ l with rly := { l.rly with rx := l.rly.rx ++ [v] } }).fly (at_ + 1) 13 (.pend 1)

/-- A remote move takes effect in cycle `at_`, or is rejected (R222, R225). -/
def Lane.remoteMove (l : Lane) (at_ d : Nat) (v : Word) : Lane :=
  if !remoteDst d || computeIllegal l.u d then { l with rly := { l.rly with rej := sat1 l.rly.rej } }
  else (l.writePort d v).fireCompute at_ d v

end Sys2Proof.Machine
end

