-- ==== Sys2Proof/Machine/LaneRegs.lean ====
section
/-! DEFINITION. Capabilities as bits (R164–R167), the system register space of a lane (R65–R71, R163, R194, R232), and
results that become readable, settled up to a cycle (R45, R110, R118, R119, R222). -/

namespace Sys2Proof.Machine
open Sys2Proof

/-! ### Capabilities -/

/-- T of R166: LIMIT, or 2^32 when LIMIT is 0. -/
def Cap.top (c : Cap) : Nat := if c.limit = 0 then 4294967296 else c.limit.toNat

/-- An access of `n` bytes at `a` lies within the bounds (R166). -/
def Cap.covers (c : Cap) (a n : Nat) : Bool := decide (c.base.toNat ≤ a) && decide (a + n ≤ c.top)

/-- Permission bit `b` (20–31) of R167. -/
def Cap.perm (c : Cap) (b : Nat) : Bool := c.perms.getLsbD (b - 20)
def permLD : Nat := 31
def permST : Nat := 30
def permEX : Nat := 29
def permLDC : Nat := 28
def permSTC : Nat := 27
def permSEAL : Nat := 26
def permUNSEAL : Nat := 25
def permSYS : Nat := 24
def permRLY : Nat := 23
def permMBX : Nat := 22
def permKEEP : Nat := 21

/-- Bits [31:0]. -/
def Cap.word0 (c : Cap) : Word := c.perms ++ c.otype ++ c.rsv

/-- The 16 bytes of a capability in memory (R164). -/
def Cap.bytes (c : Cap) : List Byte := leW c.word0 ++ leW c.limit ++ leW c.base ++ leW c.pos

def leWordAt (l : List Byte) (o : Nat) : Word := BitVec.ofNat 32 (leAt l o 4)

/-- The capability of 16 bytes with a tag. -/
def capOf (l : List Byte) (tag : Bool) : Cap :=
  let w := leWordAt l 0
  { pos := leWordAt l 12, base := leWordAt l 8, limit := leWordAt l 4, perms := w.extractLsb' 20 12,
    otype := w.extractLsb' 12 8, rsv := w.extractLsb' 0 12, tag := tag }

def Cap.sealed (c : Cap) : Bool := decide (c.otype ≠ 0)

/-- `cap.st` of a capability (R173). -/
def Cap.status (c : Cap) : BitVec 3 :=
  (if c.covers c.pos.toNat 1 then 4 else 0) ||| (if c.sealed then 2 else 0) ||| (if c.tag then 1 else 0)

def capDflt : Nat → Cap := fun _ => nullCap
def Lane.cReg (l : Lane) (k : Nat) : Cap := tget capDflt l.c k
def Lane.setC (l : Lane) (k : Nat) (c : Cap) : Lane := { l with c := tput capDflt l.c k c }

/-! ### System registers -/

def b2n (b : Bool) (k : Nat) : Word := if b then 1 <<< k else 0

/-- LANE_ID of lane `p` (R70). -/
def laneId (p : Nat) (l : Lane) : Word :=
  b2n (isStw p) 31 ||| (l.master.zeroExtend 32 <<< 16) ||| BitVec.ofNat 32 p

/-- RLY_QSTAT (R232). -/
def qstat (r : Rly) : Word :=
  b2n r.gundrop 10 ||| b2n r.unf 9 ||| b2n r.ovf 8 ||| b2n r.rx.isEmpty 4 ||| BitVec.ofNat 32 r.rx.length

def splStatus (x : Split) : Word :=
  b2n x.tmrPer 6 ||| b2n x.tmrArm 5 ||| b2n x.late 2 ||| b2n x.schkEvt 1 ||| b2n x.flag 0
def splSample (x : Split) : Word :=
  b2n x.sampleGun 10 ||| b2n x.sampleE 9 ||| (x.sampleK.zeroExtend 32 <<< 1)
def lsuStatus (x : Lsu) : Word :=
  BitVec.ofNat 32 ((2 ^ x.sb.length - 1) * 4096) ||| b2n x.rsv.isSome 8 ||| b2n x.unmapped 0
def trapCur (t : Trap) : Word := t.curNum.zeroExtend 32 <<< 8 ||| t.curOt.zeroExtend 32

/-- System register `i` of lane `p` as a read shows it; a reserved index reads 0 (R65, R68, R71). -/
def sysRead (p : Nat) (l : Lane) (i : Nat) : Word :=
  if 0x20 ≤ i ∧ i ≤ 0x2F then getW l.ctl.rstk (i - 0x20)
  else if 0x58 ≤ i ∧ i ≤ 0x5F then getW l.trap.scr (i - 0x58)
  else if 0x120 ≤ i ∧ i ≤ 0x127 then
    let raw := l.u.visAt ((i - 0x120) / 2)
    if i % 2 = 0 then raw.extractLsb' 0 32 else (raw.extractLsb' 32 8).zeroExtend 32
  else match i with
    | 0x000 => 0x01007FFF
    | 0x001 => 0x01224331
    | 0x002 => 0x18401021
    | 0x003 => 0x00288410
    | 0x004 => 0x08081107
    | 0x005 => 0x00402018
    | 0x010 => laneId p l
    | 0x011 => l.cfg.zeroExtend 32
    | 0x030 => BitVec.ofNat 32 (l.ctl.depth * 256) ||| l.ctl.top.zeroExtend 32
    | 0x040 => l.tdt.pos
    | 0x041 => l.tdt.base
    | 0x042 => l.tdt.limit
    | 0x043 => l.tdt.word0
    | 0x044 => b2w l.tdt.tag
    | 0x048 => l.trap.mask
    | 0x049 => l.trap.pend
    | 0x04A => trapCur l.trap
    | 0x04B => l.trap.cnt
    | 0x050 => l.u.capo
    | 0x051 => l.u.capr
    | 0x052 => l.u.capst.zeroExtend 32
    | 0x080 => splStatus l.spl
    | 0x081 => b2w l.spl.schkTrap
    | 0x082 => b2n (!l.spl.tmrArm) 31 ||| b2n l.spl.tmrPer 30 ||| l.spl.tmrCyc.zeroExtend 32
    | 0x083 => splSample l.spl
    | 0x084 => l.spl.lastSig
    | 0x085 => l.spl.schkCnt
    | 0x090 => lsuStatus l.lsu
    | 0x091 => match l.lsu.rsv with | some r => BitVec.ofNat 32 (r / 32 * 32) | none => 0
    | 0x092 => l.lsu.ovl
    | 0x093 => l.lsu.full
    | 0x0C0 => qstat l.rly
    | 0x0C4 => l.rly.clash
    | 0x0C5 => l.rly.unslot
    | 0x0C6 => l.rly.qovf
    | 0x0C7 => l.rly.rej
    | 0x0C8 => l.rly.ce
    | 0x0C9 => l.rly.ue
    | 0x0D0 => l.rly.team
    | 0x100 => l.u.alu0o
    | 0x101 => l.u.alu0r
    | 0x102 => l.u.alu1o
    | 0x103 => l.u.alu1r
    | 0x104 => l.u.mulo
    | 0x105 => l.u.mulLo
    | 0x106 => l.u.mulHi
    | 0x107 => l.u.fo1
    | 0x108 => l.u.fo2
    | 0x109 => l.u.fr
    | 0x10A => l.u.fflags.zeroExtend 32
    | 0x10B => l.u.fmode
    | 0x10C => l.u.maco
    | 0x10D => l.u.macmode
    | 0x10E => macSt l.u
    | 0x10F => l.u.base
    | 0x110 => l.u.idx
    | 0x111 => l.u.data
    | 0x112 => l.u.lmode
    | 0x113 => l.u.lr
    | 0x114 => l.u.ua
    | 0x115 => l.u.scs
    | 0x116 => l.u.capsel
    | 0x117 => l.u.mbxsel
    | _ => 0

/-- A move of t to `spl.cmp` in cycle `at_` (R158). -/
def Lane.setTimer (l : Lane) (at_ : Nat) (t : Word) : Lane :=
  if t.getLsbD 31 then { l with spl := { l.spl with tmrArm := false } }
  else
    { l with spl := { l.spl with
        tmrArm := true, tmrPer := t.getLsbD 30, tmrCyc := t.extractLsb' 0 24, tmrFrom := at_ + 1 } }

/-- A raw accumulator register written in cycle `at_`: lost when the accumulator was triggered in that cycle or the one
before (R118). -/
def Lane.rawAcc (l : Lane) (k : Nat) (high : Bool) (v : Word) (at_ : Nat) : Lane :=
  if getN l.u.macTrig k = at_ ∧ at_ ≠ 0 ∨ getN l.u.macTrig k = at_ + 1 then l
  else
    let o := l.u.accAt k
    let r : BitVec 40 := if high then v.extractLsb' 0 8 ++ o.extractLsb' 0 32 else o.extractLsb' 32 8 ++ v
    { l with u := { l.u with acc := tput accDflt l.u.acc k r, vis := tput accDflt l.u.vis k r } }

/-- A write of system register `i`, moved in cycle `at_`; a write to an RO or reserved index is ignored (R65, R71). -/
def sysWrite (l : Lane) (i : Nat) (v : Word) (at_ : Nat) : Lane :=
  if 0x20 ≤ i ∧ i ≤ 0x2F then { l with ctl := { l.ctl with rstk := putW l.ctl.rstk (i - 0x20) v } }
  else if 0x58 ≤ i ∧ i ≤ 0x5F then { l with trap := { l.trap with scr := putW l.trap.scr (i - 0x58) v } }
  else if 0x120 ≤ i ∧ i ≤ 0x127 then l.rawAcc ((i - 0x120) / 2) (decide (i % 2 = 1)) v at_
  else match i with
    | 0x011 => { l with cfg := v.truncate 2 }
    | 0x030 =>
      if (v.extractLsb' 8 5).toNat ≤ 16 then
        { l with ctl := { l.ctl with depth := (v.extractLsb' 8 5).toNat, top := v.extractLsb' 0 4 } }
      else l
    | 0x048 => l.writePort 0x72 v
    | 0x049 => { l with trap := { l.trap with pend := l.trap.pend &&& ~~~v } }
    | 0x050 => l.writePort 0x74 v
    | 0x051 => { l with u := { l.u with capr := v } }
    | 0x052 => { l with u := { l.u with capst := v.truncate 3 } }
    | 0x080 =>
      { l with spl := { l.spl with
          late := l.spl.late && !v.getLsbD 2, schkEvt := l.spl.schkEvt && !v.getLsbD 1 } }
    | 0x081 => { l with spl := { l.spl with schkTrap := v.getLsbD 0 } }
    | 0x082 => l.setTimer at_ v
    | 0x090 => { l with lsu := { l.lsu with unmapped := l.lsu.unmapped && !v.getLsbD 0 } }
    | 0x0C0 =>
      { l with rly := { l.rly with
          gundrop := l.rly.gundrop && !v.getLsbD 10, unf := l.rly.unf && !v.getLsbD 9,
          ovf := l.rly.ovf && !v.getLsbD 8 } }
    | 0x0C1 => if v.getLsbD 0 then { l with rly := { l.rly with rx := [] } } else l
    | 0x100 => l.writePort 0x20 v
    | 0x101 => { l with u := { l.u with alu0r := v } }
    | 0x102 => l.writePort 0x30 v
    | 0x103 => { l with u := { l.u with alu1r := v } }
    | 0x104 => l.writePort 0x40 v
    | 0x105 => { l with u := { l.u with mulLo := v } }
    | 0x106 => { l with u := { l.u with mulHi := v } }
    | 0x107 => l.writePort 0x48 v
    | 0x108 => l.writePort 0x49 v
    | 0x109 => { l with u := { l.u with fr := v } }
    | 0x10A => { l with u := { l.u with fflags := v.truncate 4 } }
    | 0x10B => l.writePort 0x4F v
    | 0x10C => l.writePort 0x50 v
    | 0x10D => l.writePort 0x51 v
    | 0x10E => { l with u := { l.u with macst := v.truncate 12 &&& 0xF0F } }
    | 0x10F => l.writePort 0x58 v
    | 0x110 => l.writePort 0x59 v
    | 0x111 => l.writePort 0x5A v
    | 0x112 => l.writePort 0x5B v
    | 0x113 => { l with u := { l.u with lr := v } }
    | 0x114 => { l with u := { l.u with ua := v } }
    | 0x115 => { l with u := { l.u with scs := v } }
    | 0x116 => l.writePort 0x75 v
    | 0x117 => l.writePort 0x7A v
    | _ => l

/-- A write of a system register moved in cycle `now`: it takes effect for moves of the next cycle, and an operation
whose result becomes readable then overwrites it (R65, R71, R110, R119). -/
def Lane.sysLater (l : Lane) (now i : Nat) (v : Word) : Lane :=
  { l with flight := addFirst { due := now + 1, unit := 12, res := .sys i v now } l.flight }

/-! ### Results becoming readable -/

/-- One result or write becomes readable. -/
def Lane.deliver (l : Lane) (r : Res) : Lane :=
  match r with
  | .alu n v => if n then { l with u := { l.u with alu1r := v } } else { l with u := { l.u with alu0r := v } }
  | .mul lo hi => { l with u := { l.u with mulLo := lo, mulHi := hi } }
  | .fpu v f => { l with u := { l.u with fr := v, fflags := l.u.fflags ||| f } }
  | .acc k raw => { l with u := { l.u with vis := tput accDflt l.u.vis k raw } }
  | .macst b => { l with u := { l.u with macst := l.u.macst ||| b } }
  | .macstClr => { l with u := { l.u with macst := 0 } }
  | .lsuR v => { l with u := { l.u with lr := v } }
  | .lsuUa v => { l with u := { l.u with ua := v } }
  | .scs v => { l with u := { l.u with scs := v } }
  | .capR v => { l with u := { l.u with capr := v } }
  | .capSt st => { l with u := { l.u with capst := st } }
  | .capC d c => l.setC d c
  | .tdt c => { l with tdt := c }
  | .sig v => { l with spl := { l.spl with sig := v } }
  | .sys i v at_ => sysWrite l i v at_
  | .pend k => { l with trap := { l.trap with pend := l.trap.pend ||| (1 <<< k) } }
  | .drain8 a => { l with trap := { l.trap with drain8 := some a } }
  | .schk9 => { l with trap := { l.trap with schk9 := true } }

/-- Deliver every result due in cycle `u` or before, oldest first. -/
def Lane.deliverTo (l : Lane) (u : Nat) : Lane :=
  ((l.flight.takeWhile (fun f => decide (f.due ≤ u))).foldl (fun l f => l.deliver f.res)
    { l with flight := l.flight.dropWhile (fun f => decide (f.due ≤ u)) })

/-- A word that arrived in cycle `m.at_` takes effect there. -/
def Lane.applyMove (l : Lane) (m : RMove) : Lane :=
  let l := l.deliverTo m.at_
  if m.port = 128 then l.rxPush m.at_ m.v else l.remoteMove m.at_ m.port m.v

/-- Bring the lane to the start of cycle `u`: words that arrived before take effect, due results become readable. -/
def Lane.settle (l : Lane) (u : Nat) : Lane :=
  let old := l.rly.moves.filter (fun m => decide (m.at_ < u))
  let l := { l with rly := { l.rly with moves := l.rly.moves.filter (fun m => !decide (m.at_ < u)) } }
  (old.foldl Lane.applyMove l).deliverTo u

/-- Every operation in flight completes (R64). -/
def Lane.deliverAll (l : Lane) : Lane := l.flight.foldl (fun l f => l.deliver f.res) { l with flight := [] }

end Sys2Proof.Machine
end

