-- ==== Sys2Proof/Machine/AddrMap.lean ====
section
/-! DEFINITION. The device address map: the target of an address (R287, R301), lane regions (R124) and fetch regions (R155). -/

namespace Sys2Proof.Machine
open Sys2Proof

/-- `a` lies in [lo, hi]. -/
def within (a lo hi : Nat) : Bool := decide (lo ≤ a) && decide (a ≤ hi)

/-- The target number of a device address, as in FAB_WAIT_MAX; none for an address that no target holds (R287, R301).
The QDR targets are port A and port B of each channel; best-effort accesses use port A. -/
def targetOf (a : Nat) : Option Nat :=
  if within a 0x10000000 0x13FFFFFF then some (8 + (a - 0x10000000) / 0x10000 / 128)
  else if within a 0x20000000 0x3FFFFFFF then some (2 * ((a - 0x20000000) / 0x08000000))
  else if within a 0x40000000 0x400FFFFF then some 16
  else if within a 0x48000000 0x4800FFFF then some 17
  else if within a 0x50000000 0x50FFFFFF then some 19
  else if within a 0x54000000 0x569FFFFF then some 18
  else if within a 0x58000000 0x5810FFFF then some 18
  else if within a 0x58120000 0x5812FFFF then some 18
  else if within a 0x58200000 0x5823FFFF then some 18
  else if within a 0x58400000 0x5848FFFF then some 18
  else if within a 0x58500000 0x5850FFFF then some 18
  else if within a 0x5A000000 0x5BFFFFFF then some 18
  else if within a 0x5C000000 0x5D0FFFFF then some 22
  else if within a 0x5E000000 0x5E3FFFFF then some 22
  else if within a 0x5F000000 0x5FFFFFFF then some 19
  else if within a 0x60000000 0x603FFFFF then some 20
  else if within a 0xF0000000 0xF001FFFF then some 21
  else none

/-- The regions of the lane address space (R124). -/
inductive Region
  | home
  | istore
  | sysblk
  | remote
  | unmapped
  deriving DecidableEq, Repr

def regionOf (a : Nat) : Region :=
  if a < 0x10000 then .home
  else if within a 0x10000 0x13FFF then .istore
  else if within a 0x18000 0x18FFF then .sysblk
  else if (targetOf a).isSome then .remote
  else .unmapped

/-- A word address lies in the fetch regions of lane `p` (R155). -/
def fetchable (p a : Nat) : Bool :=
  within a 0x10000 0x13FFF ||
    (isStw p && (within a 0xF0000000 0xF001FFFF || within a 0x40000000 0x400EFFFF))

/-! ### Masters (R285, R296) -/

/-- The leaf of a master in an arbitration tree: stewards 0–3, field movers 4–11, ingest and egress engines 12–15, host 16,
debug 17, seats from 18. -/
def leafOf (m : BitVec 11) : Option Nat :=
  let n := m.toNat
  if n < 0x400 then some (18 + n)
  else if n < 0x404 then some (n - 0x400)
  else if within n 0x410 0x417 then some (4 + (n - 0x410))
  else if within n 0x418 0x41B then some (12 + (n - 0x418))
  else if n = 0x420 then some 16
  else if n = 0x7FF then some 17
  else none

/-- Rods of a request join those of its master. A rod that no target holds, or of a lane that holds no seat, is answered
with ERR (R285, R287). -/
def State.fabSubmit (s : State) (rods : List FRod) : State :=
  let ok : FRod → Bool := fun r => (leafOf r.master).isSome && decide (r.target < 23)
  { s with fab := { s.fab with
      reqs := s.fab.reqs ++ rods.filter ok
      resps := s.fab.resps ++ (rods.filter (fun r => !ok r)).map (fun r =>
        { id := r.id, master := r.master, target := r.target, addr := r.addr, write := r.write, code := 2,
          data := if r.write then [] else List.replicate r.len 0 })
      nextId := s.fab.nextId + rods.length } }

end Sys2Proof.Machine
end

