-- ==== Sys2Proof/Machine/Boundary.lean ====
section
/-! DEFINITION. Raising a trap, and the boundaries at which a lane takes an interrupt, with the wait of an entry that begins
there (R55, R60–R62, R149, R177, R185, R205, R208). -/

namespace Sys2Proof.Machine
open Sys2Proof

/-- A trap that a check calls for: number, DETAIL, SUB and address word (R180). -/
structure TrapSpec where
  n : Nat
  detail : Nat
  sub : Nat
  addr : Word
  deriving DecidableEq, Repr

def trap1 : TrapSpec := ⟨1, 0, 0, 0⟩

/-- A trap becomes due at cycle `b`; a transfer whose delay slot has not completed is not committed (R55, R185, R205). -/
def Lane.raiseTrap (l : Lane) (t : TrapSpec) (ret : Word) (rep : Option Nat) (b : Nat) : Lane :=
  { l with
    trap := { l.trap with
      due := some { n := t.n, detail := t.detail, sub := t.sub, addr := t.addr, ret := ret,
                    repActive := rep.isSome, repCount := rep.getD 0, b := b, a := none },
      load8 := none },
    ctl := { l.ctl with xfer := none, rep := none, resumeRc := none, bnd := none } }

/-- The return point of the instruction at `pc`: its transfer when it is a delay slot, and the remaining count inside a
repetition (R55, R86, R185). -/
def Lane.retPoint (l : Lane) : Word × Option Nat :=
  match l.ctl.xfer, l.ctl.rep with
  | some x, _ => (x.addr, none)
  | none, some r => (r.addr, some l.ctl.rc)
  | none, none => (l.ctl.pc, l.ctl.resumeRc)

/-- Lane `p` may transport now. -/
def Lane.transporting (l : Lane) : Bool := l.mode == .run && l.trap.due.isNone

/-- The lowest pending enabled interrupt (R62, R189). -/
def Trap.lowest (t : Trap) : Option Nat := (List.range 32).find? (fun k => (t.pend &&& t.mask).getLsbD k)

/-- The return point at a boundary (R87, R185). -/
def Lane.bndPoint (l : Lane) : Word × Option Nat :=
  match l.ctl.rep with
  | some r => (r.addr, some l.ctl.rc)
  | none => (l.ctl.pc, l.ctl.resumeRc)

/-- The trap taken at a boundary of cycle `b`, if any: trap 8 of a load or of a drain, trap 9, then interrupts (R62, R149,
R150, R161, R177). While a trap 8 of a load waits for its cycle nothing else is taken. -/
def Lane.boundaryTrap (l : Lane) (b : Nat) : Option Lane :=
  let r := l.bndPoint
  match l.trap.load8 with
  | some (a, f) => if f ≤ b then some (l.raiseTrap ⟨8, 0, 0, a⟩ r.1 r.2 b) else none
  | none =>
    match l.trap.drain8 with
    | some a => some ({ l with trap := { l.trap with drain8 := none } }.raiseTrap ⟨8, 0, 0, a⟩ r.1 r.2 b)
    | none =>
      if l.trap.schk9 then some ({ l with trap := { l.trap with schk9 := false } }.raiseTrap ⟨9, 0, 0, 0⟩ r.1 r.2 b)
      else match l.trap.lowest with
      | some k => some (l.raiseTrap ⟨32 + k, 0, 0, 0⟩ r.1 r.2 b)
      | none => none

/-- A boundary whose cycle has come is passed, or a trap is taken there, by what is pending in that cycle (R60, R208). -/
def Lane.passBoundary (l : Lane) (now : Nat) : Lane :=
  match l.ctl.bnd with
  | some b =>
    if decide (b ≤ now) && l.transporting then
      let l := l.settle b
      match l.boundaryTrap b with
      | some l => l
      | none => { l with ctl := { l.ctl with bnd := none } }
    else l
  | none => l

/-- The last cycle in which the result of a compute unit became readable, up to the current one (R120). -/
def Lane.noteShown (l : Lane) (now : Nat) : Lane :=
  { l with ctl := { l.ctl with
      shownAt := (l.flight.filter (fun f => decide (f.unit < 5) && decide (f.due ≤ now))).foldl (fun m f => max m (f.due + 1)) l.ctl.shownAt } }

end Sys2Proof.Machine
end

