-- ==== Sys2Proof/Machine/StoreBuf.lean ====
section
/-! DEFINITION. The store buffer: merging, eligibility, drains in idle and forced cycles (R139–R150), and the lane brought
to the current cycle. -/

namespace Sys2Proof.Machine
open Sys2Proof

def fullMask : BitVec 32 := 0xFFFFFFFF
def SbEntry.full (e : SbEntry) : Bool := decide (e.valid = fullMask)
/-- Drain cycles that remain for an entry (R142, R199). -/
def SbEntry.left (e : SbEntry) : Nat := if e.full || e.begun then 1 else 2
/-- The first cycle in which the entry may drain (R140). -/
def SbEntry.eligible (e : SbEntry) : Nat := match e.elig with | none => e.alloc + 8 | some u => min u (e.alloc + 8)
def SbEntry.earlier (e : SbEntry) (u : Nat) : SbEntry :=
  { e with elig := some (match e.elig with | none => u | some v => min u v) }

/-- Bytes `o … o + n − 1` of a rod as a mask. -/
def byteMask (o n : Nat) : BitVec 32 := BitVec.ofNat 32 ((2 ^ n - 1) * 2 ^ o)

/-- The mask of bytes as a mask of bits of the rod. -/
def bitMask (m : BitVec 32) : Rod := bytesRod ((maskBools m).map (fun b => if b then (0xFF : Byte) else 0))

/-- The tag actions of a data store: "clear" for a half of which it writes a byte (R145). -/
def dataTag (m : BitVec 32) (half : Nat) (old : Option Bool) : Option Bool :=
  if m &&& byteMask (16 * half) 16 = 0 then old else some false

/-- The youngest entry of a rod that may still take a merge, by position from the oldest (R139). -/
def mergeAt (sb : List SbEntry) (rod : Nat) : Option Nat :=
  match sb.reverse.findIdx? (fun e => decide (e.rod = rod)) with
  | none => none
  | some i =>
    let j := sb.length - 1 - i
    match sb[j]? with
    | some e => if e.begun then none else some j
    | none => none

/-- Merge new bytes into an entry. -/
def SbEntry.merge (e : SbEntry) (m : BitVec 32) (d : Rod) (t0 t1 : Option Bool → Option Bool) (u : Nat) : SbEntry :=
  let bm := bitMask m
  let e' := { e with valid := e.valid ||| m, data := (e.data &&& ~~~bm) ||| (d &&& bm), tag0 := t0 e.tag0, tag1 := t1 e.tag1 }
  if e'.full && !e.full then e'.earlier (u + 1) else e'

/-- Put bytes of one rod into the store buffer in cycle `u`: merge, or allocate a free entry (R139, R140). -/
def sbPut (sb : List SbEntry) (u rod : Nat) (m : BitVec 32) (d : Rod) (t0 t1 : Option Bool → Option Bool) : List SbEntry :=
  match mergeAt sb rod with
  | some j => sb.modify j (fun e => e.merge m d t0 t1 u)
  | none =>
    let e : SbEntry := { rod := rod, valid := 0, data := 0, tag0 := none, tag1 := none, alloc := u, elig := none, begun := false }
    sb.map (fun e => e.earlier (u + 1)) ++ [e.merge m d t0 t1 u]

/-- The entries that `rods` would need beyond those they merge into. -/
def sbNeed (sb : List SbEntry) (rods : List Nat) : Nat := (rods.filter (fun r => (mergeAt sb r).isNone)).length

/-- Remaining drain cycles of all entries: S of R203, R205, R207. -/
def sbLeft (sb : List SbEntry) : Nat := (sb.map SbEntry.left).foldl (· + ·) 0

/-- One drain cycle of the entry at position `j` (R140, R150, R178): a full write, the read of a read-modify-write, or its
write, which is marked when the rod is uncorrectable. -/
def State.drainStep (s : State) (p j : Nat) : State :=
  let l := s.lane p
  match l.lsu.sb[j]? with
  | none => s
  | some e =>
    let tags : BitVec 2 → BitVec 2 := fun t =>
      (match e.tag1 with | none => t &&& 2 | some b => if b then 2 else 0) |||
      (match e.tag0 with | none => t &&& 1 | some b => if b then 1 else 0)
    if e.full then
      let old := s.rodPeek p e.rod
      let s := s.laneWrite p e.rod (rodBytes e.data) (tags old.tags) false
      s.setLane p { l with lsu := { l.lsu with sb := l.lsu.sb.eraseIdx j } }
    else if e.begun then
      let old := s.rodPeek p e.rod
      let s := s.laneWrite p e.rod (mergeBytes old.data (rodBytes e.data) (maskBools e.valid)) (tags old.tags) old.bad
      s.setLane p { l with lsu := { l.lsu with sb := l.lsu.sb.eraseIdx j } }
    else
      let r := s.rodRead p e.rod 2
      let l := { l with lsu := { l.lsu with sb := l.lsu.sb.modify j (fun e => { e with begun := true }) } }
      r.2.setLane p (if r.1.bad then l.fly (s.now + 1) 13 (.drain8 (BitVec.ofNat 32 e.rod)) else l)

/-- Drain the entries that `sel` picks, oldest first, to the end; `n` bounds the cycles. -/
def State.drainSel (s : State) (p : Nat) (sel : SbEntry → Bool) : Nat → State
  | 0 => s
  | n + 1 =>
    match (s.lane p).lsu.sb.findIdx? sel with
    | none => s
    | some j => (s.drainStep p j).drainSel p sel n

/-- Drain every entry, oldest first (R148). -/
def State.drainAll (s : State) (p : Nat) : State := s.drainSel p (fun _ => true) 8

/-- Forced drains begin: the selected entries drain at once, one cycle each, in cycles now + d to `e` − 1 (R142, R143,
R148). -/
def Lane.forceDrain (l : Lane) (sel : SbEntry → Bool) (e : Nat) : Lane :=
  { l with lsu := { l.lsu with force := (l.lsu.sb.filter sel).map (fun x => (x.rod, x.alloc)), forceEnd := e } }

def forced (l : Lane) (e : SbEntry) : Bool := l.lsu.force.contains (e.rod, e.alloc)

/-- A of R205, fixed at the boundary cycle b: the wait for the results in flight at b and the drain; the drain starts at b. -/
def Lane.armTrap (l : Lane) (now : Nat) (heat : Word) (cyc : Nat) : Lane :=
  match l.trap.due with
  | some r =>
    if r.a.isNone && decide (r.b ≤ now) then
      let l := l.settle r.b
      let w := (l.flight.filter (fun f => decide (f.unit < 13))).foldl (fun a f => max a (f.due - r.b)) 0
      let sd := sbLeft l.lsu.sb
      ({ l with trap := { l.trap with due := some { r with a := some (max w sd, heat, cyc - (now - r.b)) } } }).forceDrain (fun _ => true) (r.b + sd)
    else l
  | none => l

/-- Arrived words and due results of lane `p` take effect, a boundary whose cycle has come is passed, a due trap fixes its
wait, and forced drains whose cycles have passed are complete. The lane is brought no further than the frame read of a
`trap.ret` in progress. -/
def State.settleBuf (s : State) (p : Nat) : State :=
  let l := ((s.lane p).noteShown s.now).passBoundary s.now
  let l := l.armTrap s.now s.heatW s.cyc
  let s := s.setLane p (l.settle (match l.trap.ret with | some (r, _) => min r s.now | none => s.now))
  if !l.lsu.force.isEmpty && decide (l.lsu.forceEnd ≤ s.now) then
    let s := s.drainSel p (forced l) 8
    let l := s.lane p
    s.setLane p { l with lsu := { l.lsu with force := [], forceEnd := 0 } }
  else s

/-- The array of an entry is idle for a drain in this cycle (R140, R195): no access of the lane to that home bank, or no
fetch and no access of the lane to the instruction store. What sharers do has no part in it. -/
def drainIdle (s : State) (p : Nat) (l : Lane) (e : SbEntry) : Bool :=
  let k := arrOf e.rod
  (s.lmem p).idle k s.now &&
    (decide (k ≠ 2) || (decide (l.ctl.lastT ≠ s.now + 1) && !(l.mode == .run && l.ctl.exact && decide (s.now < l.ctl.ready))))

/-- The entry that drains in this cycle: a forced one, else the one begun, else the oldest eligible one, when its array
is idle (R140, R142, R143, R148). -/
def drainPick (s : State) (p : Nat) : Option Nat :=
  let l := s.lane p
  if !l.lsu.force.isEmpty then l.lsu.sb.findIdx? (forced l)
  else
    let j := match l.lsu.sb.findIdx? (fun e => e.begun) with
      | some j => some j
      | none => l.lsu.sb.findIdx? (fun e => decide (e.eligible ≤ s.now))
    match j with
    | none => none
    | some j =>
      match l.lsu.sb[j]? with
      | some e => if drainIdle s p l e then some j else none
      | none => none

/-- The entry at position `j` uses its array in this cycle (R209). -/
def State.drainUse (s : State) (p j : Nat) : State :=
  match (s.lane p).lsu.sb[j]? with
  | none => s
  | some e => s.setLmem p ((s.lmem p).use (arrOf e.rod) s.now)

/-- The array that forced drains from cycle `c` on use in cycle `now` (R142, R148, R209). -/
def forcedArr (now : Nat) : List SbEntry → Nat → Option Nat
  | [], _ => none
  | e :: r, c => if now < c + e.left then (if c ≤ now then some (arrOf e.rod) else none) else forcedArr now r (c + e.left)

/-- The array that a forced drain of the lane uses in cycle `now`. -/
def Lane.forcedUse (l : Lane) (now : Nat) : Option Nat :=
  let es := l.lsu.sb.filter (forced l)
  forcedArr now es (l.lsu.forceEnd - sbLeft es)

def State.drained (s : State) (p : Nat) : State :=
  let l := s.lane p
  s.setLane p { l with lsu := { l.lsu with drainAt := s.now + 1 } }

/-- STORE_BUFFER_DRAIN: one drain cycle of lane `p` in the current cycle, at most one a cycle (R140). -/
def drainNow (s : State) (p : Nat) : State :=
  let s := s.settleBuf p
  if (s.lane p).lsu.drainAt = s.now + 1 then s
  else match drainPick s p with
  | none => s
  | some j => ((s.drainUse p j).drainStep p j).drained p

/-- The drain that is due in the cycle of a `lsu.fence`, `ctl.sync`, `spl.wait` or `trap.ret` proceeds there; what it
waits for begins in the next cycle (R140, R148, R199). -/
def State.presentDrain (s : State) (p : Nat) : State :=
  if (s.lane p).lsu.drainAt = s.now + 1 then s
  else match drainPick s p with
  | none => s.drained p
  | some j => ((s.drainUse p j).drainStep p j).drained p

end Sys2Proof.Machine
end

