-- ==== Sys2Proof/Machine/LsuUnit.lean ====
section
/-! DEFINITION. The LSU: effective addresses, checks, holds, loads, stores, reservations, capability accesses and fences
(R124–R149, R175, R176, R198, R199). -/

namespace Sys2Proof.Machine
open Sys2Proof

/-- Effective address, new base and `lsu.ua` of an access trigger with value `t` (R129). -/
def lsuEa (u : Units) (t : Word) : Word × Word × Word :=
  let x := if u.lmode.getLsbD 15 then t else u.idx
  let xs := x <<< (u.lmode.extractLsb' 6 2).toNat
  match (u.lmode.extractLsb' 4 2).toNat with
  | 0 => (u.base + x, u.base, u.base + x)
  | 1 => (u.base + xs, u.base, u.base + xs)
  | 2 => (u.base, u.base + xs, u.base + xs)
  | _ => (u.base - xs, u.base - xs, u.base - xs)

/-- The access triggers, as offset from 0x5C: ld, st, lr, sc, ldc, stc, fence. -/
def lsuSize (op : Nat) (u : Units) : Nat :=
  if op ≤ 1 then (match (u.lmode.extractLsb' 0 2).toNat with | 0 => 4 | 1 => 2 | _ => 1)
  else if op ≤ 3 then 4 else 16

/-- The region of an access, none when its bytes lie in two regions or wrap (R124). -/
def accRegion (a n : Nat) : Option Region :=
  if a + n > 4294967296 then none
  else if regionOf a = regionOf (a + n - 1) then some (regionOf a) else none

def lsuIsLoad (op : Nat) : Bool := decide (op = 0) || decide (op = 2) || decide (op = 4)
def lsuIsStore (op : Nat) : Bool := decide (op = 1) || decide (op = 3) || decide (op = 5)

/-- The permissions of R132, with SYS for the lane system block (R162) and the KEEP rule (R176). -/
def lsuPerm (l : Lane) (op a : Nat) (au : Cap) : Bool :=
  (if lsuIsLoad op then au.perm permLD else au.perm permST)
    && (decide (op ≠ 4) || au.perm permLDC)
    && (decide (op ≠ 5) || au.perm permSTC)
    && (!(decide (regionOf a = .sysblk) && within ((a - 0x18000) / 4) 0x40 0xFF) || au.perm permSYS)
    && (decide (op ≠ 5) ||
        (let cd := l.cReg (l.u.lmode.extractLsb' 12 3).toNat
         let c7 := l.cReg 7
         !cd.tag || cd.perm permKEEP || (c7.tag && !c7.sealed && c7.covers a 16)))

/-- Alignment and region rules (R124, R133). -/
def lsuAligned (op a n : Nat) : Bool :=
  match accRegion a n with
  | none => false
  | some r =>
    (decide (op ≤ 1) || (decide (a % n = 0) && decide (r = .home)))
      && (decide (r ≠ .sysblk) || (decide (n = 4) && decide (a % 4 = 0)))

/-- The first check of R128 and R175 that fails. -/
def lsuCheck (l : Lane) (op : Nat) (t : Word) : Option TrapSpec :=
  if op = 6 then none
  else
    let ea := (lsuEa l.u t).1
    let a := ea.toNat
    let n := lsuSize op l.u
    let ci := (l.u.lmode.extractLsb' 8 3).toNat
    let au := l.cReg ci
    if op ≤ 1 ∧ l.u.lmode.extractLsb' 0 2 = 3 then some ⟨1, 0, 0, ea⟩
    else if !au.tag then some ⟨2, ci, 0, ea⟩
    else if au.sealed then some ⟨5, ci, 0, ea⟩
    else if !lsuPerm l op a au then some ⟨4, ci, 0, ea⟩
    else if !lsuAligned op a n then some ⟨12, 0, 0, ea⟩
    else if !au.covers a n then some ⟨3, ci, 0, ea⟩
    else none

/-- The rods of an access with the bytes of each: (rod address, mask). -/
def accParts (a n : Nat) : List (Nat × BitVec 32) :=
  let o := a % 32
  let r := a / 32 * 32
  if o + n ≤ 32 then [(r, byteMask o n)] else [(r, byteMask o (32 - o)), (r + 32, byteMask 0 (o + n - 32))]

/-- Buffered or not (R124). -/
def buffered (a : Nat) : Bool := decide (regionOf a = .home) || decide (regionOf a = .istore)

/-- The youngest entry of a rod. -/
def youngest (sb : List SbEntry) (rod : Nat) : Option SbEntry := sb.reverse.find? (fun e => decide (e.rod = rod))

/-- A part of a load is forwarded: all its bytes are valid in the youngest entry of its rod; a capability load needs the
16 bytes of its half (R142, R145). -/
def forwards (sb : List SbEntry) (part : Nat × BitVec 32) : Bool :=
  match youngest sb part.1 with
  | some e => decide (e.valid &&& part.2 = part.2)
  | none => false

def overlaps (part : Nat × BitVec 32) (e : SbEntry) : Bool := decide (e.rod = part.1) && decide (e.valid &&& part.2 ≠ 0)

/-- The entries that a load overlaps, unless all its bytes are forwarded: it waits for each of them (R142). -/
def overlapSel (sb : List SbEntry) (a n : Nat) (e : SbEntry) : Bool :=
  !(accParts a n).all (forwards sb) && (accParts a n).any (fun q => overlaps q e)

/-- How many of the oldest entries a store must wait for: an entry it would have merged into may be among them (R143). -/
def fullNeed (sb : List SbEntry) (a n : Nat) : Nat :=
  ((List.range 4).find? (fun k => decide (sbNeed (sb.drop k) ((accParts a n).map Prod.fst) + (sb.drop k).length ≤ 4))).getD 4

/-- The held drains of an access trigger, if any: whether it is a partial overlap, and which entries drain (R199). -/
def lsuHold (l : Lane) (op : Nat) (t : Word) : Option (Bool × List (Nat × Nat)) :=
  let a := (lsuEa l.u t).1.toNat
  let n := lsuSize op l.u
  let sb := l.lsu.sb
  if !buffered a then none
  else if lsuIsLoad op && sb.any (overlapSel sb a n) then
    some (true, (sb.filter (overlapSel sb a n)).map (fun e => (e.rod, e.alloc)))
  else if lsuIsStore op && (decide (op ≠ 3) || decide (l.lsu.rsv = some (a / 32 * 32))) && decide (0 < fullNeed sb a n) then
    some (false, (sb.take (fullNeed sb a n)).map (fun e => (e.rod, e.alloc)))
  else none

/-- Drain cycles of the entries named. -/
def holdCycles (sb : List SbEntry) (k : List (Nat × Nat)) : Nat :=
  ((sb.filter (fun e => k.contains (e.rod, e.alloc))).map SbEntry.left).foldl (· + ·) 0

/-- Begin a hold: it is counted, and its entries drain at once (R142, R143). -/
def Lane.beginHold (l : Lane) (now : Nat) (h : Bool × List (Nat × Nat)) : Lane :=
  let n := holdCycles l.lsu.sb h.2
  let l := l.forceDrain (fun e => h.2.contains (e.rod, e.alloc)) (now + n)
  { l with
    lsu := if h.1 then { l.lsu with ovl := sat1 l.lsu.ovl } else { l.lsu with full := sat1 l.lsu.full },
    ctl := { l.ctl with stallUntil := now + n } }

/-! ### Performing an access -/

/-- The data of one part of a load: 32 bytes of its rod, its tags and whether it is uncorrectable (R142, R149). -/
def loadPart (s : State) (p at_ : Nat) (part : Nat × BitVec 32) : (List Byte × BitVec 2 × Bool) × State :=
  let l := s.lane p
  if forwards l.lsu.sb part then
    match youngest l.lsu.sb part.1 with
    | some e => ((rodBytes e.data, (if e.tag1 = some true then 2 else 0) ||| (if e.tag0 = some true then 1 else 0), false), s)
    | none => (([], 0, false), s)
  else
    let k := arrOf part.1
    let s := s.setLmem p ((s.lmem p).use k at_)
    let r := s.rodRead p part.1 0
    ((r.1.data, r.1.tags, r.1.bad), r.2)

/-- `n` bytes at a home or instruction-store address through the store buffer. -/
def loadBytes (s : State) (p a n : Nat) : (List Byte × BitVec 2 × Bool) × State :=
  match accParts a n with
  | [q] =>
    let r := loadPart s p s.now q
    (((r.1.1.drop (a % 32)).take n, r.1.2.1, r.1.2.2), r.2)
  | [q1, q2] =>
    let r1 := loadPart s p s.now q1
    let r2 := loadPart r1.2 p (s.now + 1) q2
    (((r1.1.1.drop (a % 32)) ++ r2.1.1.take (a % 32 + n - 32), r1.1.2.1, r1.1.2.2 || r2.1.2.2), r2.2)
  | _ => (([], 0, false), s)

/-- A loaded word: zero- or sign-extended as the mode selects (R127, R134). -/
def loadExt (n : Nat) (sx : Bool) (d : List Byte) : Word :=
  let v := leNat d
  if n = 4 then BitVec.ofNat 32 v
  else if n = 2 then (if sx then (BitVec.ofNat 16 v).signExtend 32 else BitVec.ofNat 32 v)
  else (if sx then (BitVec.ofNat 8 v).signExtend 32 else BitVec.ofNat 32 v)

/-- The stores of a lane clear its reservation on the rods they write (R146). -/
def Lane.storeClears (l : Lane) (rods : List Nat) : Lane :=
  match l.lsu.rsv with
  | some r => if rods.contains r then { l with lsu := { l.lsu with rsv := none } } else l
  | none => l

/-- Bytes `d` at address `a` enter the store buffer in cycle `now`. -/
def Lane.bufStore (l : Lane) (now a : Nat) (d : List Byte) (tag : Option Bool) : Lane :=
  let parts := accParts a d.length
  let o := a % 32
  let place : Nat → Rod := fun i => if i = 0 then bytesRod (List.replicate o 0 ++ d.take (32 - o)) else bytesRod (d.drop (32 - o))
  let sb := (parts.zipIdx).foldl (fun sb q =>
    let m := q.1.2
    let act : Nat → Option Bool → Option Bool := fun h old =>
      match tag with
      | none => dataTag m h old
      | some b => if m &&& byteMask (16 * h) 16 = 0 then old else some b
    sbPut sb now q.1.1 m (place q.2) (act 0) (act 1)) l.lsu.sb
  ({ l with lsu := { l.lsu with sb := sb } }).storeClears (parts.map Prod.fst)

/-- Stall cycles after the transport of an access to the lane's own memories (R136, R137, R198). -/
def lsuStall (op a n : Nat) : Nat :=
  let two := if (accParts a n).length = 2 then 1 else 0
  match regionOf a with
  | .home => two
  | .istore => if lsuIsLoad op then two + 1 else two
  | _ => 0

/-- The lane stalls for `n` cycles after a transport in cycle `now` (R196, R198). -/
def Lane.addStall (l : Lane) (now n : Nat) : Lane :=
  { l with ctl := { l.ctl with ready := max l.ctl.ready (now + n), stallUntil := max l.ctl.stallUntil (now + n + 1) } }

/-- A load has met an uncorrectable rod: trap 8 from cycle `f` on, unless an earlier load waits for its own (R149). -/
def Lane.failLoad (l : Lane) (a : Word) (f : Nat) : Lane :=
  { l with trap := { l.trap with load8 := match l.trap.load8 with | some x => some x | none => some (a, f) } }

/-- The base update and `lsu.ua` of an access trigger (R130). -/
def Lane.lsuUpdate (l : Lane) (now : Nat) (t : Word) : Lane :=
  let e := lsuEa l.u t
  ({ l with u := { l.u with base := e.2.1 } }).fly (now + 1) 5 (.lsuUa e.2.2)

/-- The rods of a steward's access to steward memory: (rod, offset, length). -/
def smParts (a n : Nat) : List (Nat × Nat × Nat) :=
  let o := a % 32
  let r := (a - 0x40000000) / 32
  if o + n ≤ 32 then [(r, o, n)] else [(r, o, 32 - o), (r + 1, 0, o + n - 32)]

/-- A remote access begins: one fabric transaction per rod (R138); a steward reaches steward memory through port A
(R251). -/
def State.remoteBegin (s : State) (p : Nat) (store : Bool) (a n : Nat) (sx : Bool) (d : List Byte) : State :=
  let l := s.lane p
  let parts := if a % 32 + n ≤ 32 then [(a, n, d)] else [(a, 32 - a % 32, d.take (32 - a % 32)), (a + (32 - a % 32), a % 32 + n - 32, d.drop (32 - a % 32))]
  let nid := s.fab.nextId
  let portA := isStw p && within a 0x40000000 0x400FFFFF
  let rods : List FRod := (parts.zipIdx).map (fun q =>
    { id := nid + q.2, master := l.master, target := (targetOf q.1.1).getD 31, addr := q.1.1, len := q.1.2.1,
      write := store, data := q.1.2.2, waited := 0, bad := decide (targetOf q.1.1 = some 19) && (decide (n ≠ 4) || decide (a % 4 ≠ 0)),
      drop := false })
  let rods := if portA then [] else rods
  let l := { l with
    mode := .remote,
    lsu := { l.lsu with
      remote := some
        { store := store, addr := BitVec.ofNat 32 a, size := n, sx := sx, ids := rods.map (·.id),
          data := if portA then d else [], left := if portA then smParts a n else [], bad := 0 } } }
  (s.fabSubmit rods).setLane p l

/-- An access trigger that has passed its checks, in the current cycle (R132, R135–R148). -/
def lsuFire (s : State) (p op : Nat) (t : Word) : State :=
  let now := s.now
  let l := s.lane p
  if op = 6 then
    let s := s.presentDrain p
    let l := s.lane p
    let n := sbLeft l.lsu.sb
    s.setLane p ((l.forceDrain (fun _ => true) (now + 1 + n)).addStall now n)
  else
    let a := (lsuEa l.u t).1.toNat
    let n := lsuSize op l.u
    let l1 := l.lsuUpdate now t
    let s1 := s.setLane p l1
    match regionOf a with
    | .sysblk =>
      let i := (a - 0x18000) / 4
      if op = 0 then s.setLane p ({ (l1.fly (now + 2) 5 (.lsuR (sysRead p l i))) with ctl := { l1.ctl with lsuMark := now + 1 } })
      else s.setLane p (l1.sysLater now i l.u.data)
    | .unmapped =>
      let l2 := { l1 with lsu := { l1.lsu with unmapped := true } }
      if op = 0 then s.setLane p ({ (l2.fly (now + 2) 5 (.lsuR 0)) with ctl := { l2.ctl with lsuMark := now + 1 } })
      else s.setLane p l2
    | .remote =>
      if op = 0 then s1.remoteBegin p false a n (l.u.lmode.getLsbD 2) []
      else s1.remoteBegin p true a n false (leBytes l.u.data.toNat n)
    | _ =>
      if lsuIsLoad op then
        let st := lsuStall op a n
        let r := loadBytes s1 p a n
        let s2 := r.2
        let l2 := s2.lane p
        let l2 := { l2 with ctl := { l2.ctl with lsuMark := now + 1 } }
        let l2 := l2.addStall now st
        let due := if st = 2 then now + 3 else now + 2
        let bad := r.1.2.2
        let l2 :=
          if op = 4 then
            let h := a % 32 / 16
            let tg := !bad && r.1.2.1.getLsbD h
            let c := if bad then nullCap else capOf r.1.1 tg
            (l2.fly due 5 (.lsuR (b2w tg))).fly due 5 (.capC (l.u.lmode.extractLsb' 12 3).toNat c)
          else l2.fly due 5 (.lsuR (if bad then 0 else loadExt n (decide (op = 0) && l.u.lmode.getLsbD 2) r.1.1))
        let l2 := if bad then l2.failLoad (BitVec.ofNat 32 a) (now + 2) else l2
        let l2 := if op = 2 then { l2 with lsu := { l2.lsu with rsv := some (a / 32 * 32) } } else l2
        s2.setLane p l2
      else if op = 3 then
        let ok := decide (l.lsu.rsv = some (a / 32 * 32))
        let l2 := if ok then l1.bufStore now a (leBytes l.u.data.toNat 4) none else l1
        s.setLane p ({ (l2.fly (now + 2) 5 (.scs (b2w ok))) with
          lsu := { l2.lsu with rsv := none, scUndo := if ok then some (now, a / 32 * 32, l.lsu.sb) else l2.lsu.scUndo } })
      else if op = 5 then
        let c := l.cReg (l.u.lmode.extractLsb' 12 3).toNat
        s.setLane p (l1.bufStore now a c.bytes (some c.tag))
      else s.setLane p ((l1.bufStore now a (leBytes l.u.data.toNat n) none).addStall now (lsuStall op a n))

end Sys2Proof.Machine
end

