-- ==== Sys2Proof/Machine/CapUnit.lean ====
section
/-! DEFINITION. The CAP unit: its checks in order and its operations (R170–R173). -/

namespace Sys2Proof.Machine
open Sys2Proof

/-- `fcap` with its POS at the instruction being transported (R168). -/
def Lane.curFcap (l : Lane) : Cap := { l.fcap with pos := l.ctl.pc }

def capCs (l : Lane) : Nat := (l.u.capsel.extractLsb' 0 4).toNat
def capCd (l : Lane) : Nat := (l.u.capsel.extractLsb' 4 3).toNat
def capCb (l : Lane) : Nat := (l.u.capsel.extractLsb' 8 3).toNat
/-- The source capability (R170). -/
def csCap (l : Lane) : Cap := if capCs l = 8 then l.curFcap else l.cReg (capCs l)
def cbCap (l : Lane) : Cap := l.cReg (capCb l)

/-- The operation code in t[4:0] is one of R171. -/
def capCodeOk (c : Nat) : Bool := decide (c ≤ 5) || (decide (8 ≤ c) && decide (c ≤ 0x12))

/-- SBND's new bounds leave those of cs, or give BASE 0 with T 0 (R171). -/
def sbndBad (c : Cap) (o : Word) : Bool :=
  !(decide (c.base.toNat ≤ c.pos.toNat) && decide (c.pos.toNat + o.toNat ≤ c.top)) || decide (c.pos = 0 ∧ o = 0)

/-- The checks of SEAL and UNSEAL (R172). -/
def sealCheck (l : Lane) (un : Bool) : Option TrapSpec :=
  let cb := cbCap l
  let cs := csCap l
  let b := capCb l
  if !cb.tag then some ⟨2, b, 2, 0⟩
  else if cb.sealed then some ⟨5, b, 2, 0⟩
  else if !cb.perm (if un then permUNSEAL else permSEAL) then some ⟨4, b, 2, 0⟩
  else if !cb.covers cb.pos.toNat 1 || !within cb.pos.toNat 1 255 then some ⟨3, b, 2, 0⟩
  else if un then
    if !cs.sealed || decide (cs.otype.toNat ≠ cb.pos.toNat) then some ⟨5, capCs l, 2, 0⟩ else none
  else if cs.sealed then some ⟨5, capCs l, 2, 0⟩ else none

/-- The first check of a CAP operation that fails (R171, R172). -/
def capCheck (l : Lane) (t : Word) : Option TrapSpec :=
  let c := t.toNat % 32
  let cs := csCap l
  if !capCodeOk c then some trap1
  else if c ≠ 0x11 ∧ 9 ≤ capCs l then some trap1
  else if (c = 0x11 ∨ c = 0x12) ∧ l.u.capo.extractLsb' 0 4 ≠ 0 then some trap1
  else match c with
    | 0x09 => if cs.sealed then some ⟨5, capCs l, 2, 0⟩ else none
    | 0x0A => if cs.sealed then some ⟨5, capCs l, 2, 0⟩ else none
    | 0x0B => if cs.sealed then some ⟨5, capCs l, 2, 0⟩ else if sbndBad cs l.u.capo then some ⟨3, capCs l, 2, 0⟩ else none
    | 0x0C => if cs.sealed then some ⟨5, capCs l, 2, 0⟩ else none
    | 0x0E => sealCheck l false
    | 0x0F => sealCheck l true
    | 0x11 => if l.fcap.perm permSYS then none else some ⟨4, 8, 2, 0⟩
    | 0x12 => if l.fcap.perm permSYS then none else some ⟨4, 8, 2, 0⟩
    | _ => none

/-- The comparison mask of CMPB (R171). -/
def cmpbMask (cb cs : Cap) : Word :=
  b2n (cb.tag && cs.tag) 0 ||| b2n (decide (cs.base.toNat ≤ cb.base.toNat)) 1 ||| b2n (decide (cb.top ≤ cs.top)) 2
    ||| b2n (decide (cb.perms &&& ~~~cs.perms = 0)) 3 ||| b2n (decide (cb.otype = cs.otype)) 4

/-- GLEN (R171). -/
def capLen (c : Cap) : Word := BitVec.ofNat 32 (min (c.top - c.base.toNat) 4294967295)

/-- The capability an operation writes to cD, for the codes that write one (R171). -/
def capResult (l : Lane) (c : Nat) : Option Cap :=
  let cs := csCap l
  let o := l.u.capo
  match c with
  | 0x08 => some cs
  | 0x09 => some { cs with pos := o }
  | 0x0A => some { cs with pos := cs.pos + o }
  | 0x0B => some { cs with base := cs.pos, limit := cs.pos + o }
  | 0x0C => some { cs with perms := cs.perms &&& o.extractLsb' 20 12 &&& 0xFFE }
  | 0x0D => some { cs with tag := false }
  | 0x0E => some { cs with otype := (cbCap l).pos.extractLsb' 0 8 }
  | 0x0F => some { cs with otype := 0 }
  | 0x11 => some l.tdt
  | _ => none

/-- The word an operation writes to `cap.r` (R171). -/
def capWord (l : Lane) (c : Nat) : Option Word :=
  let cs := csCap l
  match c with
  | 0x00 => some cs.pos
  | 0x01 => some cs.base
  | 0x02 => some cs.limit
  | 0x03 => some cs.word0
  | 0x04 => some (b2w cs.tag)
  | 0x05 => some (capLen cs)
  | 0x10 => some (cmpbMask (cbCap l) cs)
  | _ => none

/-- A CAP operation that has passed its checks; readable from the next cycle (R171, R173). -/
def Lane.fireCap (l : Lane) (now : Nat) (t : Word) : Lane :=
  let c := t.toNat % 32
  match capWord l c, capResult l c with
  | some v, _ => (l.fly (now + 1) 9 (.capR v)).fly (now + 1) 9 (.capSt (csCap l).status)
  | none, some r => (l.fly (now + 1) 9 (.capC (capCd l) r)).fly (now + 1) 9 (.capSt r.status)
  | none, none => (l.fly (now + 1) 9 (.tdt (csCap l))).fly (now + 1) 9 (.capSt (csCap l).status)

end Sys2Proof.Machine
end

