-- ==== Sys2Proof/Machine/Sha.lean ====
section
/-! DEFINITION. SHA-256 (FIPS 180-4), which the spec names for measurements and attestation (R421, R424). -/

namespace Sys2Proof.Machine
open Sys2Proof

def shaK0 : List Word := [0x428A2F98, 0x71374491, 0xB5C0FBCF, 0xE9B5DBA5, 0x3956C25B, 0x59F111F1, 0x923F82A4, 0xAB1C5ED5]
def shaK1 : List Word := [0xD807AA98, 0x12835B01, 0x243185BE, 0x550C7DC3, 0x72BE5D74, 0x80DEB1FE, 0x9BDC06A7, 0xC19BF174]
def shaK2 : List Word := [0xE49B69C1, 0xEFBE4786, 0x0FC19DC6, 0x240CA1CC, 0x2DE92C6F, 0x4A7484AA, 0x5CB0A9DC, 0x76F988DA]
def shaK3 : List Word := [0x983E5152, 0xA831C66D, 0xB00327C8, 0xBF597FC7, 0xC6E00BF3, 0xD5A79147, 0x06CA6351, 0x14292967]
def shaK4 : List Word := [0x27B70A85, 0x2E1B2138, 0x4D2C6DFC, 0x53380D13, 0x650A7354, 0x766A0ABB, 0x81C2C92E, 0x92722C85]
def shaK5 : List Word := [0xA2BFE8A1, 0xA81A664B, 0xC24B8B70, 0xC76C51A3, 0xD192E819, 0xD6990624, 0xF40E3585, 0x106AA070]
def shaK6 : List Word := [0x19A4C116, 0x1E376C08, 0x2748774C, 0x34B0BCB5, 0x391C0CB3, 0x4ED8AA4A, 0x5B9CCA4F, 0x682E6FF3]
def shaK7 : List Word := [0x748F82EE, 0x78A5636F, 0x84C87814, 0x8CC70208, 0x90BEFFFA, 0xA4506CEB, 0xBEF9A3F7, 0xC67178F2]
def shaH0 : List Word := [0x6A09E667, 0xBB67AE85, 0x3C6EF372, 0xA54FF53A, 0x510E527F, 0x9B05688C, 0x1F83D9AB, 0x5BE0CD19]
def shaK : List Word := shaK0 ++ shaK1 ++ shaK2 ++ shaK3 ++ shaK4 ++ shaK5 ++ shaK6 ++ shaK7

def beWord (l : List Byte) : Word := l.foldl (fun a b => (a <<< 8) ||| b.zeroExtend 32) 0
def beBytes (w : Word) : List Byte :=
  [w.extractLsb' 24 8, w.extractLsb' 16 8, w.extractLsb' 8 8, w.extractLsb' 0 8]

/-- The next message-schedule word from the last 16, oldest first. -/
def shaNext (w : List Word) : Word :=
  let a := w.getD 1 0
  let b := w.getD 14 0
  w.getD 0 0 + ((a.rotateRight 7) ^^^ (a.rotateRight 18) ^^^ (a >>> 3)) + w.getD 9 0
    + ((b.rotateRight 17) ^^^ (b.rotateRight 19) ^^^ (b >>> 10))

/-- One round over the eight working variables. -/
def shaRound (v : List Word) (k w : Word) : List Word :=
  match v with
  | [a, b, c, d, e, f, g, h] =>
    let t1 := h + ((e.rotateRight 6) ^^^ (e.rotateRight 11) ^^^ (e.rotateRight 25)) + ((e &&& f) ^^^ (~~~e &&& g)) + k + w
    let t2 := ((a.rotateRight 2) ^^^ (a.rotateRight 13) ^^^ (a.rotateRight 22)) + ((a &&& b) ^^^ (a &&& c) ^^^ (b &&& c))
    [t1 + t2, a, b, c, d + t1, e, f, g]
  | _ => v

def shaRounds : List Word → List Word → List Word → List Word
  | [], _, v => v
  | k :: ks, w, v => shaRounds ks (w.tail ++ [shaNext w]) (shaRound v k (w.getD 0 0))

def shaBlock (h : List Word) (b : List Byte) : List Word :=
  let w := (List.range 16).map (fun i => beWord ((b.drop (4 * i)).take 4))
  (h.zip (shaRounds shaK w h)).map (fun p => p.1 + p.2)

def shaBlocks : Nat → List Word → List Byte → List Word
  | 0, h, _ => h
  | n + 1, h, b => shaBlocks n (shaBlock h (b.take 64)) (b.drop 64)

/-- SHA-256 of a byte string, 32 bytes. -/
def sha256 (m : List Byte) : List Byte :=
  let n := m.length
  let z := (119 - n % 64) % 64
  let bits := 8 * n
  let m := m ++ [0x80] ++ List.replicate z 0 ++ (leBytes bits 8).reverse
  (shaBlocks (m.length / 64) shaH0 m).flatMap beBytes

/-- A 32-byte digest as a register value, byte 0 lowest. -/
def digest (m : List Byte) : BitVec 256 := bytesRod (sha256 m)

/-- Measurement register k extended by `d`: Mk ← SHA-256(Mk ‖ d) (R421). -/
def State.extend (s : State) (k : Nat) (d : List Byte) : State :=
  let old := tget (fun _ => (0 : BitVec 256)) s.sec.meas k
  { s with sec := { s.sec with meas := tput (fun _ => 0) s.sec.meas k (digest (rodBytes old ++ d)) } }

/-- The message as HashSLH-DSA formats it for the signature algorithm: pre-hash mark, an empty context string, the identifier of
SHA-256 and the SHA-256 of the message (R315; the identifier is that of FIPS 205, PRESUMED, log 84). -/
@[irreducible] def preHash (m : List Byte) : List Byte :=
  [1, 0, 0x06, 0x09, 0x60, 0x86, 0x48, 0x01, 0x65, 0x03, 0x04, 0x02, 0x01] ++ sha256 m

/-- A signature in the form of R315 verifies. -/
def verifies (key m sig : List Byte) : Bool := Config.slhVerify key (preHash m) sig

end Sys2Proof.Machine
end

