-- ==== Sys2Proof/Machine/MbxUnit.lean ====
section
/-! DEFINITION. Mailbox channels: identities, the MBX unit's reads and triggers, the mailbox path, resets and flushes
(R377–R394). -/

namespace Sys2Proof.Machine
open Sys2Proof

/-- The slot lane of a seat (R279): seat s lies in squad s[9:4] and slot s[3:0]. -/
def slotLane (n : Nat) : Nat := n / 128 * 136 + n % 128 / 16 * 17 + n % 16
def seatDflt : Nat → Option Nat := fun n => some (slotLane n)
/-- The lane that holds seat `n` under the seat map. -/
def State.seatLane (s : State) (n : Nat) : Option Nat := tget seatDflt s.pair.seatMap n

/-- The lanes of the steward pair in service, the lower first (R411). -/
def State.svcPair (s : State) : List Nat := if s.pair.svc then [1090, 1091] else [1088, 1089]

/-- Lane `p` answers to identity `code` (R377, R379). -/
def State.laneIs (s : State) (p code : Nat) : Bool :=
  decide ((s.lane p).master.toNat = code ∧ code < 0x404) || (decide (code = 0x404) && s.svcPair.contains p)

/-- The lanes of an identity. -/
def State.lanesOf (s : State) (code : Nat) : List Nat :=
  if code < 0x400 then (match s.seatLane code with | some p => if (s.lane p).master.toNat = code then [p] else [] | none => [])
  else if code < 0x404 then [1088 + (code - 0x400)]
  else if code = 0x404 then s.svcPair
  else []

def chanNo (l : Lane) : Nat := (l.u.mbxsel.extractLsb' 0 7).toNat
def chanWord (l : Lane) : Nat := (l.u.mbxsel.extractLsb' 8 4).toNat

def State.isSender (s : State) (p c : Nat) : Bool := decide (c < 64) && (s.chan c).bindV && s.laneIs p (s.chan c).sender.toNat
/-- Channel 64 is received by the steward pair in service (R383, R393). -/
def State.isReceiver (s : State) (p c : Nat) : Bool :=
  (decide (c = 64) && s.svcPair.contains p) ||
    (decide (c < 64) && (s.chan c).bindV && s.laneIs p (s.chan c).receiver.toNat)

def State.setNochan (s : State) (p : Nat) (b : Bool) : State := s.setLane p { s.lane p with nochan := b }

/-- `mbx.st` of lane `p` (R384). A lane that is neither sender nor receiver sees only NOCHAN. -/
def mbxSt (s : State) (p : Nat) : Word :=
  let l := s.lane p
  let c := chanNo l
  let ch := s.chan c
  let snd := s.isSender p c
  let rcv := s.isReceiver p c
  let nc := b2n l.nochan 6
  if !snd && !rcv then nc
  else
    (ch.epoch.zeroExtend 32 <<< 24) ||| (ch.msgEpoch.zeroExtend 32 <<< 16) ||| BitVec.ofNat 32 (ch.len * 256)
      ||| (if snd then b2n ch.sBadlen 7 ||| b2n ch.sDropped 5 ||| b2n ch.sBusy 4 else 0)
      ||| nc ||| b2n rcv 3 ||| b2n snd 2 ||| b2n (if snd then ch.sFull else ch.rFull) 0

/-- Word `w` of a channel as its receiver sees it: 0 at or above LEN while a message waits (R382). -/
def chanRead (ch : Chan) (full : Bool) (w : Nat) : Word := if full && decide (ch.len ≤ w) then 0 else getW ch.data w

/-- `mbx.rd` of lane `p` (R383). -/
def mbxRd (s : State) (p : Nat) : Word :=
  let l := s.lane p
  let c := chanNo l
  if s.isReceiver p c then chanRead (s.chan c) (s.chan c).rFull (chanWord l) else 0

def State.mpath (s : State) (i : MItem) : State := { s with mail := { s.mail with path := s.mail.path ++ [i] } }

/-- What a read of `mbx.rd` in the current cycle does besides: NOCHAN, and the release at word LEN − 1 (R382, R386). -/
def mbxRdEffect (s : State) (p : Nat) : State :=
  let l := s.lane p
  let c := chanNo l
  if !s.isReceiver p c then s.setNochan p true
  else
    let s := s.setNochan p false
    let ch := s.chan c
    if ch.rFull && decide (chanWord l + 1 = ch.len) then
      ((s.setChan c { ch with rFull := false }).mpath ⟨c, s.now + 24, .release⟩).mpath ⟨c, s.now + 48, .viewClear⟩
    else s

/-- A channel refuses a write of its sender while FULL is set or before MBX_LOCK (R378, R381). -/
def refuses (s : State) (full : Bool) : Bool := full || !s.mail.lock

def Chan.refuse (ch : Chan) : Chan := { ch with busy := true, sBusy := true, busyCnt := sat1 ch.busyCnt }

/-- For identity 0x404 the lower lane of the pair in service drives the mailbox path; its partner is only compared. -/
def State.drives (s : State) (p c : Nat) : Bool :=
  decide ((s.chan c).sender.toNat ≠ 0x404) || decide (s.svcPair.head? = some p)

/-- `mbx.wr` of value `v` (R383, R385). -/
def mbxWrOp (s : State) (p : Nat) (v : Word) : State :=
  let l := s.lane p
  let c := chanNo l
  if !s.isSender p c then s.setNochan p true
  else
    let s := s.setNochan p false
    let ch := s.chan c
    if !s.drives p c then s
    else if refuses s ch.sFull then s.setChan c ch.refuse
    else s.mpath ⟨c, s.now + 24, .wr (chanWord l) v⟩

/-- A GO is accepted at the sender: its view shows FULL, and BADLEN, BUSY and DROPPED clear (R384, R385). -/
def Chan.accept (ch : Chan) : Chan :=
  { ch with sFull := true, sBadlen := false, sBusy := false, sDropped := false, badlen := false, busy := false, dropped := false }

def lenOk (n : Nat) : Bool := decide (8 ≤ n) && decide (n ≤ 16)

/-- `mbx.go` of value `v` (R381, R383, R385). -/
def mbxGoOp (s : State) (p : Nat) (v : Word) : State :=
  let c := chanNo (s.lane p)
  let n := (v.extractLsb' 0 5).toNat
  if !s.isSender p c then s.setNochan p true
  else
    let s := s.setNochan p false
    let ch := s.chan c
    if !s.drives p c then s
    else if refuses s ch.sFull then s.setChan c ch.refuse
    else if !lenOk n then s.setChan c { ch with badlen := true, sBadlen := true }
    else (s.setChan c ch.accept).mpath ⟨c, s.now + 24, .go n ch.epoch⟩

/-- The message of a channel stands at the block: FULL there and in the receiver's copy, with interrupt 32 (R385). -/
def State.postFull (s : State) (c n : Nat) (ep : BitVec 8) : State :=
  let ch := s.chan c
  let s := s.setChan c { ch with full := true, rFull := true, len := n, msgEpoch := ep, postCnt := sat1 ch.postCnt }
  let rs := if c = 64 then s.svcPair else if ch.bindV then s.lanesOf ch.receiver.toNat else []
  rs.foldl (fun s p => s.pendInt p 0) s

/-- One item of the mailbox path reaches its end (R385, R386, R391). -/
def State.arrive (s : State) (i : MItem) : State :=
  let ch := s.chan i.chan
  match i.kind with
  | .wr w v =>
    if i.due < ch.discardTo then s
    else if ch.full then s.setChan i.chan ch.refuse
    else s.setChan i.chan { ch with data := putW ch.data w v }
  | .go n ep =>
    if i.due < ch.discardTo then
      s.setChan i.chan { ch with sFull := false, dropped := true, sDropped := true, dropCnt := sat1 ch.dropCnt }
    else if ch.full then s.setChan i.chan ch.refuse
    else s.postFull i.chan n ep
  | .release => s.setChan i.chan { ch with full := false, rFull := false }
  | .viewClear => s.setChan i.chan { ch with sFull := false }

def MKind.isPost : MKind → Bool
  | .wr _ _ => true
  | .go _ _ => true
  | _ => false

/-- Take the due items of channel `c` that `sel` picks off the path, in transport order. -/
def State.takePath (s : State) (c : Nat) (sel : MKind → Bool) : State :=
  let pick : MItem → Bool := fun i => decide (i.chan = c) && decide (i.due ≤ s.now) && sel i.kind
  (s.mail.path.filter pick).foldl State.arrive
    { s with mail := { s.mail with path := s.mail.path.filter (fun i => !pick i) } }

/-! ### Resets and role changes -/

/-- The sender of a channel is reset: EPOCH advances and its view is reloaded from the block (R380, R390). -/
def Chan.senderReset (ch : Chan) : Chan :=
  { ch with epoch := ch.epoch + 1, sFull := ch.full, sBusy := ch.busy, sBadlen := ch.badlen, sDropped := ch.dropped }

/-- The receiver leaves reset: its copy is reloaded (R389). -/
def Chan.receiverReset (ch : Chan) : Chan := { ch with rFull := ch.full }

/-- Reset of the identity `code`: channels it sends on, and channels it receives, with interrupt 32 (R389, R390). -/
def State.mbxReset (s : State) (code : Nat) : State :=
  (List.range 64).foldl (fun s c =>
    let ch := s.chan c
    if !ch.bindV then s
    else if ch.sender.toNat = code then s.setChan c ch.senderReset
    else if ch.receiver.toNat = code then
      let s := s.setChan c ch.receiverReset
      if ch.full then (s.lanesOf code).foldl (fun s p => s.pendInt p 0) s else s
    else s) s

/-- A channel whose receiver changes role is flushed (R391). -/
def Chan.flush (ch : Chan) (now : Nat) : Chan :=
  if ch.full then
    { ch with full := false, rFull := false, sFull := false, dropped := true, sDropped := true,
              dropCnt := sat1 ch.dropCnt, discardTo := now + 24 }
  else { ch with rFull := false, discardTo := now + 24 }

/-- The message of a channel is flushed, and with it what still reports the release of an earlier one (R391). -/
def State.flushChan (s : State) (c : Nat) : State :=
  { (s.setChan c ((s.chan c).flush s.now)) with mail := { (s.setChan c ((s.chan c).flush s.now)).mail with
      path := s.mail.path.filter (fun i => decide (i.chan ≠ c) || i.kind.isPost) } }

/-- A seat changes role at the current gun (R391). -/
def State.roleChange (s : State) (seat : Nat) : State :=
  (List.range 64).foldl (fun s c =>
    let ch := s.chan c
    if !ch.bindV then s
    else if ch.receiver.toNat = seat then s.flushChan c
    else if ch.sender.toNat = seat then s.setChan c ch.senderReset
    else s) s

/-! ### Fabric access -/

/-- Master `m` is the identity `code` for the mailbox block (R377, R392). -/
def State.masterIs (s : State) (m : BitVec 11) (code : Nat) : Bool :=
  decide (m.toNat = code) || (decide (code = 0x404) && (s.svcPair.map (fun p => 0x400 + (p - 1088))).contains m.toNat)
    || (decide (code = 0x404) && decide (m = 0x404))

/-- LAST_ERR of a response (R301). -/
def lastErrWord (m : BitVec 11) (t : Nat) (code : BitVec 2) : Word :=
  0x80000000 ||| (code.zeroExtend 32 <<< 29) ||| (m.zeroExtend 32 <<< 16) ||| BitVec.ofNat 32 (t % 32)

/-- The response of target `t` to an access of master `m` at address `a` is counted, and recorded when it is ERR or POISON
(R300, R301). -/
def Fab.report (f : Fab) (m : BitVec 11) (t a : Nat) (code : BitVec 2) : Fab :=
  let f := if code = 2 then { f with err := true, errCnt := sat1 f.errCnt } else f
  let f := if code = 3 then { f with poisonCnt := sat1 f.poisonCnt } else f
  if 2 ≤ code.toNat then { f with lastErr := lastErrWord m t code, lastAddr := BitVec.ofNat 32 a } else f

/-- The response that stands in `resp` is reported. -/
def State.reported (s : State) (m : BitVec 11) (t a : Nat) : State := { s with fab := s.fab.report m t a s.resp.code }

/-- A fabric write of the GO word by master `m` (R381, R392). -/
def fabricGo (s : State) (m : BitVec 11) (c : Nat) (be : BitVec 4) (v : Word) : State :=
  let ch := s.chan c
  let n := (v.extractLsb' 0 5).toNat
  if !(decide (c < 64) && ch.bindV && s.masterIs m ch.sender.toNat) then s.answer 2 0
  else if be ≠ 0xF then s.answer 0 0
  else if refuses s ch.full then (s.setChan c ch.refuse).answer 0 0
  else if !lenOk n then (s.setChan c { ch with badlen := true, sBadlen := true }).answer 0 0
  else ((s.setChan c ch.accept).postFull c n ch.epoch).answer 0 0

/-- A fabric write of data word `w` by master `m` (R381, R392). -/
def fabricDataWrite (s : State) (m : BitVec 11) (c w : Nat) (be : BitVec 4) (v : Word) : State :=
  let ch := s.chan c
  if !(decide (c < 64) && ch.bindV && s.masterIs m ch.sender.toNat) then s.answer 2 0
  else if refuses s ch.full then (s.setChan c ch.refuse).answer 0 0
  else
    let old := getW ch.data w
    let m32 : Word := (List.range 4).foldl (fun a i => if be.getLsbD i then a ||| (0xFF <<< (8 * i)) else a) 0
    (s.setChan c { ch with data := putW ch.data w ((old &&& ~~~m32) ||| (v &&& m32)) }).answer 0 0

/-- A fabric read of data word `w` by master `m`; it releases the channel at word LEN − 1 (R382, R392). -/
def fabricDataRead (s : State) (m : BitVec 11) (c w : Nat) (be : BitVec 4) : State :=
  let ch := s.chan c
  if !(decide (c < 64) && ch.bindV && s.masterIs m ch.receiver.toNat) then s.answer 2 0
  else
    let v := chanRead ch ch.full w
    let s := if ch.full && decide (w + 1 = ch.len) && decide (be = 0xF) then
        s.setChan c { ch with full := false, rFull := false, sFull := false } else s
    s.answer 0 v

/-- A code of the table of R377. -/
def mbxCode (c : Nat) : Bool := decide (c < 0x400) || within c 0x400 0x404 || decide (c = 0x420)

/-- A write of BIND with V = 1 that is ignored (R377). -/
def bindBad (s : State) (c snd rcv : Nat) : Bool :=
  (decide (c < 32) && (decide (snd = 0x420) || decide (rcv = 0x420)))
    || !mbxCode snd || !mbxCode rcv || decide (snd = rcv)
    || decide (4 ≤ ((List.range 64).filter (fun d =>
        decide (d ≠ c) && (s.chan d).bindV && decide ((s.chan d).receiver.toNat = rcv))).length)

/-- A steward write of BIND (R377, R378, R394). -/
def bindOp (s : State) (m : BitVec 11) (c : Nat) (v : Word) : State :=
  if !isStwMaster m then s.answer 2 0
  else if s.mail.lock then s.answer 0 0
  else
    let ch := s.chan c
    let snd := v.extractLsb' 16 11
    let rcv := v.extractLsb' 0 11
    if v.getLsbD 31 && bindBad s c snd.toNat rcv.toNat then s.answer 0 0
    else (s.setChan c { ch with bindV := v.getLsbD 31, sender := snd, receiver := rcv }).answer 0 0

/-- BIND as read. -/
def bindWord (ch : Chan) : Word :=
  b2n ch.bindV 31 ||| (ch.sender.zeroExtend 32 <<< 16) ||| ch.receiver.zeroExtend 32

/-- A steward write of MBX_LOCK: LOCK stays set, and M3 is extended with the binding table (R378, R421). -/
def mbxLockOp (s : State) (m : BitVec 11) (v : Word) : State :=
  if !isStwMaster m then s.answer 2 0
  else if s.mail.lock || !v.getLsbD 0 then s.answer 0 0
  else
    let tbl := (List.range 64).flatMap (fun c => leW (bindWord (s.chan c)))
    (({ s with mail := { s.mail with lock := true } }).extend 3 tbl).answer 0 0

end Sys2Proof.Machine
end

