-- ==== Sys2Proof/Machine/RelayNet.lean ====
section
/-! DEFINITION. The relay network: the SEC-DED check, slot tables and phases, router stages, arrival and the receive queue
(R212–R232). -/

namespace Sys2Proof.Machine
open Sys2Proof

def popcount7 (n : Nat) : Nat := ((List.range 7).filter (fun i => n.testBit i)).length

/-- The values of weight 3 assigned to data bits 0–31, ascending (R214). -/
def rlyCodes : List Nat := ((List.range 128).filter (fun n => decide (popcount7 n = 3))).take 32

/-- The check of 32 data bits (R214). -/
def rlyCheck (v : Word) : BitVec 7 :=
  (rlyCodes.zipIdx).foldl (fun a q => if v.getLsbD q.2 then a ^^^ BitVec.ofNat 7 q.1 else a) 0

/-- Outcome of a check: data, check, corrected, uncorrectable (R215). -/
def rlyDecode (v : Word) (c : BitVec 7) : Word × BitVec 7 × Bool × Bool :=
  let s := (rlyCheck v ^^^ c).toNat
  if s = 0 then (v, c, false, false)
  else match rlyCodes.findIdx? (fun k => decide (k = s)) with
    | some j => (v ^^^ (1 <<< j), c, true, false)
    | none => if popcount7 s = 1 then (v, rlyCheck v, true, false) else (v, c, false, true)

/-! ### Routers and tables -/

/-- Table key of output `n` of a router. -/
def outKey : RouterId → Nat → Nat
  | .squad r, n => r * 64 + n
  | .field f, n => 0x2000 + f * 64 + n
  | .ring f, n => 0x3000 + f * 64 + n

/-- Counter key of a router, in the order of R442. -/
def cntKey : RouterId → Nat
  | .squad r => r
  | .field f => 64 + f
  | .ring f => 72 + f

def nOuts : RouterId → Nat
  | .squad _ => 21
  | .field _ => 40
  | .ring _ => 8

def State.rout (s : State) (r : RouterId) (n : Nat) : ROut := tget routDflt s.relay.outs (outKey r n)
def State.setRout (s : State) (r : RouterId) (n : Nat) (o : ROut) : State :=
  { s with relay := { s.relay with outs := tput routDflt s.relay.outs (outKey r n) o } }
def State.rcnt (s : State) (r : RouterId) : RCnt := tget rcntDflt s.relay.cnt (cntKey r)
def State.setRcnt (s : State) (r : RouterId) (c : RCnt) : State :=
  { s with relay := { s.relay with cnt := tput rcntDflt s.relay.cnt (cntKey r) c } }
def State.rdrop (s : State) (r : RouterId) : State := s.setRcnt r { s.rcnt r with drop := sat1 (s.rcnt r).drop }

def ent16 : Nat → BitVec 16 := fun _ => 0
def ent64 : Nat → BitVec 64 := fun _ => 0

/-- Fields of a phase directory entry (R231). -/
def dirV (d : BitVec 64) : Bool := d.getLsbD 63
def dirUse (d : BitVec 64) : Bool := d.getLsbD 62
def dirStart (d : BitVec 64) : Nat := (d.extractLsb' 24 24).toNat
def dirPeriod (d : BitVec 64) : Nat := (d.extractLsb' 11 10).toNat + 1
def dirBase (d : BitVec 64) : Nat := (d.extractLsb' 0 11).toNat

/-- The present phase with the largest START at or below `c` (R217). -/
def phaseAt (dir : Nat → BitVec 64) (c : Nat) : Option (BitVec 64) :=
  (List.range 8).foldl (fun best k =>
    let d := dir k
    if dirV d && decide (dirStart d ≤ c) then
      match best with
      | none => some d
      | some b => if dirStart b ≤ dirStart d then some d else best
    else best) none

/-- The entry an output uses in the current cycle; 0 (V = 0) while it is idle (R217). -/
def entryNow (s : State) (o : ROut) : BitVec 16 :=
  if o.owner = 0xFFFF || !s.working then 0
  else
    match phaseAt (fun k => tget ent64 (if o.bank then o.dir1 else o.dir0) k) s.cyc with
    | none => 0
    | some d =>
      if dirUse d then
        tget ent16 (if o.bank then o.bank1 else o.bank0) (dirBase d + (s.cyc - dirStart d) % dirPeriod d)
      else 0

/-- Output `n` of router `r` takes the word of input `i` in this cycle (R219, R220). -/
def takes (s : State) (r : RouterId) (n i : Nat) : Option (BitVec 16) :=
  let e := entryNow s (s.rout r n)
  if !e.getLsbD 15 then none
  else match r with
    | .squad _ =>
      let k := (e.extractLsb' 0 5).toNat
      if k = i ∧ (if n ≤ 16 then k ≤ 20 else k ≤ 16) then some e else none
    | .field _ =>
      let k := (e.extractLsb' 0 6).toNat
      if k = i ∧ k ≤ 39 then some e else none
    | .ring _ => if (if e.getLsbD 0 then n else 8 + n) = i then some e else none

/-- Where a word goes that output `n` of router `r` forwards in the current cycle (R212, R218). -/
def onward (r : RouterId) (n : Nat) (e : BitVec 16) (now : Nat) : List (RLoc × Nat) :=
  match r with
  | .squad q =>
    if n ≤ 16 then [(.atLane (17 * q + n) (e.getLsbD 14) (e.extractLsb' 7 7).toNat, now + 1)]
    else [(.atRouter (.field (q / 8)) (4 * (q % 8) + (n - 17)), now + 2)]
  | .field f =>
    if n ≤ 31 then [(.atRouter (.squad (8 * f + n / 4)) (17 + n % 4), now + 1)]
    else [(.atRouter (.ring f) (n - 32), now + 2)]
  | .ring f =>
    let g := if n ≤ 3 then (f + 1) % 8 else (f + 7) % 8
    [(.atRouter (.ring g) (8 + n), now + 1), (.atRouter (.field g) (32 + n), now + 3)]

/-- The word stands at input `i` of router `r` and is due. -/
def atInput (now : Nat) (r : RouterId) (i : Nat) (w : RWord) : Bool :=
  decide (w.loc = .atRouter r i) && decide (w.due ≤ now)

/-- A word that no output of its stage took: an unslotted send, a ring pass whose field router may still take it, or a
drop counted at the router that forwarded it (R220, R221). -/
def State.untaken (s : State) (r : RouterId) (i : Nat) (w : RWord) : State :=
  match w.src, w.prev with
  | some p, _ => s.setLane p { s.lane p with rly := { (s.lane p).rly with unslot := sat1 (s.lane p).rly.unslot } }
  | none, some q =>
    match r with
    | .ring _ => if 8 ≤ i then s else s.rdrop q
    | _ => if w.taken then s else s.rdrop q
  | none, none => s

/-- A word passed on along the ring is not dropped when the field router of this stop leaves it, which meets it two cycles
after the ring stop (R218, R220). -/
def markPassed (r : RouterId) (i due : Nat) (ws : List RWord) : List RWord :=
  match r with
  | .ring f =>
    if 8 ≤ i then
      ws.map (fun w => if w.loc = .atRouter (.field f) (32 + (i - 8)) ∧ w.due = due + 2 then { w with taken := true } else w)
    else ws
  | _ => ws

/-- The outputs whose entry or phase directory reads uncorrectable in this cycle raise RLY_TABLE_UE; an idle output reads
none (R254). -/
def State.tableUe (s : State) (r : RouterId) (bad : List Nat) : State :=
  (bad.filter (fun n => decide (n < nOuts r) && decide ((s.rout r n).owner ≠ 0xFFFF) && s.working)).foldl
    (fun s _ => s.raise 0x0404 (srcW 7 (cntKey r)) 0) s

/-- RELAY_HOP: the word at input `h.input` of router `r` is checked once and forwarded by every output whose entry in force
selects it (R215, R218–R221); an output whose entry or directory reads uncorrectable acts as V = 0 (R254). -/
def relayHop (s : State) (r : RouterId) (h : HopIn) : State :=
  let i := h.input
  match s.relay.words.find? (atInput s.now r i) with
  | none => s
  | some w =>
    let s := s.tableUe r h.bad
    let rest := s.relay.words.filter (fun x => decide (x ≠ w))
    let d := rlyDecode w.data w.check
    let c := s.rcnt r
    let s := s.setRcnt r { c with ce := if d.2.2.1 then sat1 c.ce else c.ce, ue := if d.2.2.2 then sat1 c.ue else c.ue }
    let outs := ((List.range (nOuts r)).filter (fun n => !h.bad.contains n)).filterMap (fun n => (takes s r n i).map (fun e => (n, e)))
    if outs.isEmpty then ({ s with relay := { s.relay with words := rest } }).untaken r i w
    else
      let new := outs.flatMap (fun q => (onward r q.1 q.2 s.now).map (fun l =>
        ({ loc := l.1, due := l.2, data := d.1, check := d.2.1, poison := w.poison || d.2.2.2, src := none,
           prev := some r, taken := false } : RWord)))
      { s with relay := { s.relay with words := markPassed r i w.due rest ++ new } }

/-- RELAY_ARRIVAL: the word due at lane `p` is checked and enters the queue or performs its remote move (R215, R222,
R226). -/
def relayArrival (s : State) (p : Nat) : State :=
  let here : RWord → Bool := fun w => (match w.loc with | .atLane q _ _ => decide (q = p) | _ => false) && decide (w.due ≤ s.now)
  match s.relay.words.find? here with
  | none => s
  | some w =>
    let s := { s with relay := { s.relay with words := s.relay.words.filter (fun x => decide (x ≠ w)) } }
    let s := s.settleBuf p
    let l := s.lane p
    if l.mode == .held || l.mode == .fenced then s.rdrop (.squad (p / 17))
    else
      let d := rlyDecode w.data w.check
      if w.poison || d.2.2.2 then
        s.setLane p ({ l with rly := { l.rly with ue := sat1 l.rly.ue } }.selfCheck s.now)
      else
        let l := if d.2.2.1 then { l with rly := { l.rly with ce := sat1 l.rly.ce } } else l
        let port := match w.loc with | .atLane _ true dp => dp | _ => 128
        s.setLane p { l with rly := { l.rly with moves := l.rly.moves ++ [{ port := port, v := d.1, at_ := s.now }] } }

/-- A move of `v` to `rly.send` of lane `p` (R213, R214, R221). -/
def rlySendOp (s : State) (p : Nat) (v : Word) : State :=
  if isStw p then
    s.setLane p { s.lane p with rly := { (s.lane p).rly with unslot := sat1 (s.lane p).rly.unslot } }
  else
    { s with relay := { s.relay with
        words := s.relay.words ++
          [{ loc := .atRouter (.squad (p / 17)) (p % 17), due := s.now + 1, data := v, check := rlyCheck v,
             poison := false, src := some p, prev := none, taken := false }] } }

/-- The head of the receive queue, 0 when it is empty (R223). -/
def rxHead (l : Lane) : Word := l.rly.rx.headD 0

/-- A read of `rly.rx` whose guard holds and that is not lost pops the head; on an empty queue UNF is set (R223). -/
def Lane.rxPop (l : Lane) : Lane :=
  match l.rly.rx with
  | [] => { l with rly := { l.rly with unf := true } }
  | _ :: r => { l with rly := { l.rly with rx := r } }

end Sys2Proof.Machine
end

