-- ==== Sys2Proof/Machine/TrapUnit.lean ====
section
/-! DEFINITION. Taking a trap and returning from one: descriptors, frames, last resort and fencing (R179–R194, R205–R207). -/

namespace Sys2Proof.Machine
open Sys2Proof

/-! ### Contracts and the lanes they hold -/

/-- A contract whose seats run: active, or broken and not yet withdrawn (R321). -/
def Contract.running (c : Contract) : Bool := c.state == .active || c.state == .broken

/-- The running contract and seat record of the seat that lane `p` holds. -/
def State.seatOf (s : State) (p : Nat) : Option (Contract × SeatRec) :=
  let m := (s.lane p).master.toNat
  if m < 0x400 then
    s.con.findSome? (fun c => if c.running then (c.card.seats.find? (fun r => r.seat = m)).map (fun r => (c, r)) else none)
  else none

/-- The contract's fields [7:0] cause and [17:8] seat of BROKEN (R366). -/
def brokenWord (c : Contract) : Word := BitVec.ofNat 32 (c.brkCause + 256 * (c.brkSeat % 1024))

/-- Mark a contract broken, to be withdrawn at gun `w` (R29, R157, R192, R321). DESIGN CHOICE (log 88): `w` replaces a withdrawal
that was already asked for, that of the current gun included. -/
def State.markBroken (s : State) (h cause seat w : Nat) : State :=
  match s.contract h with
  | none => s
  | some c =>
    if c.state == .active then
      let c := { c with state := .broken, brkCause := cause, brkSeat := seat, pendW := some w }
      ((s.setContract c).raise 0x0203 (srcW 5 h) ((brokenWord c).zeroExtend 64)).tally 13
    else s

/-! ### Fault causes (R401, R402) -/

def seatStDflt : Nat → BitVec 2 := fun _ => 0
/-- SEAT_STATE.STATE of a seat (R415). -/
def State.seatState (s : State) (n : Nat) : BitVec 2 := tget seatStDflt s.pair.seatSt n
def State.setSeatState (s : State) (n : Nat) (v : BitVec 2) : State :=
  { s with pair := { s.pair with seatSt := tput seatStDflt s.pair.seatSt n v } }

/-- A pair runs single until service; the side of seat `n` is not delivered (R273, R409). -/
def State.singleOff (s : State) (n q : Nat) : State :=
  let s := (s.setSeatState n 3).setSeatState q 3
  { s with pair := { s.pair with off := s.pair.off ++ [n] } }

def ActKind.rank : ActKind → Nat
  | .refresh => 0
  | .history => 1
  | .scratch => 2

/-- An action is due for a lane; of two, the graver stands. -/
def addAct (a : Act) : List Act → List Act
  | [] => [a]
  | b :: r => if b.lane = a.lane ∧ b.gun = a.gun then (if b.kind.rank < a.kind.rank then a else b) :: r else b :: addAct a r

/-- A cause marked "by history" gives SCRATCH when the lane had a REFRESH within the previous 2^24 heats before heat `n`
(R401). -/
def State.resolve (s : State) (p n : Nat) (k : ActKind) : ActKind :=
  match k with
  | .history =>
    let h := getN s.pair.lastRefresh p
    if h ≠ 0 ∧ n + 1 ≤ h + 16777216 then .scratch else .refresh
  | k => k

/-- A flag or trap 8 on the source of held seat `seat`: every sweep of its group restarts at the next gun (R409). -/
def State.sourceFault (s : State) (seat : Nat) : State :=
  match s.pair.copies.find? (fun c => decide (c.seat = seat)) with
  | none => s
  | some c => { s with pair := { s.pair with
      groups := s.pair.groups.map (fun g => if g.gid = c.gid ∧ g.resume = none then { g with restart := true } else g) } }

/-- A cause of R401 on lane `p`, whose action falls at gun `due`. In a single contract, and on a lane whose pair runs
single, no action is taken, a fence breaks the contract and a SCRATCH is deferred (R402, R409). A lane of no running
contract can only lose its spare rows. -/
def State.faultCause (s : State) (p : Nat) (kind : ActKind) (cause due : Nat) : State :=
  match s.seatOf p with
  | none =>
    if cause = 4 ∧ p < 1088 then
      { s with pair := { s.pair with acts := addAct ⟨p, .scratch, 4, due, 65536⟩ s.pair.acts } }
    else s
  | some (c, r) =>
    if (s.lane p).mode == .held then s
    else if !c.card.paired || decide (2 ≤ (s.seatState r.seat).toNat) then
      let s := if cause = 3 then s.markBroken c.handle 4 r.seat (s.pacer.heatNum.toNat + 1)
        else if cause = 2 then s.sourceFault r.partner else s
      match s.resolve p due kind with
      | .scratch => { s with pair := { s.pair with deferred := s.pair.deferred ++ [(c.handle, p, cause)] } }
      | _ => s
    else
      let q := s.seatLane r.partner
      let h := s.pacer.heatNum.toNat + 1
      if cause = 3 && (match q with | some q => decide (getN s.pair.fencedIn q = h) | none => false) then
        let s := s.markBroken c.handle 4 r.seat h
        { s with pair := { s.pair with acts := s.pair.acts.filter (fun a => decide (a.lane ≠ p) && decide (some a.lane ≠ q)) } }
      else
        let s := if cause = 3 then { s with pair := { s.pair with fencedIn := putN s.pair.fencedIn p h } } else s
        { s with pair := { s.pair with acts := addAct ⟨p, kind, cause, due, c.handle⟩ s.pair.acts } }

/-! ### Entry -/

/-- A descriptor that entry may use (R181). -/
structure Desc where
  code : Cap
  data : Cap
  stack : Cap
  mask : Word
  flags : Word
  deriving DecidableEq, Repr

/-- Step 1 of R183: the TDT itself. -/
def tdtOk (t : Cap) : Bool :=
  t.tag && !t.sealed && t.perm permLD && t.perm permLDC && decide (t.base.toNat % 64 = 0) && decide (t.top ≤ 0x10000)
    && decide (t.base.toNat < 0x10000)

/-- The frame address for a descriptor's stack (R182). -/
def frameAddr (c7 st : Cap) : Word :=
  let sp := if c7.tag && !c7.sealed && decide (c7.base = st.base) && decide (c7.limit = st.limit)
      && decide (c7.perms = st.perms) then c7.pos else st.pos
  (sp - 128) &&& 0xFFFFFFE0

/-- Steps 4 to 6 of R183: SUB of the first that fails, 0 when all hold. -/
def descSub (p n : Nat) (c7 : Cap) (d : Desc) (rsv : Bool) : Nat :=
  let f := (frameAddr c7 d.stack).toNat
  if !(d.flags.getLsbD 31 && decide (d.flags.extractLsb' 10 21 = 0) && rsv) then 2
  else if !(d.code.tag && !d.code.sealed && d.code.perm permEX && decide (d.code.pos.toNat % 4 = 0)
      && d.code.covers d.code.pos.toNat 4 && fetchable p d.code.pos.toNat) then 4
  else if !(d.stack.tag && !d.stack.sealed && d.stack.perm permLD && d.stack.perm permST && d.stack.perm permLDC
      && d.stack.perm permSTC && d.stack.covers f 128 && decide (f + 128 ≤ 0x10000)
      && (decide (n ≠ 0) || decide (0xFC00 ≤ f))) then 5
  else 0

/-- Read and check the descriptor of trap `n`: the SUB of the first failing step (0 none), and the descriptor (R183). -/
def readDesc (s : State) (p n : Nat) : (Nat × Option Desc) × State :=
  let l := s.lane p
  if !tdtOk l.tdt then ((1, none), s)
  else if (l.tdt.top - l.tdt.base.toNat) / 64 ≤ n then ((2, none), s)
  else
    let e := l.tdt.base.toNat + 64 * n
    let m := s.lmem p
    let s := s.setLmem p ((m.use 0 s.now).use 1 s.now)
    let r0 := s.rodRead p e 5
    let r1 := r0.2.rodRead p (e + 32) 5
    if r0.1.bad || r1.1.bad then ((3, none), r1.2)
    else
      let d : Desc :=
        { code := capOf (r0.1.data.take 16) (r0.1.tags.getLsbD 0), data := capOf (r0.1.data.drop 16) (r0.1.tags.getLsbD 1),
          stack := capOf (r1.1.data.take 16) (r1.1.tags.getLsbD 0), mask := leWordAt r1.1.data 16,
          flags := leWordAt r1.1.data 20 }
      ((descSub p n (l.cReg 7) d (decide (leAt r1.1.data 24 8 = 0)), some d), r1.2)

/-- STATE of a frame (R184). -/
def frameState (l : Lane) : Word :=
  (l.trap.curOt.zeroExtend 32 <<< 24) ||| (l.trap.curNum.zeroExtend 32 <<< 16) ||| BitVec.ofNat 32 (l.ctl.depth * 256)
    ||| l.g.zeroExtend 32

def causeWord (r : TrapReq) : Word := BitVec.ofNat 32 (r.sub * 65536 + r.detail * 256 + r.n)
def repWord (r : TrapReq) : Word := if r.repActive then 0x80000000 ||| BitVec.ofNat 32 r.repCount else 0

/-- The four rods of a frame, with the tags of each (R184). -/
def frameRods (l : Lane) (r : TrapReq) (ot : Nat) (heat : Word) (cyc : Nat) : List (List Byte × BitVec 2) :=
  let p := { l.fcap with pos := r.ret }
  let p := if ot ≠ 0 then { p with otype := BitVec.ofNat 8 ot } else p
  let c7 := l.cReg 7
  let c1 := l.cReg 1
  [ (p.bytes ++ c7.bytes, (if p.tag then 1 else 0) ||| (if c7.tag then 2 else 0)),
    (c1.bytes ++ leW (causeWord r) ++ leW r.addr ++ leW (repWord r) ++ leW (frameState l), if c1.tag then 1 else 0),
    (leW l.trap.mask ++ leW heat ++ leW (BitVec.ofNat 32 cyc) ++ List.replicate 20 0, 0),
    (List.replicate 32 0, 0) ]

/-- The frame of an entry is written, both banks in its cycle and the next (R205). -/
def State.pushFrame (s : State) (p : Nat) (f : Push) : State :=
  let s := (f.rods.zipIdx).foldl (fun s q => s.laneWrite p (f.addr + 32 * q.2) q.1.1 q.1.2 false) s
  let m := s.lmem p
  let s := s.setLmem p ((((m.use 0 f.at_).use 1 f.at_).use 0 (f.at_ + 1)).use 1 (f.at_ + 1))
  let l := s.lane p
  s.setLane p { l with trap := { l.trap with push := none } }

/-- The trap is entered through descriptor `d`, read in cycle `r` = b + A (of trap 0: b + A + 3): the handler's registers
are loaded, the frame is written in r + 3 and r + 4, and fetch restarts for r + 7 + c′ (R186, R205, R206). -/
def State.enterWith (s : State) (p : Nat) (q : TrapReq) (d : Desc) (heat : Word) (cyc r : Nat) : State :=
  let l := s.lane p
  let f := frameAddr (l.cReg 7) d.stack
  let ot := d.flags.toNat % 256
  let rods := frameRods l q ot heat cyc
  let l := l.setC 7 { d.stack with pos := f }
  let l := if d.flags.getLsbD 8 then l else l.setC 1 d.data
  let mask := if d.flags.getLsbD 9 then l.trap.mask &&& d.mask else d.mask
  s.setLane p
    { l with
      mode := .run
      fcap := d.code
      lsu := { l.lsu with rsv := none, force := [], forceEnd := 0 }
      trap := { l.trap with
        mask := maskFix l.stw mask
        pend := if 32 ≤ q.n ∧ q.n ≤ 63 then l.trap.pend &&& ~~~((1 : Word) <<< (q.n - 32)) else l.trap.pend
        curNum := BitVec.ofNat 8 q.n, curOt := BitVec.ofNat 8 ot, cnt := sat1 l.trap.cnt
        cause := causeWord q, addr := q.addr, due := none, push := some ⟨r + 3, f.toNat, rods⟩ }
      ctl := { l.ctl with
        pc := d.code.pos, rc := 0, rep := none, resumeRc := none, xfer := none, ready := r + 7, restart := true,
        exact := false, bnd := none, lsuMark := 0, stallUntil := 0, fetched := [], after := none, fetchRods := [] } }

/-- The trap due on lane `p` becomes `r`. -/
def State.setDue (s : State) (p : Nat) (r : TrapReq) : State :=
  let l := s.lane p
  s.setLane p { l with trap := { l.trap with due := some r } }

/-- The eight words of a fence report (R193). -/
def fenceReport (p : Nat) (l : Lane) (first : TrapReq) (sub : Nat) (heat : Word) (cyc : Nat) : List Word :=
  [ laneId p l, BitVec.ofNat 32 (sub * 65536 + first.n * 256), first.addr, first.ret, heat, BitVec.ofNat 32 cyc,
    if l.tdt.tag then l.tdt.base else 0xFFFFFFFF, (l.cReg 7).pos ]

/-- The lane fences itself (R192); in a single contract the contract is broken. -/
def State.fence (s : State) (p : Nat) (first : TrapReq) (sub : Nat) (heat : Word) (cyc : Nat) (at_ : Nat) : State :=
  let l := s.lane p
  let rep := fenceReport p l first sub heat cyc
  let s := s.setLane p
    { l with
      mode := .fenced
      flight := []
      lsu := { l.lsu with sb := [], force := [], forceEnd := 0, rsv := none }
      rly := { l.rly with moves := [] }
      spl := { l.spl with flag := true }
      trap := { l.trap with due := none, fence := some rep, fenceAt := at_, load8 := none, drain8 := none, schk9 := false }
      ctl := { l.ctl with rep := none, xfer := none, bnd := none, resumeRc := none, pc := first.ret } }
  let s := (s.raise 0x0305 (srcW 1 p)
    (BitVec.ofNat 64 ((rep.getD 1 0).toNat + 4294967296 * first.addr.toNat))).tally 15
  s.faultCause p .history 3 (s.pacer.heatNum.toNat + 1)

/-- The wait of an entry ends (R64, R148, R186). The results in flight at the boundary have become readable by then; those
that remote moves have started since complete in their own cycles (R226). -/
def State.entryStart (s : State) (p : Nat) (r : TrapReq) : State :=
  let s := s.drainAll p
  let l := s.lane p
  let s := s.setLane p { l with lsu := { l.lsu with rsv := none, force := [], forceEnd := 0 } }
  if r.n = 8 then
    match s.seatOf p with
    | some (c, _) =>
      (if c.card.paired then s.setLane p { s.lane p with spl := { (s.lane p).spl with flag := true } } else s).faultCause p
        .history 2 (s.pacer.heatNum.toNat + 1)
    | none => s
  else s

/-- The next step of an entry, `b + a` reached (R205, R206). First results in flight become readable, the store buffer
drains, the reservation clears and the descriptor is read; when it cannot be used, the entry of trap 0 is read three cycles
later (R191), and a second failure fences the lane (R192). -/
def State.entryStep (s : State) (p : Nat) (q : TrapReq) (a : Nat) (heat : Word) (cyc : Nat) : State :=
  let s := if q.n = 0 then s else s.entryStart p q
  match readDesc s p q.n with
  | ((0, some d), s) => s.enterWith p q d heat cyc (q.b + a)
  | ((sub, _), s) =>
    if q.n = 0 then s.fence p { q with n := q.detail } sub heat cyc (q.b + a + 2)
    else s.setDue p { q with n := 0, detail := q.n, sub := sub, a := some (a + 3, heat, cyc) }

/-- The entry in progress takes its next step when its cycle has come; `first`: it may begin. -/
def State.entryAdvance (s : State) (p : Nat) (first : Bool) : State :=
  match (s.lane p).trap.due with
  | some q =>
    match q.a with
    | some (a, heat, cyc) =>
      if (first || q.n == 0) && decide (q.b + a ≤ s.now) then s.entryStep p q a heat cyc else s
    | none => s
  | none => s

/-- A frame is written when its cycle has come. -/
def State.pushAdvance (s : State) (p : Nat) : State :=
  match (s.lane p).trap.push with
  | some f => if f.at_ ≤ s.now then s.pushFrame p f else s
  | none => s

/-! ### Return -/

/-- The checks of `trap.ret` on c7 (R187). -/
def retCheck (l : Lane) : Option TrapSpec :=
  let c := l.cReg 7
  let f := c.pos.toNat
  if !c.tag then some ⟨2, 7, 3, 0⟩
  else if c.sealed then some ⟨5, 7, 3, 0⟩
  else if !(c.perm permLD && c.perm permLDC) then some ⟨4, 7, 3, 0⟩
  else if f % 32 ≠ 0 ∨ 0x10000 < f + 128 then some ⟨12, 0, 0, 0⟩
  else if !c.covers f 128 then some ⟨3, 7, 3, 0⟩
  else none

/-- A trap of `trap.ret` found after its frame read: taken with b = t + S + 5 and A = 0 (R207). -/
def Lane.lateTrap (l : Lane) (t : TrapSpec) (b : Nat) (heat : Word) (cyc : Nat) : Lane :=
  let l := l.raiseTrap t l.ctl.pc none b
  { l with trap := { l.trap with due := l.trap.due.map (fun r => { r with a := some (0, heat, cyc) }) } }

/-- The registers of an intact frame are restored (R187, R188): `r` is the cycle of the frame read. -/
def Lane.restore (l : Lane) (r : Nat) (fc c7 c1 : Cap) (w1 w2 : List Byte) : Lane :=
  let rep := leWordAt w1 24
  let st := leWordAt w1 28
  let l := (l.setC 7 (if c7.tag then c7 else nullCap)).setC 1 (if c1.tag then c1 else nullCap)
  { l with
    fcap := fc
    g := st.extractLsb' 0 4
    trap := { l.trap with
      mask := maskFix l.stw (leWordAt w2 0), curNum := st.extractLsb' 16 8, curOt := st.extractLsb' 24 8
      cause := leWordAt w1 16 &&& 0x00FFFFFF, addr := leWordAt w1 20 }
    ctl := { l.ctl with
      pc := fc.pos, depth := min (st.extractLsb' 8 5).toNat 16, rc := 0, rep := none, xfer := none
      resumeRc := if rep.getLsbD 31 then some (rep.toNat % 65536) else none
      bnd := if rep.getLsbD 31 then none else some (r + 4) } }

/-- The frame read of `trap.ret` at address `fa` in cycle `r`, both banks in `r` and `r + 1` (R187, R207): results that arrive
before its last data are taken first. DEDUCED (log 67): the guards of the frame stand from cycle `r` on, so that a remote
move of that cycle or later writes over them (R226). -/
def State.retRead (s : State) (p r : Nat) (fa : Word) : State :=
  let s := s.drainAll p
  let l := (s.lane p).deliverTo (r + 3)
  let s := s.setLane p { l with lsu := { l.lsu with force := [], forceEnd := 0 }, trap := { l.trap with ret := none } }
  let s := s.setLmem p ((((s.lmem p).use 0 r).use 1 r).use 0 (r + 1) |>.use 1 (r + 1))
  let f := fa.toNat
  let r0 := s.rodRead p f 5
  let r1 := r0.2.rodRead p (f + 32) 5
  let r2 := r1.2.rodRead p (f + 64) 5
  let r3 := r2.2.rodRead p (f + 96) 5
  let s := r3.2
  let l := s.lane p
  let late : TrapSpec → State := fun x => s.setLane p (l.lateTrap x (r + 4) s.heatW (s.cyc + 4))
  if r0.1.bad then late ⟨8, 0, 0, BitVec.ofNat 32 f⟩
  else if r1.1.bad then late ⟨8, 0, 0, BitVec.ofNat 32 (f + 32)⟩
  else if r2.1.bad then late ⟨8, 0, 0, BitVec.ofNat 32 (f + 64)⟩
  else if r3.1.bad then late ⟨8, 0, 0, BitVec.ofNat 32 (f + 96)⟩
  else
    let fc := capOf (r0.1.data.take 16) (r0.1.tags.getLsbD 0)
    let c7 := capOf (r0.1.data.drop 16) (r0.1.tags.getLsbD 1)
    let c1 := capOf (r1.1.data.take 16) (r1.1.tags.getLsbD 0)
    if fc.tag && fc.sealed && decide (fc.otype ≠ l.trap.curOt) then late ⟨5, 8, 3, 0⟩
    else s.setLane p (l.restore r (if fc.tag then { fc with otype := 0 } else nullCap) c7 c1 r1.1.data r2.1.data)

/-- The frame read of a `trap.ret` in progress takes place when its cycle has come. -/
def State.retAdvance (s : State) (p : Nat) : State :=
  match (s.lane p).trap.ret with
  | some (r, f) => if r ≤ s.now then (s.retRead p r f).settleBuf p else s
  | none => s

/-- RETURN FROM A TRAP: `trap.ret` whose checks on c7 hold, transported in the current cycle t. The store buffer drains in
t + 1 to t + S, the reservation clears, and the frame is read from t + S + 1 (R187, R188, R207). -/
def State.trapReturn (s : State) (p : Nat) : State :=
  let s := s.presentDrain p
  let l := s.lane p
  let r := s.now + sbLeft l.lsu.sb + 1
  let l := l.forceDrain (fun _ => true) r
  s.setLane p
    { l with
      lsu := { l.lsu with rsv := none }
      trap := { l.trap with ret := some (r, (l.cReg 7).pos) }
      ctl := { l.ctl with
        ready := r + 6, restart := true, exact := false, stallUntil := 0, fetched := [], lsuMark := 0, bnd := none, fetchRods := [] } }

/-! ### The lane in the current cycle -/

/-- Bring lane `p` to the current cycle, with the steps of a trap entry and of a `trap.ret` that have begun. -/
def State.settle (s : State) (p : Nat) : State :=
  (((s.settleBuf p).retAdvance p).entryAdvance p false).pushAdvance p

/-- TRAP_ENTRY: the due trap is entered once its wait of A cycles from b has passed; the later steps of the entry follow in
their cycles (R205). -/
def trapEntry (s : State) (p : Nat) : State := (s.settle p).entryAdvance p true

/-- A frame still to be written is written now. -/
def State.pushNow (s : State) (p : Nat) : State :=
  match (s.lane p).trap.push with
  | some f => s.pushFrame p f
  | none => s

/-- What has begun on the lane is completed at once: at the gun. -/
def State.entryFinish (s : State) (p : Nat) : State :=
  let s := match (s.lane p).trap.ret with | some (r, f) => s.retRead p r f | none => s
  let s := s.setLane p (s.lane p).deliverAll
  let s := (List.range 2).foldl (fun s _ =>
    match (s.lane p).trap.due with
    | some q =>
      let a := match q.a with | some a => a | none => (0, s.heatW, 0)
      s.entryStep p q a.1 a.2.1 a.2.2
    | none => s) s
  s.pushNow p

end Sys2Proof.Machine
end

