-- ==== Sys2Proof/Machine/SmArray.lean ====
section
/-! DEFINITION. The array of steward memory behind its two ports: reads and writes with their reporting, collisions, and the
fetch of a steward through port A (R155, R242, R243, R251–R253). -/

namespace Sys2Proof.Machine
open Sys2Proof

/-- Rows of steward memory in service (R252). -/
def smRows : Nat := 32768

/-- Counters, SM_STATUS and SM_LAST_ERR of a read of steward memory (R243, R258). -/
def StewMem.note (m : StewMem) (portB : Bool) (rod : Nat) (r : RowRead) : StewMem :=
  let err : Word := 0x80000000 ||| (if portB then 0x10000000 else 0) ||| BitVec.ofNat 32 (rod * 32)
  match r.ok with
  | .clean => m
  | .corrected =>
    let m := { m with ce := true, ceCnt := sat1 m.ceCnt }
    if m.lastErr.getLsbD 31 && m.lastErr.getLsbD 30 then m else { m with lastErr := err }
  | .uncor md =>
    { m with ue := true, ueCnt := sat1 m.ueCnt, lastErr := err ||| 0x40000000 ||| (if md then 0x20000000 else 0) }

/-- Read rod `rod` of steward memory. -/
def State.smRead (s : State) (portB : Bool) (rod : Nat) : RowRead × State :=
  let r := readRow s.sm.arr smRows rod
  let s := { s with sm := s.sm.note portB rod r }
  (r, if r.bad then s.raise 0x0401 0 0 else s)

/-- Write bytes of rod `rod`; a merge with an uncorrectable rod stores it marked (R242). -/
def State.smWrite (s : State) (portB : Bool) (rod : Nat) (d : List Byte) (be : List Bool) (poison : Bool) : State :=
  if be.all id && decide (be.length = 32) then
    { s with sm := { s.sm with arr := writeRow s.sm.arr smRows rod d 0 poison } }
  else
    let r := s.smRead portB rod
    { r.2 with sm := { r.2.sm with arr := writeRow r.2.sm.arr smRows rod (mergeBytes r.1.data d be) 0 (r.1.bad || poison) } }

/-- `n` bytes `d` at offset `o` of a rod: 32 data bytes and byte enables. -/
def spread (o : Nat) (d : List Byte) : List Byte × List Bool :=
  let n := d.length
  ((List.replicate o 0 ++ d ++ List.replicate (32 - o - n) 0).take 32,
   (List.replicate o false ++ List.replicate n true ++ List.replicate (32 - o - n) false).take 32)

/-! ### Ports -/

/-- A port has its access of this cycle. -/
def usedAt (u : Option SmUse) (now : Nat) : Bool := match u with | some x => decide (x.at_ = now) | none => false

/-- An access to rod `rod` meets the other port's access of this cycle: one of the two is a read, the other a write
(R251). -/
def collides (other : Option SmUse) (now rod : Nat) (write : Bool) : Bool :=
  match other with
  | some x => decide (x.at_ = now) && decide (x.rod = rod) && (x.write != write)
  | none => false

/-- Note an access of a port in this cycle. -/
def StewMem.mark (m : StewMem) (portB : Bool) (u : SmUse) : StewMem :=
  if portB then { m with lastB := some u, undoB := none } else { m with lastA := some u }

/-- A refusal with BUSY is counted (R251). -/
def StewMem.refuse (m : StewMem) (portB : Bool) : StewMem :=
  if portB then { m with busy := true, busyB := sat1 m.busyB } else { m with busy := true, busyA := sat1 m.busyA }

/-- Scrub has the array in this cycle, on both ports (R252). -/
def StewMem.scrubNow (m : StewMem) (now : Nat) : Bool := decide (m.scrubAt = now) || decide (m.scrubbed = now + 1)

/-- Port A can take an access in this cycle: it has made none, or the same one for the other lane of a duplex pair (R251,
R252). -/
def State.portAFree (s : State) (rod : Nat) (write : Bool) : Bool :=
  !s.sm.scrubNow s.now &&
    (match s.sm.lastA with
     | some x => decide (x.at_ ≠ s.now) || (decide (x.rod = rod) && x.write == write)
     | none => true)

/-- The request that port B has had performed in this cycle is refused after all, since port A meets it at the same clock
edge: what it wrote and its answer are taken back (R251). -/
def State.takeBackB (s : State) (u : SmUndo) : State :=
  let m := s.sm.refuse true
  { s with
    sm := { m with arr := u.arr, retry := m.retry ++ [u.req], undoB := none }
    fab := { s.fab with
      bridge := s.fab.bridge ++ [u.rod], resps := s.fab.resps.filter (fun (r : FResp) => decide (r.id ≠ u.rod.id)) } }

/-- An access of port A in this cycle to rod `rod`, and whether it may go on (R251). Of two requests of one cycle port B's is
the later; a request of an earlier cycle, which is retried, is never refused. `again`: this one is retried. -/
def State.portAMeet (s : State) (rod : Nat) (write again : Bool) : State × Bool :=
  let refused : State × Bool :=
    ({ s with sm := (s.sm.refuse false).mark false ⟨s.now, smRows, write, []⟩ }, false)
  if collides s.sm.lastB s.now rod write then
    match s.sm.undoB with
    | some u => (s.takeBackB u, true)
    | none => if again then (s, true) else refused
  else if !again && s.sm.retry.any (fun q => !q.portA && decide (q.at_ < s.now)
      && decide ((q.addr - 0x40000000) / 32 = rod) && (q.write != write)) then refused
  else (s, true)

/-! ### Fetch -/

/-- The rods of steward memory that `len` words from address `a` lie in. -/
def fetchParts (a len : Nat) : List Nat :=
  ([a, a + 4 * len - 4].filter (fun x => within x 0x40000000 0x400EFFFF)).map (fun x => (x - 0x40000000) / 32)

/-- Fetch of a steward from steward memory: each rod not yet held is read through port A, one in a cycle; the second part
says that all of them are held (R155, R251). -/
def State.stewFetch (s : State) (p len : Nat) : State × Bool :=
  let l := s.lane p
  match (fetchParts l.ctl.pc.toNat len).filter (fun r => !l.ctl.fetchRods.contains r) with
  | [] => (s, true)
  | r :: rest =>
    if !s.portAFree r false then (s, false)
    else
      let m := s.portAMeet r false l.ctl.fetchAgain
      if m.2 then
        let s := { m.1 with sm := m.1.sm.mark false ⟨s.now, r, false, []⟩ }
        let s := (s.smRead false r).2
        let l := s.lane p
        (s.setLane p { l with ctl := { l.ctl with fetchRods := (r :: l.ctl.fetchRods).take 2, fetchAgain := false } },
          rest.all (fun x => decide (x = r)))
      else (m.1.setLane p { l with ctl := { l.ctl with fetchAgain := true } }, false)

end Sys2Proof.Machine
end

