-- ==== Sys2Proof/Machine/LaneExec.lean ====
section
/-! DEFINITION. Transport: fetch and decode of an instruction, its checks, and one transport cycle of a lane, repetition and
delay slots included (R36–R94, R151–R156, R174, R177, R196–R204, R227, R496). -/

namespace Sys2Proof.Machine
open Sys2Proof

/-! ### Fetch and decode -/

/-- A move's source: a port, or an immediate already extended (R75–R77). -/
inductive Src
  | port (id : Nat)
  | imm (v : Word)
  deriving DecidableEq, Repr

/-- A move with the guard that governs it: guard number and the value it must have (R74, R76, R79). -/
structure Mv where
  dst : Nat
  src : Src
  guard : Option (Nat × Bool)
  deriving DecidableEq, Repr

/-- A decoded instruction (R72). `bad`: a word check of R81 fails. -/
structure Insn where
  len : Nat
  moves : List Mv
  rep : Option Word
  bad : Bool
  deriving DecidableEq, Repr

/-- What fetch finds at a word address: a word, with the address of its rod when that is uncorrectable. -/
inductive Fetched
  | word (v : Word) (bad : Option Nat)
  | bounds
  deriving DecidableEq, Repr

/-- The word at `a` for lane `p` (R91, R92, R151, R154, R155). DESIGN CHOICE (log 68): outside the words of R91 the array is
read in the cycle of transport, so a changed word executes new whenever its write has reached the array before that cycle;
R92 leaves open which of the two executes. -/
def fetchWord (s : State) (p : Nat) (l : Lane) (a : Nat) : Fetched :=
  if !(fetchable p a && decide (a % 4 = 0) && l.fcap.covers a 4) then .bounds
  else match l.ctl.fetched.find? (fun q => decide (q.1 = a)) with
  | some (_, v, e) => .word v (if e then some (a / 32 * 32) else none)
  | none =>
    let got : RowRead → Fetched := fun r => .word (leWordAt r.data (a % 32)) (if r.bad then some (a / 32 * 32) else none)
    if a < 0x14000 then got (s.rodPeek p a)
    else if 0xF0000000 ≤ a then .word (Config.bootRom ((a - 0xF0000000) / 4)) none
    else got (readRow s.sm.arr smRows ((a - 0x40000000) / 32))

def prefixKind (w : Word) : Nat := (w.extractLsb' 24 4).toNat
def isPrefix (w : Word) : Bool := !w.getLsbD 31 && decide (w.extractLsb' 28 3 = 7)

/-- A field of a prefix that must be 0 is not (R78). -/
def prefixZeroBad (w : Word) : Bool :=
  match prefixKind w with
  | 0 => decide (w.extractLsb' 12 12 ≠ 0)
  | 1 => decide (w.extractLsb' 16 6 ≠ 0) || (w.getLsbD 22 && decide (w.extractLsb' 5 11 ≠ 0))
  | _ => decide (w.extractLsb' 1 23 ≠ 0)

/-- Rank of a prefix kind in the order EXT, G3, REP (R80). -/
def prefixRank (k : Nat) : Nat := if k = 0 then 1 else if k = 2 then 2 else 3

/-- Prefixes read so far. -/
structure Pre where
  rank : Nat
  ext : Option Word
  g3 : Option Bool
  rep : Option Word
  deriving DecidableEq, Repr

/-- Source identities of R40. -/
def srcOk (d : Nat) : Bool :=
  decide (d ≤ 0x20) || decide (d = 0x30) || within d 0x40 0x41 || within d 0x48 0x49 || within d 0x50 0x54
    || within d 0x58 0x5A || within d 0x64 0x66 || within d 0x68 0x6A || within d 0x6C 0x71 || within d 0x74 0x75
    || within d 0x77 0x7B || within d 0x7E 0x7F

/-- Destination identities of R39. -/
def dstOk (d : Nat) : Bool :=
  !(within d 0x44 0x47 || decide (d = 0x63) || decide (d = 0x6B) || decide (d = 0x73) || decide (d = 0x77)
    || decide (d = 0x79)) && decide (d ≤ 0x7F)

def Mv.ok (m : Mv) : Bool := dstOk m.dst && (match m.src with | .port k => srcOk k | .imm _ => true)

/-- A short source field (R75). -/
def shortSrc (b : BitVec 8) : Src :=
  if b.getLsbD 7 then .imm ((b.extractLsb' 0 7).signExtend 32) else .port (b.toNat % 128)

/-- Two moves of a pair that R42 forbids. -/
def pairBad (a b : Nat) : Bool :=
  decide (a = b) || (match trigUnit a, trigUnit b with | some x, some y => decide (x = y) | _, _ => false)

/-- The guard of a GUARD code (R76). -/
def guardOf (c : Nat) : Option (Nat × Bool) := if c = 0 then none else some ((c - 1) / 2, decide (c % 2 = 1))

/-- Destinations a REP instruction may not write (R81). -/
def repForbidden (d : Nat) : Bool := within d 0x64 0x68 || within d 0x70 0x71 || decide (d = 0x7D)

/-- The move word, with the checks of R81 that do not look at the lane. -/
def decodeMove (q : Pre) (w : Word) (len : Nat) : Insn :=
  let g3 : Option (Nat × Bool) := q.g3.map (fun neg => (3, !neg))
  if w.getLsbD 31 then
    let g := match g3 with | some g => some g | none => if w.getLsbD 0 then some (0, true) else none
    let a : Mv := ⟨(w.extractLsb' 24 7).toNat, shortSrc (w.extractLsb' 16 8), g⟩
    let b : Mv := ⟨(w.extractLsb' 9 7).toNat, shortSrc (w.extractLsb' 1 8), g⟩
    { len := len, moves := [a, b], rep := q.rep,
      bad := !a.ok || !b.ok || pairBad a.dst b.dst || q.ext.isSome || (q.g3.isSome && w.getLsbD 0)
        || (q.rep.isSome && (repForbidden a.dst || repForbidden b.dst)) }
  else
    let c := (w.extractLsb' 28 3).toNat
    let g := match g3 with | some g => some g | none => guardOf c
    let src : Src :=
      if w.getLsbD 20 then
        match q.ext with
        | some e => .imm ((e <<< 20) ||| (w.extractLsb' 0 20).zeroExtend 32)
        | none => .imm ((w.extractLsb' 0 20).signExtend 32)
      else .port (w.toNat % 128)
    let a : Mv := ⟨(w.extractLsb' 21 7).toNat, src, g⟩
    { len := len, moves := [a], rep := q.rep,
      bad := !a.ok || (!w.getLsbD 20 && (decide (w.extractLsb' 7 13 ≠ 0) || q.ext.isSome))
        || (q.g3.isSome && decide (c ≠ 0)) || (q.rep.isSome && repForbidden a.dst) }

/-- The end of decoding: an instruction, or trap 8 on the first uncorrectable rod that one of its words lies in (R151,
R177). -/
def decoded (bad : Option Nat) (i : Insn) : (TrapSpec × Nat) ⊕ Insn :=
  match bad with
  | some r => .inl (⟨8, 0, 0, BitVec.ofNat 32 r⟩, i.len)
  | none => .inr i

/-- Decode from word address `a`: an instruction, or the trap of a fetch that failed and the words it took (R73, R177,
R496). A word of an uncorrectable rod decodes as it was delivered, so that the bounds of every word are checked first. At
most `n` words are read. -/
def decodeAt (s : State) (p : Nat) (l : Lane) (q : Pre) (bad : Option Nat) (len : Nat) : Nat → Nat → (TrapSpec × Nat) ⊕ Insn
  | 0, _ => decoded bad { len := len, moves := [], rep := none, bad := true }
  | n + 1, a =>
    match fetchWord s p l a with
    | .bounds => .inl (⟨13, 0, 0, BitVec.ofNat 32 a⟩, len + 1)
    | .word w e =>
      let bad := match bad with | some r => some r | none => e
      if isPrefix w then
        let k := prefixKind w
        if 2 < k ∨ prefixZeroBad w ∨ prefixRank k ≤ q.rank then
          decoded bad { len := len + 1, moves := [], rep := none, bad := true }
        else
          let q := { q with rank := prefixRank k }
          let q := if k = 0 then { q with ext := some (w &&& 0xFFF) }
            else if k = 2 then { q with g3 := some (w.getLsbD 0) } else { q with rep := some w }
          decodeAt s p l q bad (len + 1) n (a + 4)
      else decoded bad (decodeMove q w (len + 1))

/-- The instruction at the fetch address, with the fetch checks of R177. -/
def fetchInsn (s : State) (p : Nat) (l : Lane) : (TrapSpec × Nat) ⊕ Insn :=
  if !l.fcap.tag then .inl (⟨2, 8, 1, 0⟩, 1)
  else if !l.fcap.perm permEX then .inl (⟨4, 8, 1, 0⟩, 1)
  else decodeAt s p l ⟨0, none, none, none⟩ none 0 4 l.ctl.pc.toNat

/-- Issue cost of `n` words at `a` (R89). -/
def issueCost (a n : Nat) (first : Bool) : Nat :=
  (a + 4 * n - 1) / 8 - a / 8 + 1 + (if first && decide (a % 8 ≠ 0) then 1 else 0)

/-- The earliest transport cycle of an instruction of `n` words (R196, R202–R204). -/
def Lane.earliest (l : Lane) (n : Nat) : Nat :=
  if l.ctl.exact then max l.ctl.ready l.ctl.stallUntil
  else max (l.ctl.ready + issueCost l.ctl.pc.toNat n l.ctl.restart) l.ctl.stallUntil

/-! ### Sources, guards and checks -/

/-- The value of a source port at the start of the current cycle (R40, R44–R46). -/
def srcPort (s : State) (p : Nat) (l : Lane) (k : Nat) : Word :=
  if k < 32 then getW l.w k
  else if 0x50 ≤ k ∧ k ≤ 0x53 then (macView l.u.macmode (l.u.visAt (k - 0x50))).1
  else if 0x6C ≤ k ∧ k ≤ 0x6F then b2w (l.g.getLsbD (k - 0x6C))
  else match k with
    | 0x20 => l.u.alu0r
    | 0x30 => l.u.alu1r
    | 0x40 => l.u.mulLo
    | 0x41 => l.u.mulHi
    | 0x48 => l.u.fr
    | 0x49 => l.u.fflags.zeroExtend 32
    | 0x54 => macSt l.u
    | 0x58 => l.u.lr
    | 0x59 => l.u.ua
    | 0x5A => l.u.scs
    | 0x64 => BitVec.ofNat 32 l.ctl.rc
    | 0x65 => l.ctl.pc
    | 0x66 => BitVec.ofNat 32 l.ctl.depth
    | 0x68 => BitVec.ofNat 32 s.cyc
    | 0x69 => s.heatW
    | 0x6A => l.spl.sig
    | 0x70 => l.trap.cause
    | 0x71 => l.trap.addr
    | 0x74 => l.u.capr
    | 0x75 => l.u.capst.zeroExtend 32
    | 0x77 => sysRead p l l.u.syssel.toNat
    | 0x78 => rxHead l
    | 0x79 => qstat l.rly
    | 0x7A => mbxRd s p
    | 0x7B => mbxSt s p
    | 0x7F => 0xFFFFFFFF
    | _ => 0

def Src.val (s : State) (p : Nat) (l : Lane) : Src → Word
  | .port k => srcPort s p l k
  | .imm v => v

def Mv.holds (m : Mv) (g : BitVec 4) : Bool := match m.guard with | none => true | some (k, b) => g.getLsbD k == b

def Mv.reads (m : Mv) (k : Nat) : Bool := match m.src with | .port j => decide (j = k) | .imm _ => false

def permTrap : TrapSpec := ⟨4, 8, 4, 0⟩
def needsSys (i : BitVec 12) : Bool := within i.toNat 0x40 0xFF

/-- Port permissions of a move (R66, R174). `l0` is the lane before the cycle, `l` after the local writes of step 2. -/
def portCheck (l0 l : Lane) (m : Mv) : Option TrapSpec :=
  let f := l.fcap
  if ((decide (m.dst = 0x78) || m.reads 0x78) && !f.perm permRLY)
      || ((within m.dst 0x7B 0x7D || m.reads 0x7A) && !f.perm permMBX)
      || (((decide (m.dst = 0x7F) && needsSys l.u.syssel) || (m.reads 0x77 && needsSys l0.u.syssel)) && !f.perm permSYS)
  then some permTrap else none

/-- A transfer target that R153 refuses. -/
def targetBad (p : Nat) (l : Lane) (a : Word) : Bool :=
  !(fetchable p a.toNat && decide (a.toNat % 4 = 0) && l.fcap.covers a.toNat 4)

/-- The entry that a return pops (R57, R58). -/
def Lane.popped (l : Lane) : Word := getW l.ctl.rstk l.ctl.top.toNat

/-- The checks of jump, call and return, in the order of R177 (R58, R153). -/
def transferCheck (p : Nat) (l : Lane) (kind : Nat) (v : Word) : Option TrapSpec :=
  if kind = 2 then
    if l.ctl.depth = 0 ∧ l.cfg.getLsbD 1 then some ⟨7, 0, 0, 0⟩
    else if targetBad p l l.popped then some ⟨13, 0, 0, l.popped⟩ else none
  else if targetBad p l v then some ⟨13, 0, 0, v⟩
  else if kind = 1 ∧ 16 ≤ l.ctl.depth ∧ l.cfg.getLsbD 0 then some ⟨6, 0, 0, 0⟩ else none

/-- The unit checks of a move of `v` to `d`, on the lane after the local writes of step 2. -/
def unitCheck (p : Nat) (l : Lane) (d : Nat) (v : Word) : Option TrapSpec :=
  if computeIllegal l.u d then some trap1
  else if 0x5C ≤ d ∧ d ≤ 0x62 then lsuCheck l (d - 0x5C) v
  else if 0x64 ≤ d ∧ d ≤ 0x66 then transferCheck p l (d - 0x64) v
  else if d = 0x70 then some (if within v.toNat 64 255 then ⟨v.toNat, 0, 0, 0⟩ else trap1)
  else if d = 0x71 then retCheck l
  else if d = 0x76 then capCheck l v
  else if d = 0x7E ∧ v.extractLsb' 12 20 ≠ 0 then some trap1
  else none

/-- The first failing check of the moves in order (R177). -/
def moveChecks (p : Nat) (l0 l : Lane) : List (Mv × Word) → Option TrapSpec
  | [] => none
  | (m, v) :: r =>
    match portCheck l0 l m with
    | some t => some t
    | none =>
      match unitCheck p l m.dst v with
      | some t => some t
      | none => moveChecks p l0 l r

/-! ### Firing triggers -/

/-- A jump, call or return is taken (R53). DESIGN CHOICE (log 69): a return takes its target from the return stack at its
transport; the stack moves from the top and depth that stand when the transfer commits (R57). -/
def Lane.take (l : Lane) (now kind : Nat) (v : Word) : Lane :=
  { l with ctl := { l.ctl with
      xfer := some { kind := kind, target := if kind = 2 then l.popped else v, addr := l.ctl.pc, t := now } } }

/-- The lane enters a wait; while the other move of its word stalls or waits, the wait begins when that has ended. -/
def Lane.enterWait (l : Lane) (m : Mode) : Lane :=
  if l.mode == .remote || l.mode == .mbxWait then { l with ctl := { l.ctl with after := some m } } else { l with mode := m }

/-- `mbx.wait` (R387): the channel's receiver waits unless a message stands there. -/
def mbxWaitOp (s : State) (p : Nat) : State :=
  let l := s.lane p
  let c := chanNo l
  if !s.isReceiver p c then s.setNochan p true
  else
    let s := s.setNochan p false
    if (s.chan c).rFull then s
    else s.setLane p ((s.lane p).enterWait .mbxWait)

/-- `ctl.sync` (R93, R203). -/
def Lane.sync (l : Lane) (now : Nat) : Lane :=
  let sd := sbLeft l.lsu.sb
  let l := l.forceDrain (fun _ => true) (now + 1 + sd)
  { l with ctl := { l.ctl with
      ready := now + sd + 3, restart := true, stallUntil := max l.ctl.stallUntil (now + sd + 1), fetched := [], fetchRods := [] } }

/-- `spl.wait` (R156, R203). -/
def Lane.splWait (l : Lane) (now : Nat) : Lane :=
  let sd := sbLeft l.lsu.sb
  let l := l.forceDrain (fun _ => true) (now + 1 + sd)
  { l with ctl := { l.ctl with stallUntil := max l.ctl.stallUntil (now + sd + 1) } }.enterWait .wait

/-- Step 3 of R44 for one trigger of a local move, but for those that act after the other move: `ctl.sync`, `spl.wait`,
`mbx.wait` and `trap.ret`. -/
def State.fire (s : State) (p d : Nat) (v : Word) : State :=
  let l := s.lane p
  let now := s.now
  if 0x5C ≤ d ∧ d ≤ 0x62 then lsuFire s p (d - 0x5C) v
  else if 0x64 ≤ d ∧ d ≤ 0x66 then s.setLane p (l.take now (d - 0x64) v)
  else match d with
    | 0x6A => s.setLane p (l.setTimer now v)
    | 0x76 => s.setLane p (l.fireCap now v)
    | 0x78 => rlySendOp s p v
    | 0x7B => mbxWrOp s p v
    | 0x7C => mbxGoOp s p v
    | 0x7F => s.setLane p (l.sysLater now l.u.syssel.toNat v)
    | 0x67 => s
    | 0x68 => s
    | 0x71 => s
    | 0x7D => s
    | _ => s.setLane p (l.fireCompute now d v)

/-- The triggers that end or restart transport, after the other move of the word. -/
def State.fireLate (s : State) (p d : Nat) : State :=
  match d with
  | 0x67 => let s := s.presentDrain p; s.setLane p ((s.lane p).sync s.now)
  | 0x68 => let s := s.presentDrain p; s.setLane p ((s.lane p).splWait s.now)
  | 0x7D => mbxWaitOp s p
  | 0x71 => s.trapReturn p
  | _ => s

/-! ### One transport -/

/-- An instruction raises a trap on transport, in the current cycle; a pending trap 8 of a load takes its place (R56,
R149, R185, R205). `next` is the following instruction, for `trap.t`. -/
def State.instrTrap (s : State) (p : Nat) (t : TrapSpec) (next : Word) : State :=
  let l := s.lane p
  let r := l.retPoint
  match l.trap.load8 with
  | some (a, _) => s.setLane p (l.raiseTrap ⟨8, 0, 0, a⟩ r.1 r.2 (s.now + 1))
  | none =>
    if 64 ≤ t.n then s.setLane p (l.raiseTrap t next none (s.now + 1))
    else s.setLane p (l.raiseTrap t r.1 r.2 (s.now + 1))

/-- The remote move that arrived in this cycle and is accepted (R222, R225). -/
def Lane.arriving (l0 l : Lane) (now : Nat) : Option RMove :=
  l0.rly.moves.find? (fun m => decide (m.at_ = now) && decide (m.port ≠ 128) && remoteDst m.port && !computeIllegal l.u m.port)

/-- A local move to `d` is lost to the remote move (R227). -/
def clashes (m : Option RMove) (d : Nat) : Bool :=
  match m with
  | none => false
  | some m => decide (m.port = d) ||
      (match trigUnit m.port, trigUnit d with | some x, some y => decide (x = y) | _, _ => false)

/-- A store trigger (R91). -/
def isStoreTrig (d : Nat) : Bool := decide (d = 0x5D) || decide (d = 0x5F) || decide (d = 0x61)

/-- The two words from `a` on as already fetched (R91). -/
def prefetch (s : State) (p : Nat) (l : Lane) (a : Nat) : List (Nat × Word × Bool) :=
  [a, a + 4].filterMap (fun b => match fetchWord s p l b with | .word v e => some (b, v, e.isSome) | _ => none)

/-- The remote moves that arrive in this cycle act (R222). -/
def Lane.remoteNow (l : Lane) (now : Nat) : Lane :=
  let now? : RMove → Bool := fun m => decide (m.at_ = now) && decide (m.port ≠ 128)
  (l.rly.moves.filter now?).foldl (fun l m => l.remoteMove now m.port m.v)
    { l with rly := { l.rly with moves := l.rly.moves.filter (fun m => !now? m) } }

/-- The moves of the word act (R44, R227): reads with effects, step 2, the remote move of the cycle, step 3. `next` is the
address after the instruction. -/
def State.actMoves (s : State) (p : Nat) (vals : List (Mv × Word)) (l2 : Lane) (next : Word) : State :=
  let now := s.now
  let l0 := s.lane p
  let rm := l0.arriving l2 now
  let live := vals.filter (fun q => !clashes rm q.1.dst)
  let pre := if live.any (fun q => isStoreTrig q.1.dst) then some (prefetch s p l0 next.toNat) else none
  let s := if live.any (fun q => q.1.reads 0x7A) then mbxRdEffect s p else s
  let l := s.lane p
  let l := if live.any (fun q => q.1.reads 0x78) then l.rxPop else l
  let l := { l with
    rly := { l.rly with clash := satAdd l.rly.clash (vals.length - live.length) },
    ctl := { l.ctl with ready := now, stallUntil := now + 1, restart := false, exact := false } }
  let l := live.foldl (fun l q => l.writePort q.1.dst q.2) l
  let s := live.foldl (fun s q => s.fire p q.1.dst q.2) (s.setLane p (l.remoteNow now))
  match pre with
  | some f => let l := s.lane p; s.setLane p { l with ctl := { l.ctl with fetched := f } }
  | none => s

/-- Words already fetched: those of the instruction at `pc`, up to `next`, have been used; a transfer to `target` keeps them
only when it goes to one of them (R91). -/
def keepFetched (f : List (Nat × Word × Bool)) (pc next : Nat) (target : Option Word) : List (Nat × Word × Bool) :=
  match target with
  | some t => if f.any (fun q => decide (q.1 = t.toNat)) then f.filter (fun q => !decide (pc ≤ q.1) || decide (next ≤ q.1)) else []
  | none => f.filter (fun q => !decide (pc ≤ q.1) || decide (next ≤ q.1))

/-- The instruction is complete: the fetch address, the transfer whose delay slot it was, the boundary after it (R53–R60,
R202). `slot` is that transfer. -/
def State.complete (s : State) (p : Nat) (slot : Option Xfer) (next : Word) : State :=
  let l := s.lane p
  let e := l.ctl.stallUntil
  let f := keepFetched l.ctl.fetched l.ctl.pc.toNat next.toNat (slot.map (fun x => x.target))
  match slot with
  | some x =>
    let c := l.ctl
    let c := if x.kind = 1 then
        { c with rstk := putW c.rstk ((c.top + 1).toNat) next, top := c.top + 1, depth := min (c.depth + 1) 16 }
      else if x.kind = 2 then { c with top := c.top - 1, depth := c.depth - 1 } else c
    s.setLane p { l with ctl := { c with
      pc := x.target, xfer := none, ready := if c.restart then max c.ready (x.t + 3) else x.t + 3, restart := true,
      fetched := f, fetchRods := [], bnd := some e } }
  | none =>
    let bnd := if l.ctl.xfer.isSome then none else some e
    s.setLane p { l with ctl := { l.ctl with pc := next, fetched := f, bnd := bnd } }

/-- What the transport of a word comes to in the current cycle. -/
inductive Plan
  | interlock                                    -- R47
  | hold (partly : Bool) (which : List (Nat × Nat))  -- R142, R143
  | trap (t : TrapSpec)
  | go (vals : List (Mv × Word)) (l2 : Lane)     -- the moves whose guard holds, and the lane after their step 2
  deriving DecidableEq, Repr

/-- The word reads `lsu.r` one cycle after a load trigger (R47). -/
def Lane.interlocked (l : Lane) (now : Nat) (mv : List Mv) : Bool :=
  mv.any (fun m => m.reads 0x58) && decide (l.ctl.lsuMark = now) && decide (0 < now)

/-- Sources, guards, checks and holds of the word's moves (R44, R47, R177, R199). -/
def State.plan (s : State) (p : Nat) (mv : List Mv) : Plan :=
  let l := s.lane p
  if l.interlocked s.now mv then .interlock
  else
    let vals := (mv.filter (fun m => m.holds l.g)).map (fun m => (m, m.src.val s p l))
    let l2 := vals.foldl (fun l q => l.writePort q.1.dst q.2) l
    match moveChecks p l l2 vals with
    | some t => .trap t
    | none =>
      match vals.findSome? (fun q => if 0x5C ≤ q.1.dst ∧ q.1.dst ≤ 0x61 then lsuHold l2 (q.1.dst - 0x5C) q.2 else none) with
      | some h => .hold h.1 h.2
      | none => .go vals l2

/-- The triggers of a word that act after its other moves, in the order in which they act; `vals` are the moves that were not
lost (R227). DESIGN CHOICE (log 70): of `mbx.wait` and `spl.wait` in one word, the message is awaited first. -/
def lateDsts (vals : List (Mv × Word)) : List Nat :=
  [0x67, 0x7D, 0x68, 0x71].filter (fun d => vals.any (fun q => decide (q.1.dst = d)))

/-- A word that passed its checks is transported: its moves act and the instruction completes. DESIGN CHOICE (log 71): a
transfer in one word with `trap.ret` is dropped; fetch continues at the POS that the frame restores (R53, R187). -/
def State.act (s : State) (p : Nat) (vals : List (Mv × Word)) (l2 : Lane) (next : Word) : State :=
  let l := s.lane p
  let slot := l.ctl.xfer
  let late := lateDsts (vals.filter (fun q => !clashes (l.arriving l2 s.now) q.1.dst))
  let s := (s.setLane p { l with ctl := { l.ctl with xfer := none } }).actMoves p vals l2 next
  let s := late.foldl (fun s d => s.fireLate p d) s
  if late.contains 0x71 then s
  else
    let s := s.complete p slot next
    let l := s.lane p
    if l.mode == .wait || l.mode == .mbxWait || l.ctl.after.isSome then s.setLane p { l with ctl := { l.ctl with bnd := none } }
    else s

/-- One iteration of repetition `r`, planned (R83–R87). -/
def State.iterate (s : State) (p : Nat) (r : Rep) : Plan → State
  | .interlock => s
  | .hold o k => s.setLane p ((s.lane p).beginHold s.now (o, k))
  | .trap t => s.instrTrap p t r.next
  | .go vals l2 =>
    let s := s.act p vals l2 r.next
    let l := s.lane p
    let n := l.ctl.rc - 1
    s.setLane p { l with ctl :=
      if n = 0 then { l.ctl with rc := 0, rep := none }
      else { l.ctl with rc := n, pc := r.addr, bnd := if r.int then l.ctl.bnd else none } }

/-- Trap 8 of a load is taken in place of the instruction that would be transported now (R149). -/
def State.inPlace8 (s : State) (p : Nat) : Option State :=
  let l := s.lane p
  match l.trap.load8 with
  | some (a, f) =>
    if f ≤ s.now then
      let r := l.retPoint
      some (s.setLane p ((l.raiseTrap ⟨8, 0, 0, a⟩ r.1 r.2 s.now).armTrap s.now s.heatW s.cyc))
    else none
  | none => none

/-! ### The transport cycle -/

/-- The move word of the running repetition with its prefixes as fetched. -/
def Rep.moves (r : Rep) : List Mv := (decodeMove ⟨0, r.ext, r.g3, none⟩ r.word 1).moves

/-- The count of a REP instruction (R78, R82). -/
def repCount (l : Lane) (w : Word) : Nat := if w.getLsbD 22 then (getW l.w (w.toNat % 32)).toNat else w.toNat % 65536

/-- The words of the instruction at the fetch address that a repetition keeps: move word, EXT and G3. -/
def repWords (s : State) (p : Nat) (l : Lane) (n : Nat) : List Word :=
  (List.range n).map (fun k => match fetchWord s p l (l.ctl.pc.toNat + 4 * k) with | .word v _ => v | _ => 0)

def mkRep (ws : List Word) (addr next rep : Word) : Rep :=
  let ext := (ws.find? (fun w => isPrefix w && decide (prefixKind w = 0))).map (fun w => w &&& 0xFFF)
  let g3 := (ws.find? (fun w => isPrefix w && decide (prefixKind w = 2))).map (fun w => w.getLsbD 0)
  { addr := addr, word := ws.getLastD 0, ext := ext, g3 := g3, int := rep.getLsbD 23, next := next }

/-- Mark that fetch used the instruction store in the current cycle, and report corrected words met by fetch (R140, R151,
R243). -/
def State.fetchUse (s : State) (p len : Nat) : State :=
  let l := s.lane p
  let a := l.ctl.pc.toNat
  if within a 0x10000 0x13FFF then
    let s := s.setLane p { l with ctl := { l.ctl with lastT := s.now + 1 } }
    let r := s.rodRead p a 1
    if a / 32 ≠ (a + 4 * len - 4) / 32 && within (a + 4 * len - 4) 0x10000 0x13FFF then (r.2.rodRead p (a + 4 * len - 4) 1).2
    else r.2
  else s

/-- The word checks of R81 on the instruction at the fetch address of `l`, R54 included. -/
def wordBad (l : Lane) (i : Insn) : Bool :=
  i.bad || (l.ctl.xfer.isSome
    && (i.rep.isSome || i.moves.any (fun m => within m.dst 0x64 0x66 || within m.dst 0x70 0x71)))

/-- The count rules of R81, which a resumed repetition does not apply (R88). -/
def countBad (l : Lane) (w : Word) : Bool := l.ctl.resumeRc.isNone && !within (repCount l w) 1 65535

/-- A REP instruction with `count` iterations left starts or resumes (R82, R83, R88). -/
def State.startRep (s : State) (p : Nat) (i : Insn) (w : Word) (count : Nat) : State :=
  let l := s.lane p
  let r := mkRep (repWords s p l i.len) l.ctl.pc (l.ctl.pc + BitVec.ofNat 32 (4 * i.len)) w
  let s1 := s.setLane p { l with ctl := { l.ctl with rep := some r, rc := count, resumeRc := none } }
  match s1.plan p i.moves with
  | .interlock => s
  | .hold o k => s.setLane p (l.beginHold s.now (o, k))
  | q => (s1.fetchUse p i.len).iterate p r q

/-- An instruction without REP (R44). DESIGN CHOICE (log 72): a count restored by `trap.ret` for an address that no longer
holds a REP instruction is dropped (R88). -/
def State.single (s : State) (p : Nat) (i : Insn) : State :=
  let l := s.lane p
  let next := l.ctl.pc + BitVec.ofNat 32 (4 * i.len)
  match s.plan p i.moves with
  | .interlock => s
  | .hold o k => s.setLane p (l.beginHold s.now (o, k))
  | .trap t => ((s.setLane p { l with ctl := { l.ctl with resumeRc := none } }).fetchUse p i.len).instrTrap p t next
  | .go vals l2 => ((s.setLane p { l with ctl := { l.ctl with resumeRc := none } }).fetchUse p i.len).act p vals l2 next

/-- An instruction is due: it is transported, held, or raises its trap. DEDUCED (log 73): an instruction that fails a word check
is held by R47 before it raises trap 1, since R199 exempts it from the holds of R142 and R143 alone. `n` bounds resumed
repetitions of count 0. -/
def State.issue (s : State) (p : Nat) : Nat → State
  | 0 => s
  | n + 1 =>
    let l := s.lane p
    match fetchInsn s p l with
    | .inl (t, len) =>
      if s.now < l.earliest len then s
      else match s.inPlace8 p with
      | some s => s
      | none =>
        match s.stewFetch p len with
        | (s, false) => s
        | (s, true) => (s.fetchUse p len).instrTrap p t 0
    | .inr i =>
      let next := l.ctl.pc + BitVec.ofNat 32 (4 * i.len)
      if s.now < l.earliest i.len then s
      else match s.inPlace8 p with
      | some s => s
      | none =>
      match s.stewFetch p i.len with
      | (s, false) => s
      | (s, true) =>
        let l := s.lane p
        if l.interlocked s.now i.moves then s
        else if wordBad l i then (s.fetchUse p i.len).instrTrap p trap1 next
        else match i.rep with
        | none => s.single p i
        | some w =>
          if countBad l w then (s.fetchUse p i.len).instrTrap p trap1 next
          else
            let count := l.ctl.resumeRc.getD (repCount l w)
            if count = 0 then
              (s.setLane p { l with ctl :=
                { l.ctl with pc := next, resumeRc := none, exact := true, restart := false, ready := s.now } }).issue p n
            else s.startRep p i w count

/-- TRANSPORT_CYCLE: one cycle of lane `p` (R44): a boundary whose cycle has come has been passed (R60), and the instruction
that is due is transported. While a repetition runs, REP_ITERATION transports. -/
def transportCycle (s : State) (p : Nat) : State :=
  let s := s.settle p
  if !(s.lane p).transporting || (s.lane p).ctl.rep.isSome then s else s.issue p 2

/-- REP_ITERATION: an iteration after the first (R83). -/
def repIteration (s : State) (p : Nat) : State :=
  let s := s.settle p
  let l := s.lane p
  if !l.transporting then s
  else
    match l.ctl.rep with
    | none => s
    | some r =>
      if s.now < max (l.ctl.ready + 1) l.ctl.stallUntil then s
      else match s.inPlace8 p with
      | some s => s
      | none => s.iterate p r (s.plan p r.moves)

end Sys2Proof.Machine
end

