-- ==== Sys2Proof/Machine/MemUnit.lean ====
section
/-! DEFINITION. Scrub and spare rows of a rod-coded array, the lane's scrub visit and MEM_CMD, and the sharing ports
(R244–R250, R252). -/

namespace Sys2Proof.Machine
open Sys2Proof

/-! ### Spare rows -/

def RodArr.spare (a : RodArr) (k : Nat) : Remap := tget remapDflt a.remap k
def RodArr.setSpare (a : RodArr) (k : Nat) (e : Remap) : RodArr := { a with remap := tput remapDflt a.remap k e }

/-- The lowest spare row that is neither in use nor bad (R245, R246). -/
def RodArr.freeSpare (a : RodArr) (spares : Nat) : Option Nat :=
  (List.range spares).find? (fun k => !(a.spare k).v && !(a.spare k).bad)

/-- Spare rows that count as used. -/
def RodArr.used (a : RodArr) (spares : Nat) : Nat :=
  ((List.range spares).filter (fun k => (a.spare k).v || (a.spare k).bad)).length

/-- The spare row that holds a logical row. -/
def RodArr.spareOf (a : RodArr) (spares row : Nat) : Option Nat :=
  (List.range spares).find? (fun k => (a.spare k).v && decide ((a.spare k).row = row))

/-- Copy physical row `i` to physical row `j` with its tags: corrected when it can be, else as stored. -/
def RodArr.copyRow (a : RodArr) (i j : Nat) : RodArr :=
  let r := readPhys a i
  writePhys a j (if r.bad then mread a.cells (36 * i) 36 else rodEncode r.data) r.tags

/-- Logical row `row` goes to the lowest unused spare row; the second part says that none was left (R245, R246). -/
def RodArr.remapRow (a : RodArr) (rows spares row : Nat) : RodArr × Bool :=
  match a.freeSpare spares with
  | none => (a, true)
  | some k =>
    let a' := a.copyRow (physRow a rows row) (rows + k)
    let a' := match a.spareOf spares row with | some o => a'.setSpare o { a'.spare o with v := false } | none => a'
    (a'.setSpare k ⟨true, false, row⟩, false)

/-! ### Scrub -/

/-- What a scrub visit comes to (R244): the array, what the first read found and what the second found, if it was made, and
whether no spare row was left. -/
structure ScrubOut where
  arr : RodArr
  read : RowRead
  again : Option RowRead
  full : Bool
  deriving DecidableEq, Repr

/-- One scrub visit of physical row `r` (R244–R246). `hard`: a cell of the row keeps its error through the rewrite, so that the
second read finds it again. -/
def scrubRow (a : RodArr) (rows spares r : Nat) (hard auto : Bool) : ScrubOut :=
  let x := readPhys a r
  if x.bad || !(x.fixed || x.tagCe) then ⟨a, x, none, false⟩
  else
    let held := x.fixed && hard
    let a := writePhys a r (if held then mread a.cells (36 * r) 36 else rodEncode x.data) x.tags
    let y := some (readPhys a r)
    if !held then ⟨a, x, y, false⟩
    else if r < rows then
      if !auto || (a.spareOf spares r).isSome then ⟨a, x, y, false⟩
      else let q := a.remapRow rows spares r; ⟨q.1, x, y, q.2⟩
    else
      let k := r - rows
      let e := a.spare k
      if e.v then
        if auto then
          let q := a.remapRow rows spares e.row
          if q.2 then ⟨q.1, x, y, true⟩ else ⟨q.1.setSpare k ⟨false, true, 0⟩, x, y, false⟩
        else ⟨a, x, y, false⟩
      else ⟨a.setSpare k ⟨false, true, 0⟩, x, y, false⟩

/-- Cycles of the array that a visit uses (R244): the read; the rewrite and the second read; the remap write of a hard
error. -/
def ScrubOut.cycles (o : ScrubOut) : Nat := match o.again with | none => 1 | some y => if y.fixed then 4 else 3

/-- The logical row recorded for physical row `r`. -/
def RodArr.logical (a : RodArr) (rows r : Nat) : Nat := if r < rows then r else (a.spare (r - rows)).row

/-- Scrub of array `k` of a lane at physical row `r`, with its error reporting (R243, R244); the second part is the event
that follows. -/
def LaneMem.scrub (m : LaneMem) (now k r : Nat) (hard : Bool) : LaneMem × Bool × Bool :=
  let a := m.arr k
  let o := scrubRow a (arrRows k) 24 r hard m.remapAuto
  let at_ := addrOfRow k (a.logical (arrRows k) r)
  let m := (m.setArr k o.arr).note k 4 at_ o.read
  let m := (match o.again with | some y => m.note k 4 at_ y | none => m).useShare k now o.cycles
  ({ m with exhaust := m.exhaust || o.full }, o.read.bad, o.full)

/-- MEM_UE and MEM_SPARE_EXHAUSTED of a lane; the latter scratches it at the next gun (R243, R245, R401). -/
def memEvents (s : State) (p : Nat) (ue full : Bool) : State :=
  let s := if ue then s.raise 0x0401 (srcW 1 p) 0 else s
  if full then (s.raise 0x0402 (srcW 1 p) 0).faultCause p .scratch 4 (s.pacer.heatNum.toNat + 1) else s

/-- The remap that MEM_CMD asked for takes the place of the scrub visit, in its four cycles; what its read of the row finds is
reported (R243, R245). The last two parts say that the rod was uncorrectable, and that no spare row was left. -/
def LaneMem.doCmd (m : LaneMem) (now k row : Nat) : LaneMem × Bool × Bool :=
  let r := readRow (m.arr k) (arrRows k) row
  let q := (m.arr k).remapRow (arrRows k) 24 row
  let m := ((m.setArr k q.1).note k 4 (addrOfRow k row) r).useShare k now 4
  ({ m with cmd := none, exhaust := m.exhaust || q.2 }, r.bad, q.2)

/-- The lane is receiving a repair copy (R244, R404). -/
def State.copying (s : State) (p : Nat) : Bool := s.pair.copies.any (fun c => decide (c.lane = p))

/-- Neither the lane nor a sharer uses array `k` in this cycle: a home bank by R209, the instruction store by fetch and the
LSU (R237, R248). -/
def State.arrFree (s : State) (p k : Nat) : Bool :=
  let l := s.lane p
  let m := s.lmem p
  m.idle k s.now && m.unshared k s.now && decide (l.forcedUse s.now ≠ some k)
    && (decide (k ≠ 2) || (decide (l.ctl.lastT ≠ s.now + 1) && !(l.mode == .run && l.ctl.exact && decide (s.now < l.ctl.ready))))

/-- A sharer uses the arrays of lane `p` for one cycle for each of the rods at `as`, from this cycle on (R237, R248). -/
def State.useRods (s : State) (p : Nat) (as : List Nat) : State :=
  let n : Nat → Nat := fun k => (as.filter (fun a => decide (arrOf a = k))).length
  let m := s.lmem p
  s.setLmem p (((m.useShare 0 s.now (n 0)).useShare 1 s.now (n 1)).useShare 2 s.now (n 2))

/-- A scrub visit or a MEM_CMD takes place on lane `p` in this cycle: cycle 0 of a cool-down, once a heat, not when the lane's
cool-down work is skipped (R157, R244, R245). DESIGN CHOICE (log 74): what the visit does in cycles 0 to 3 is done in cycle 0,
and the arrays stay in use until it would have ended. -/
def State.scrubOpen (s : State) (p : Nat) : Bool :=
  let m := s.lmem p
  let h := s.pacer.heatNum.toNat + 1
  s.cooling && decide (s.coolCyc = 0) && decide (m.visited ≠ h) && decide ((s.lane p).spl.lateAt ≠ h)
    && (m.cmd.isSome || (m.scrubEn && !s.copying p)) && s.arrFree p 0 && s.arrFree p 1 && s.arrFree p 2

/-- SCRUB_VISIT: the scrub engine of lane `p` visits the next row of each array, or performs a MEM_CMD (R244, R245). -/
def scrubVisit (s : State) (p : Nat) (hard0 hard1 hardIs : Bool) : State :=
  if !s.scrubOpen p then s
  else
    let m := { s.lmem p with visited := s.pacer.heatNum.toNat + 1 }
    match m.cmd with
    | some (k, row) =>
      let q := m.doCmd s.now k row
      memEvents (s.setLmem p q.1) p q.2.1 q.2.2
    | none =>
      let r0 := m.scrub s.now 0 m.row hard0
      let r1 := r0.1.scrub s.now 1 m.row hard1
      let r2 := r1.1.scrub s.now 2 m.rowIs hardIs
      let m := r2.1
      let m := { m with
        row := (m.row + 1) % 1048, rowIs := (m.rowIs + 1) % 536,
        sweeps := if m.row = 1047 then m.sweeps + 1 else m.sweeps }
      memEvents (memEvents (memEvents (s.setLmem p m) p r0.2.1 r0.2.2) p r1.2.1 r1.2.2) p r2.2.1 r2.2.2

/-- A write of MEM_CMD by master `m` (R245, R258). -/
def memCmd (s : State) (m : BitVec 11) (p : Nat) (v : Word) : State :=
  let k := (v.extractLsb' 29 2).toNat
  let row := (v.extractLsb' 0 10).toNat
  if !isStwMaster m then s.answer 0 0
  else if v.getLsbD 31 && decide (k < 3) && decide (row < arrRows k) && decide (p < 1088) then
    (s.setLmem p { s.lmem p with cmd := some (k, row) }).answer 0 0
  else s.answer 0 0

/-! ### Sharing ports -/

/-- Rod index to lane address: home rods 0–2,047, or instruction-store rods. -/
def rodAddr (k rod : Nat) : Nat := if k = 2 then 0x10000 + 32 * rod else 32 * rod

/-- A granted fabric rod is answered (R292); the answer to a master that was reset is dropped (R299). -/
def State.fabAnswer (s : State) (id : Nat) (code : BitVec 2) (d : List Byte) : State :=
  match s.fab.bridge.find? (fun r => decide (r.id = id)) with
  | none => s
  | some r =>
    let s := { s with fab := { s.fab with bridge := s.fab.bridge.filter (fun (x : FRod) => decide (x.id ≠ id)) } }
    if r.drop then s
    else { s with fab := { s.fab with
      resps := s.fab.resps ++ [{ id := r.id, master := r.master, target := r.target, addr := r.addr, write := r.write, code := code, data := d }] } }

/-- A read rod answers the bytes that its transaction asked for; an uncorrectable one is poisoned (R243, R292). -/
def State.fabRod (s : State) (id : Nat) (r : RowRead) : State :=
  match s.fab.bridge.find? (fun r => decide (r.id = id)) with
  | none => s
  | some q =>
    if r.bad then s.fabAnswer id 3 (List.replicate q.len 0) else s.fabAnswer id 0 ((r.data.drop (q.addr % 32)).take q.len)

/-- A hop CRC has failed (R294). -/
def State.hopFail (s : State) : State := { s with fab := { s.fab with hopcrc := true, hopCnt := sat1 s.fab.hopCnt } }

/-- A sharer's write of rod `a` in the cycle of a `lsu.sc` to it: the write clears the reservation first, so the store of the
`lsu.sc` is taken back and it fails (R147). -/
def Lane.scLost (l : Lane) (now a : Nat) : Lane :=
  match l.lsu.scUndo with
  | some (t, r, sb) =>
    if t = now ∧ r = a then
      { l with
        lsu := { l.lsu with
          scUndo := none
          sb := l.lsu.sb.filterMap (fun e =>
            (sb.find? (fun o => decide (o.rod = e.rod) && decide (o.alloc = e.alloc))).map (fun o => { o with begun := e.begun })) }
        flight := l.flight.map (fun f => if f.due = now + 2 ∧ f.res = .scs 1 then { f with res := .scs 0 } else f) }
    else l
  | none => l

/-- A sharer's write reaches its array (R146, R147, R178, R242, R247). -/
def State.shareWrite (s : State) (p a : Nat) (rod : Rod) (mask : BitVec 32) (poison : Bool) : State :=
  let l := (s.lane p).scLost s.now a
  let s := s.setLane p (if l.lsu.rsv = some a then { l with lsu := { l.lsu with rsv := none } } else l)
  let s := if l.mode == .held then
      (let m := s.lmem p
       let i := sweepIdx a
       s.setLmem p { m with fresh := if m.fresh.contains i then m.fresh else m.fresh ++ [i] })
    else s
  if mask = fullMask then s.rodWrite p a (rodBytes rod) 0 poison
  else
    let r := s.rodRead p a 3
    r.2.rodWrite p a (mergeBytes r.1.data (rodBytes rod) (maskBools mask))
      (r.1.tags &&& ((if mask &&& byteMask 0 16 = 0 then 1 else 0) ||| (if mask &&& byteMask 16 16 = 0 then 2 else 0)))
      (r.1.bad || poison)

/-- A scheduled rod served after its deadline (R250). -/
def State.shareLate (s : State) (p : Nat) (dl : Option Nat) : State :=
  match dl with
  | some d =>
    if d < s.now then
      let m := s.lmem p
      (s.setLmem p { m with late := sat1 m.late }).raise 0x0403 (srcW 1 p) 0
    else s
  | none => s

/-- A DIR = 1 rod was read for engine `e`; one served after its deadline is counted and reported (R277, R278). -/
def State.streamRead (s : State) (e desc n : Nat) (rod : Rod) (poison late : Bool) : State :=
  let g := s.engine e
  let g := { g with reads := g.reads ++ [{ desc := desc, n := n, rod := rod, poison := poison, at_ := s.now }] }
  if late then (s.setEngine e { g with lateCnt := sat1 g.lateCnt }).raise 0x0505 (srcW 4 (e / 2)) 0
  else s.setEngine e g

/-- A rod that arrives with its input signature is checked against it; when they differ the rod is written marked and the
event is raised (R257). -/
def State.sigBad (s : State) (p : Nat) (sig : Option Word) (rod : Rod) : Bool × State :=
  match sig with
  | some c => if crc32c (rodBytes rod) = c then (false, s) else (true, s.raise 0x0405 (srcW 1 p) 0)
  | none => (false, s)

/-- Serve one request of array `k` of lane `p`; `e` has come over its rod on the way to the array or from it (R247, R249,
R250). -/
def State.serve (s : State) (p k : Nat) (r : ShReq) (e : HopErr) : State :=
  let a := rodAddr k r.rod
  let s := s.setLmem p ((s.lmem p).useShare k s.now 1)
  let s := s.shareLate p r.deadline
  let late := match r.deadline with | some d => decide (d < s.now) | none => false
  match r.kind with
  | .write rod mask _ poison =>
    let h := hopPass rod e
    let s := if h.2 then s.hopFail else s
    let c := s.sigBad p r.sig h.1
    let s := c.2.shareWrite p a h.1 mask (poison || h.2 || c.1)
    match r.fab with | some id => s.fabAnswer id 0 [] | none => s
  | .readEgress port elem heat =>
    let q := s.rodRead p a 3
    let h := hopPass (bytesRod q.1.data) e
    let s := if h.2 then q.2.hopFail else q.2
    let t := s.port port
    s.setPort port { t with runs := t.runs.map (fun x => if x.heat = heat then
      { x with got := x.got ++ [{ g := elem, rod := h.1, poison := q.1.bad || h.2, late := late,
                                  sig := if x.sig then some (crc32c q.1.data) else none }] } else x) }
  | .readStream g desc n =>
    let q := s.rodRead p a 3
    let h := hopPass (bytesRod q.1.data) e
    (if h.2 then q.2.hopFail else q.2).streamRead g desc n h.1 (q.1.bad || h.2) late
  | .readFab id =>
    let q := s.rodRead p a 3
    q.2.fabRod id q.1

/-- The oldest request of the lowest class (R249). -/
def pickReq : List ShReq → Option ShReq
  | [] => none
  | r :: rest => match pickReq rest with | none => some r | some q => if q.cls < r.cls then some q else some r

/-- Drop the first request equal to `r`. -/
def dropReq (r : ShReq) : List ShReq → List ShReq
  | [] => []
  | q :: rest => if q = r then rest else q :: dropReq r rest

/-- The array is idle for a sharer in this cycle, and scrub does not begin in it, which has class 1 (R248, R249). -/
def State.shareIdle (s : State) (p k : Nat) : Bool := s.arrFree p k && !s.scrubOpen p

def ShReq.isWrite (r : ShReq) : Bool := match r.kind with | .write _ _ _ _ => true | _ => false

/-- The requests that stand in a port: the first `w` writes and the first `r` reads of those it is given (R249). -/
def standing : Nat → Nat → List ShReq → List ShReq
  | _, _, [] => []
  | w, r, q :: rest =>
    if q.isWrite then (match w with | 0 => standing 0 r rest | w + 1 => q :: standing w r rest)
    else (match r with | 0 => standing w 0 rest | r + 1 => q :: standing w r rest)

/-- A best-effort rod waits for every rod that its master sent to the same target before it (R291). -/
def State.inOrder (s : State) (r : ShReq) : Bool :=
  match r.fab.bind (fun id => s.fab.bridge.find? (fun (x : FRod) => decide (x.id = id))) with
  | some x => !s.fab.bridge.any (fun (y : FRod) => decide (y.master = x.master) && decide (y.target = x.target) && decide (y.id < x.id))
  | none => true

/-- SHARER_ACCESS: the sharing port of array `a.arr` of lane `p` serves one pending request in an idle cycle (R248–R250). A
home port's bank is that of the request's rod. -/
def sharerAccess (s : State) (p : Nat) (a : SharePort) : State :=
  let s := s.settle p
  let k := a.arr
  let m := s.lmem p
  if !s.shareIdle p k || decide (3 ≤ k) then s
  else
    let q := m.sp k
    let sched : ShReq → Bool := fun r => decide (r.cls < 5)
    let here := (standing 4 4 (q.pend.filter sched ++ q.pend.filter (fun r => !sched r))).filter s.inOrder
    let pick := match q.ingest with | r :: _ => some r | [] => pickReq here
    match pick with
    | none => s
    | some r =>
      let q := if q.pend.contains r then { q with pend := dropReq r q.pend } else { q with ingest := dropReq r q.ingest }
      (s.setLmem p (m.setSp k q)).serve p k r a.hop

/-- The port holds fewer than four pending requests of one direction (R249). -/
def ShPort.room (q : ShPort) (write : Bool) : Bool := decide ((q.pend.filter (fun r => r.isWrite == write)).length < 4)

/-- A request for the port. DESIGN CHOICE (log 75): a scheduled rod that finds the port's four places of its direction taken
waits on its way, behind those before it, until one is free; a best-effort request gives its place up to it (R282). -/
def State.shAdd (s : State) (p k : Nat) (r : ShReq) : State :=
  let m := s.lmem p
  let q := m.sp k
  s.setLmem p (m.setSp k { q with pend := q.pend ++ [r] })

end Sys2Proof.Machine
end

