-- ==== Sys2Proof/Machine/SmUnit.lean ====
section
/-! DEFINITION. The steward memory controller: accesses of both ports, retries and scrub (R251–R253), and the completion of a
lane's remote access (R138, R293). -/

namespace Sys2Proof.Machine
open Sys2Proof

/-! ### Completion of a lane's remote access -/

/-- The lane's remote access completes with a response code and data (R138, R293). -/
def State.remoteFinish (s : State) (p : Nat) (code : BitVec 2) (d : List Byte) : State :=
  let l := s.lane p
  match l.lsu.remote with
  | none => s
  | some ra =>
    let now := s.now
    let l := { l with
      mode := l.ctl.after.getD .run
      lsu := { l.lsu with remote := none, unmapped := l.lsu.unmapped || decide (code = 2) }
      ctl := { l.ctl with
        after := none
        ready := if l.ctl.restart then l.ctl.ready else now, stallUntil := now + 1,
        bnd := l.ctl.bnd.map (fun _ => now + 1) } }
    let l := if ra.store then l
      else if code = 2 then l.fly (now + 1) 5 (.lsuR 0)
      else if code = 3 then
        (l.fly (now + 1) 5 (.lsuR 0)).failLoad ra.addr 0
      else l.fly (now + 1) 5 (.lsuR (loadExt ra.size ra.sx d))
    s.setLane p l

def State.setRemote (s : State) (p : Nat) (ra : RemoteAcc) : State :=
  let l := s.lane p
  s.setLane p { l with lsu := { l.lsu with remote := some ra } }

/-- Port A performs one rod of a steward's access to steward memory in this cycle; the last one completes it (R251). -/
def State.portAStep (s : State) (p : Nat) : State :=
  match (s.lane p).lsu.remote with
  | none => s
  | some ra =>
    match ra.left with
    | [] => s
    | q :: rest =>
      let x := spread q.2.1 (ra.data.take q.2.2)
      let s := { s with sm := s.sm.mark false ⟨s.now, q.1, ra.store, x.2⟩ }
      let y : State × RemoteAcc :=
        if ra.store then
          (s.smWrite false q.1 x.1 x.2 false, { ra with left := rest, data := ra.data.drop q.2.2 })
        else
          let r := s.smRead false q.1
          (r.2, { ra with left := rest, data := ra.data ++ (r.1.data.drop q.2.1).take q.2.2, bad := if r.1.bad then 3 else ra.bad })
      let s := y.1.setRemote p y.2
      if rest.isEmpty then s.remoteFinish p y.2.bad (if ra.store then [] else y.2.data) else s

/-- REMOTE_ACCESS_DONE: every response of lane `p`'s remote access has come; or port A performs the next rod of a steward's
access to steward memory, refused and retried where it collides (R138, R251). -/
def remoteAccessDone (s : State) (p : Nat) : State :=
  let s := s.settle p
  let l := s.lane p
  match l.lsu.remote with
  | none => s
  | some ra =>
    if l.mode != .remote then s
    else match ra.left with
    | q :: _ =>
      if s.sm.retry.any (fun x => x.portA && decide (x.who = p)) || !s.portAFree q.1 ra.store then s
      else match s.portAMeet q.1 ra.store false with
      | (s, true) => s.portAStep p
      | (s, false) =>
        { s with sm := { s.sm with
            retry := s.sm.retry ++ [{ portA := true, addr := 0x40000000 + 32 * q.1, write := ra.store, data := [], be := [], who := p,
                                      poison := false, at_ := s.now }] } }
    | [] =>
      let got := ra.ids.filterMap (fun i => s.fab.done.find? (fun r => decide (r.id = i)))
      if got.length < ra.ids.length then s
      else
        let s := { s with fab := { s.fab with done := s.fab.done.filter (fun r => !ra.ids.contains r.id) } }
        let code : BitVec 2 := got.foldl (fun c r => if r.code = 2 then 2 else if r.code = 3 ∧ c ≠ 2 then 3 else c) 0
        s.remoteFinish p code (got.flatMap (fun r => r.data))

/-! ### Retries and scrub -/

/-- The bytes of a write of port B that the write of port A in the same cycle, which is applied last, leaves standing; none
where that one covers the rod (R251). -/
def State.underA (s : State) (rod : Nat) (x : List Byte × List Bool) : Option (List Byte × List Bool) :=
  match s.sm.lastA with
  | some u =>
    if u.at_ = s.now ∧ u.rod = rod ∧ u.write then
      if u.be.all id then none
      else if x.2.all id then some (mergeBytes x.1 (readRow s.sm.arr smRows rod).data u.be, x.2)
      else some (x.1, (x.2.zip u.be).map (fun b => b.1 && !b.2))
    else some x
  | none => some x

/-- Perform a port B access (R253). -/
def State.portBDo (s : State) (id addr : Nat) (write : Bool) (d : List Byte) (len : Nat) (poison : Bool) (code : BitVec 2) : State :=
  let rod := (addr - 0x40000000) / 32
  let x := spread (addr % 32) d
  let s := { s with sm := s.sm.mark true ⟨s.now, rod, write, x.2⟩ }
  if write then
    (match s.underA rod x with | some x => s.smWrite true rod x.1 x.2 poison | none => s).fabAnswer id code []
  else
    let r := s.smRead true rod
    if r.1.bad then r.2.fabAnswer id 3 (List.replicate len 0)
    else r.2.fabAnswer id code ((r.1.data.drop (addr % 32)).take len)

/-- SM_BUSY_RETRY: the oldest access refused in an earlier cycle is performed, and never refused again; a port B requester
receives OK_BUSY (R251, R292). -/
def smBusyRetry (s : State) : State :=
  match s.sm.retry.find? (fun q => decide (q.at_ < s.now)) with
  | none => s
  | some q =>
    let rod := (q.addr - 0x40000000) / 32
    let t := { s with sm := { s.sm with retry := s.sm.retry.filter (fun x => decide (x ≠ q)) } }
    if q.portA then
      if s.portAFree rod q.write then (t.portAMeet rod q.write true).1.portAStep q.who else s
    else if s.sm.scrubNow s.now || usedAt s.sm.lastB s.now then s
    else t.portBDo q.who q.addr q.write q.data q.be.length q.poison 1

/-- SM_SCRUB: the steward memory controller scrubs its next row, once in 1,024 lc, in a cycle that neither port uses (R252). -/
def smScrub (s : State) (hard : Bool) : State :=
  if s.now < s.sm.scrubAt || usedAt s.sm.lastA s.now || usedAt s.sm.lastB s.now then s
  else
    let a := s.sm.arr
    let o := scrubRow a smRows 64 s.sm.row hard true
    let k := a.logical smRows s.sm.row
    let m := ({ s.sm with
      arr := o.arr, row := (s.sm.row + 1) % 32832, scrubAt := s.sm.scrubAt + 1024, scrubbed := s.now + 1 }).note false k o.read
    let m := match o.again with | some x => m.note false k x | none => m
    let s := { s with sm := m }
    let s := if o.read.bad then s.raise 0x0401 0 0 else s
    if o.full then s.raise 0x0402 0 0 else s

end Sys2Proof.Machine
end

