-- ==== Sys2Proof/Machine/LaneRows.lean ====
section
/-! DEFINITION. The commands of a lane as a whole, and the shared meaning of a move to a unit's trigger port. -/

namespace Sys2Proof.Machine
open Sys2Proof

/-- What a command answers. -/
abbrev Answer := Host.Outcome State Fault Refusal

/-- The store-buffer entries that a held access waits for drain to their end (R142, R143). -/
def State.drainHeld (s : State) (p d : Nat) (v : Word) : State :=
  if 0x5C ≤ d ∧ d ≤ 0x61 then
    match lsuHold (s.lane p) (d - 0x5C) v with
    | some h =>
      let l := (s.lane p).beginHold s.now h
      let s := s.setLane p { l with lsu := { l.lsu with force := [], forceEnd := 0 } }
      s.drainSel p (fun e => h.2.contains (e.rod, e.alloc)) 8
    | none => s
  else s

/-- Triggers that may not stand in the delay slot of a taken transfer (R54). -/
def slotForbidden (d : Nat) : Bool := within d 0x64 0x66 || within d 0x70 0x71

/-- A lane that makes no move: held in reset or fenced, waiting or stalled on a remote access, or with a trap not yet
entered. -/
def Lane.stopped (l : Lane) : Bool :=
  l.mode == .held || l.mode == .fenced || l.mode == .wait || l.mode == .mbxWait || l.mode == .remote
    || l.trap.due.isSome || l.trap.ret.isSome

/-- Step 2 of R44 in the cycle of a move to port `d`: the remote moves of the cycle act, the words after a store have been
fetched (R91), and stalls count from this cycle (R196). -/
def State.step2 (s : State) (p d : Nat) : State :=
  let l := s.lane p
  let f := if isStoreTrig d then prefetch s p l l.ctl.pc.toNat else l.ctl.fetched
  s.setLane p { l.remoteNow s.now with ctl := { l.ctl with
    ready := max l.ctl.ready s.now, stallUntil := max l.ctl.stallUntil (s.now + 1), fetched := f } }

/-- An unguarded move of `v` to trigger port `d` of lane `p` in the current cycle, as the command of that trigger: its
permission and unit checks, a hold, the remote moves of the cycle and a clash with one of them, and the operation (R36, R44,
R56, R142, R174, R177, R222, R227). A check that fails raises its trap and nothing else happens. -/
def trigger (s : State) (p d : Nat) (v : Word) : State :=
  let s := s.settle p
  let l := s.lane p
  if l.stopped then s
  else if l.ctl.xfer.isSome && slotForbidden d then s.instrTrap p trap1 l.ctl.pc
  else
    match moveChecks p l l [(⟨d, .imm v, none⟩, v)] with
    | some t => s.instrTrap p t l.ctl.pc
    | none =>
      if clashes (l.arriving l s.now) d then
        (s.setLane p { l with rly := { l.rly with clash := sat1 l.rly.clash } }).step2 p d
      else (((s.drainHeld p d v).step2 p d).fire p d v).fireLate p d

/-- RESULT_READY: results due become readable. When the check value of a unit disagrees with a result that becomes readable in
this cycle, or a residue, parity or copy of the lane's storage does (R239, R254), a self-check event follows (R45, R120,
R160). -/
def resultReady (s : State) (p : Nat) (found : LaneCheck) : State :=
  let s := s.settle p
  let l := s.lane p
  if l.mode == .held || l.mode == .fenced then s
  else match found with
  | .agree => s
  | .result => if l.ctl.shownAt = s.now + 1 then s.setLane p (l.selfCheck s.now) else s
  | .storage => s.setLane p (l.selfCheck s.now)

/-- Channel 64 is free and no lower lane waits to post on it (R393). -/
def State.fenceTurn (s : State) (p : Nat) : Bool :=
  !(s.chan 64).full && !s.mail.path.any (fun i => decide (i.chan = 64)) &&
    !s.lanes.any (fun q => decide (q.1 < p) && q.2.trap.fence.isSome && decide (q.2.trap.fenceAt ≤ s.now))

/-- FENCE_REPORT_POST: a fenced lane posts its report of eight words on channel 64; it stands there 24 lc later (R193,
R393). -/
def fenceReportPost (s : State) (p : Nat) : State :=
  let l := s.lane p
  match l.trap.fence with
  | none => s
  | some ws =>
    if l.trap.fenceAt ≤ s.now ∧ s.fenceTurn p then
      let s := s.setLane p { l with trap := { l.trap with fence := none } }
      let items : List MItem := (ws.zipIdx).map (fun q => ⟨64, s.now + 24, .wr q.2 q.1⟩)
      { s with mail := { s.mail with path := s.mail.path ++ items ++ [⟨64, s.now + 24, .go 8 0⟩] } }
    else s

def execTransportCycle (p : Nat) (s : State) : Answer := .next (s.live (transportCycle s p))
def execRepIteration (p : Nat) (s : State) : Answer := .next (s.live (repIteration s p))
def execResultReady (p : Nat) (found : LaneCheck) (s : State) : Answer := .next (s.live (resultReady s p found))
def execTrapEntry (p : Nat) (s : State) : Answer := .next (s.live (trapEntry s p))
def execFenceReportPost (p : Nat) (s : State) : Answer := .next (s.live (fenceReportPost s p))
def execStoreBufferDrain (p : Nat) (s : State) : Answer := .next (s.live (drainNow s p))
def execRemoteAccessDone (p : Nat) (s : State) : Answer := .next (s.live (remoteAccessDone s p))

end Sys2Proof.Machine
end

