-- ==== Sys2Proof/Machine/PacerUnit.lean ====
section
/-! DEFINITION. The pacer: references, states, circuits, run and stop, and its part of the gun (R9–R24, R32–R35, R497). -/

namespace Sys2Proof.Machine
open Sys2Proof

/-- State codes of R21. -/
def PState.code : PState → Nat
  | .stopped => 0
  | .internal => 1
  | .acquire => 2
  | .locked => 3
  | .flywheel => 4
  | .freerun => 5

def PState.ofCode : Nat → PState
  | 0 => .stopped
  | 1 => .internal
  | 2 => .acquire
  | 3 => .locked
  | 4 => .flywheel
  | _ => .freerun

/-- Set bits of PACER.EVENTS. -/
def State.pEvent (s : State) (k : Nat) : State :=
  { s with pacer := { s.pacer with events := s.pacer.events ||| ((1 : BitVec 10) <<< k) } }

/-- Raise pacer event `k` (bit of PACER.EVENTS; code 0x0101 + k) (R34, R35, R371). -/
def State.pRaise (s : State) (k : Nat) : State := (s.pEvent k).raise (0x0101 + k) 0 0

/-- A refused write sets EVENTS.REFUSED (R33). -/
def State.pRefuse (s : State) : State := s.pEvent 9

/-- Enter a pacer state; the run counters of R21 start anew. FLY_CNT also returns to 0 on a stop, of which R21 says nothing
(DESIGN CHOICE, log entry 18). -/
def Pacer.enter (p : Pacer) (st : PState) : Pacer :=
  { p with
    state := st, lockRun := 0, unlockRun := 0, validRun := 0
    flyCnt := if st = .acquire ∨ st = .internal ∨ st = .stopped then 0 else p.flyCnt }

/-! ### References -/

/-- INPUTS, WIN and OFS of PACER.TICK_CFG. -/
def Pacer.inputs (p : Pacer) : Nat := (p.tickCfg.extractLsb' 24 2).toNat
def Pacer.tickWin (p : Pacer) : Nat := (p.tickCfg.extractLsb' 16 6).toNat
def Pacer.tickOfs (p : Pacer) : Int := (p.tickCfg.extractLsb' 0 16).toInt

/-- An edge in the current cycle, in 1/16 lc from the nearest predicted edge: predicted edges lie 48 + OFS lc before each
gun of the grid (R13). -/
def Pacer.edgeOfs (p : Pacer) (frac : BitVec 4) : Int :=
  let l := (16 * p.heatLen : Int)
  let x := (16 * ((p.elapsed : Int) + 48 + p.tickOfs) + frac.toNat) % l
  if 2 * x < l then x else x - l

/-- The reference of the heat: its edge relative to the prediction (R14, R15), and events by their numbers. -/
def Pacer.tickRef (p : Pacer) : Option Int × List Nat :=
  match p.edgeA, p.edgeB with
  | some a, some b =>
    if (a - b).natAbs ≤ 32 then (some ((a + b) / 2), [])
    else (some (if b.natAbs < a.natAbs then b else a), [2])
  | some a, none => (some a, if p.inputs = 0 ∧ !p.bLost then [1] else [])
  | none, some b => (some b, if p.inputs = 0 ∧ !p.aLost then [0] else [])
  | none, none => (none, [])

/-- 0.2 ns units from the epoch to gun `n` (R17). -/
def Pacer.target (p : Pacer) (n : Nat) : Nat :=
  (p.epochSec.toNat * 1000000000 + p.epochNs.toNat) * 5 + n * p.heatLen * 4

/-- With IEEE 1588 as source: the first target gun from cycle `now` + 1 whose number is at least `least`, and the cycle in
which it falls (R17, R34, R497). -/
def Pacer.ptpFirst (p : Pacer) (now least : Nat) : Nat × Nat :=
  let t := p.ptpT + 4
  let n := max least ((t - p.target 0 + 4 * p.heatLen - 1) / (4 * p.heatLen))
  (n, now + 1 + (p.target n - t + 3) / 4)

/-- The least number of a first gun: 0 after device reset, else one above the last (R497). -/
def Pacer.leastNum (p : Pacer) : Nat := if p.open_ then p.heatNum.toNat + 1 else 0

/-- Where the reference that the pacer holds puts a gun: lc beyond the L-th cycle of the heat, modulo L (R13, R17, R20). -/
def Pacer.refAt (p : Pacer) : Option Nat :=
  if p.src = 2 then
    if p.ptpSeen then
      some (((((p.target (p.heatNum + 1).toNat : Int) - ((p.ptpT : Int) + 4 * ((p.heatLen : Int) - p.elapsed)) + 3) / 4) % p.heatLen).toNat)
    else none
  else if p.src = 1 then p.tickRef.1.map (fun (e : Int) => (((e + 8) / 16) % (p.heatLen : Int)).toNat)
  else none

/-- The first gun after RUN and the gun that closes a rephase heat follow the reference as it becomes known, while they still
lie ahead (R17, R20, R497). -/
def Pacer.plan (p : Pacer) (now : Nat) : Pacer :=
  match p.firstGun with
  | some c =>
    if p.src = 2 ∧ now < c then
      let first := p.ptpFirst now p.leastNum
      { p with firstGun := some first.2, firstNum := BitVec.ofNat 64 first.1 }
    else p
  | none =>
    match p.rephase, p.refAt with
    | some _, some f => if p.elapsed < p.heatLen + f then { p with rephase := some (p.heatLen + f) } else p
    | _, _ => p

/-- TICK_EDGE: a rising edge on TICK_IN_A or TICK_IN_B is accepted inside the window, or always in ACQUIRE; the first
accepted edge of a heat counts (R14, R15). An edge counts for the heat, from gun to gun, in which it falls: R14 does not say
to which heat an edge near the gun belongs (DESIGN CHOICE, log entry 18). -/
def tickEdge (s : State) (b : Bool) (frac : BitVec 4) : State :=
  let p := s.pacer
  if p.state = .stopped ∨ p.src ≠ 1 then s
  else if (b && decide (p.inputs = 1)) || (!b && decide (p.inputs = 2)) then s
  else
    let o := p.edgeOfs frac
    if p.state = .acquire ∨ o.natAbs ≤ 16 * p.tickWin then
      if b then
        if p.edgeB.isSome then s else { s with pacer := ({ p with edgeB := some o } : Pacer).plan s.now }
      else if p.edgeA.isSome then s else { s with pacer := ({ p with edgeA := some o } : Pacer).plan s.now }
    else s

/-- A Sync is for the protocol engine: PACER.PTP_CFG names both, and the port is in Ethernet mode
(R16, R34). -/
def State.ptpHears (s : State) (x : PtpTime) : Bool :=
  decide (x.port = (s.pacer.ptpCfg.extractLsb' 0 4).toNat) && decide (x.dom = s.pacer.ptpCfg.extractLsb' 8 8)
    && (decide ((s.port x.port).mode = 1) || decide ((s.port x.port).mode = 2))

/-- The clock takes the time of a Sync; with IEEE 1588 as source the phase error of the last gun is measured against it (R17),
and a first gun or a rephase in waiting is placed by it. -/
def Pacer.sync (p : Pacer) (now t : Nat) : Pacer :=
  let p := { p with ptpT := t, ptpSeen := true, ptpNew := true }
  let err : Int := 4 * ((t : Int) - 4 * (p.elapsed : Int) - (p.target p.heatNum.toNat : Int))
  ({ p with phaseErr := if p.src = 2 ∧ p.open_ ∧ p.firstGun = none then err else p.phaseErr } : Pacer).plan now

/-- PTP_SYNC: an accepted Sync disciplines the clock (R16–R18). -/
def ptpSync (s : State) (x : PtpTime) (ns : BitVec 30) : State :=
  if s.ptpHears x then { s with pacer := s.pacer.sync s.now ((x.sec.toNat * 1000000000 + ns.toNat) * 5) } else s

/-- The flywheel begins (R18, R21). -/
def State.flywheel (s : State) : State :=
  ({ s with pacer := { s.pacer.enter .flywheel with flyCnt := 0 } }).pRaise 3

/-- PACER_PTP_LOST (R18). Where the firmware distrusts the master, R18 names the event only; the model takes the reference as
lost, so the pacer enters FLYWHEEL as after lost Syncs (DESIGN CHOICE, log entry 18). -/
def pacerPtpLost (s : State) (why : PtpLoss) : State :=
  let p := s.pacer
  let lost := match why with
    | .intervals n => decide ((p.ptpCfg.extractLsb' 4 4).toNat ≤ n)
    | .distrust => true
  if p.src = 2 ∧ p.state ≠ .stopped ∧ lost = true then
    let s := { s with pacer := { p with ptpSeen := false } }
    let s := s.pRaise 7
    if p.state = .acquire ∨ p.state = .locked then s.flywheel else s
  else s

/-! ### State changes of R21 -/

/-- The mark of R22 is set or cleared on every contract that `sel` picks, with its event. -/
def State.markUnsync (s : State) (b : Bool) : State :=
  s.con.foldl (fun s c =>
    if c.running && (c.unsync != b) then
      (s.setContract { c with unsync := b }).raise (if b then 0x0204 else 0x0205) (srcW 5 c.handle) 0
    else s) s

/-- PACER_LOCKED: 16 consecutive heats within ±1 lc; the mark of R22 clears (R21, R22). -/
def pacerLocked (s : State) : State :=
  if s.pacer.state = .acquire ∧ 16 ≤ s.pacer.lockRun then
    (({ s with pacer := s.pacer.enter .locked }).pRaise 5).markUnsync false
  else s

/-- PACER_UNLOCK: 4 consecutive heats beyond ±4 lc with a valid reference (R21). -/
def pacerUnlock (s : State) : State :=
  if s.pacer.state = .locked ∧ 4 ≤ s.pacer.unlockRun then ({ s with pacer := s.pacer.enter .acquire }).pRaise 6 else s

/-- PACER_REACQUIRE: a valid reference in 4 consecutive heats of FLYWHEEL or FREERUN (R21). -/
def pacerReacquire (s : State) : State :=
  if (s.pacer.state = .flywheel ∨ s.pacer.state = .freerun) ∧ 4 ≤ s.pacer.validRun then
    { s with pacer := s.pacer.enter .acquire }
  else s

/-- PACER_FREERUN: the flywheel limit is reached; every contract in effect is marked unsynchronised (R21, R22). -/
def pacerFreerun (s : State) : State :=
  if s.pacer.state = .flywheel ∧ s.pacer.flyLimit ≤ s.pacer.flyCnt then
    (({ s with pacer := s.pacer.enter .freerun }).pRaise 4).markUnsync true
  else s

/-! ### The two circuits (R24) -/

/-- The distributed values come from circuit 0, or from circuit 1 when only circuit 0 carries a flag. -/
def pickCirc (c0 c1 : CircView) : Bool := c0.flag && !c1.flag

/-- PACER_CIRC_DISAGREE: a gun that the distributed circuit asserts is a gun; a gun due by the count is never withheld. -/
def pacerCircDisagree (s : State) (c0 c1 : CircView) : State :=
  let p := s.pacer
  if p.single ∨ (c0.gun = c1.gun ∧ c0.heatNum = c1.heatNum ∧ c0.state = c1.state ∧ c0.trim = c1.trim) then s
  else
    let k := pickCirc c0 c1
    let v := if k then c1 else c0
    let other := !k
    let again := match p.lastDis with
      | some (c, h) => c == other && decide (p.heatNum.toNat - h ≤ 65536)
      | none => false
    let p := { p with
      heatNum := v.heatNum, state := PState.ofCode v.state.toNat, trim := max (-100000) (min 100000 v.trim),
      circGun := if c0.gun != c1.gun && v.gun then some s.now else p.circGun
      flag0 := c0.flag, flag1 := c1.flag, lastDis := some (other, p.heatNum.toNat),
      reload := if again then none else some other, single := again,
      disabled := if again then some other else p.disabled }
    let s := ({ s with pacer := p }).pRaise 8
    if again then s.pRaise 8 else s

/-- PACER_CIRC_RELOAD: in the next cool-down the steward firmware reloads the other circuit, or disables it. -/
def pacerCircReload (s : State) (ok : Bool) : State :=
  match s.pacer.reload with
  | none => s
  | some c =>
    if !s.cooling then s
    else if ok then { s with pacer := { s.pacer with reload := none } }
    else ({ s with pacer := { s.pacer with reload := none, single := true, disabled := some c } }).pRaise 8

/-! ### Registers with an effect -/

/-- A steward sets RUN (R21, R34, R497). -/
def Pacer.start (p : Pacer) (now : Nat) : Pacer :=
  let first := if p.src = 2 then p.ptpFirst now p.leastNum else (p.leastNum, now + 1)
  { p.enter (if p.src = 0 then .internal else .acquire) with
    run := true, firstGun := some first.2, firstNum := BitVec.ofNat 64 first.1, rephase := none }

def pacerRun (s : State) (m : BitVec 11) : State :=
  if !isStwMaster m then s.pRefuse
  else if s.pacer.run then s
  else { s with pacer := s.pacer.start s.now }

/-- Some contract is in effect (R23, R321). -/
def State.anyRunning (s : State) : Bool := s.con.any Contract.running

/-- A steward clears RUN: refused while a contract is in effect; the heat in progress is left open (R23, R497). -/
def pacerStop (s : State) (m : BitVec 11) : State :=
  if !isStwMaster m then s.pRefuse
  else if !s.pacer.run then s
  else if s.anyRunning then s.pRefuse
  else { s with pacer := { s.pacer.enter .stopped with run := false, firstGun := none, rephase := none } }

/-- REPHASE: the current heat closes on the reference (R20): where the pacer holds it, at the place that it gives, otherwise
`phase` lc beyond the L-th cycle, taken modulo L. -/
def rephaseOp (s : State) (m : BitVec 11) (phase : Nat) : State :=
  if !isStwMaster m then s.pRefuse
  else if s.anyLive || s.anyRunning || s.pacer.state = .stopped || s.pacer.state = .internal then s
  else { s with pacer := ({ s.pacer with rephase := some (s.L + phase % s.L) } : Pacer).plan s.now }

/-- A read of HEAT_NUM_LO latches HEAT_NUM_HI (R34). -/
def heatNumLoRead (s : State) : State :=
  ({ s with pacer := { s.pacer with hiLatch := some (s.pacer.heatNum.extractLsb' 32 32) } }).answer 0 (s.pacer.heatNum.extractLsb' 0 32)

/-- A write of APPLY_HI arms the pair (R34). -/
def applyHiWrite (s : State) (m : BitVec 11) (v : Word) : State :=
  if !isStwMaster m then s.pRefuse
  else { s with pacer := { s.pacer with applyHi := v, applyArmed := true } }

/-! ### The pacer's part of the gun -/

/-- The gun is due in the current cycle (R9, R20, R24, R497). -/
def Pacer.gunDue (p : Pacer) (now : Nat) : Bool :=
  p.run && (decide (p.circGun = some now) ||
    (match p.firstGun with
     | some c => decide (c ≤ now)
     | none => p.open_ && decide (p.rephase.getD p.heatLen ≤ p.elapsed)))

/-- The number of the gun that is due. -/
def Pacer.nextNum (p : Pacer) : BitVec 64 := if p.firstGun.isSome then p.firstNum else p.heatNum + 1

/-- Pending changes take effect at the gun whose number is APPLY, before step 1 of R29 (R21, R32). A change of HEAT_LEN or of
the epoch that was accepted, and that a contract scheduled since then would forbid, is dropped: R32 states the refusal of the
request only (DESIGN CHOICE, log entry 18). -/
def State.pacerApply (s : State) (n : BitVec 64) : State :=
  let p := s.pacer
  if !p.applyArmed || decide (p.applyHi ++ p.applyLo ≠ n) then s
  else
    let q := p.pend
    let p := { p with
      applyArmed := false, pend := pendReset
      heatLen := if s.anyLive || s.anyRunning then p.heatLen else q.heatLen.getD p.heatLen
      tickCfg := q.tick.getD p.tickCfg, ptpCfg := q.ptp.getD p.ptpCfg
      epochSec := if s.anyRunning then p.epochSec else q.epochSec.getD p.epochSec
      epochNs := if s.anyRunning then p.epochNs else q.epochNs.getD p.epochNs }
    match q.src with
    | none => { s with pacer := p }
    | some v =>
      if v = p.src then { s with pacer := p }
      else { s with pacer := { p.enter (if v = 0 then .internal else .acquire) with src := v } }

/-- The phase error of this gun in 1/16 lc, when the reference is valid: positive when the gun was late (R17, R34). `late` is
by how many lc the heat that ends was longer than L, which a rephase does (R20). -/
def Pacer.phase (p : Pacer) (n late : Nat) : Option Int :=
  if p.src = 1 then p.tickRef.1.map (fun e =>
    let l := (16 * p.heatLen : Int)
    let x := (16 * (late : Int) - e) % l
    if late = 0 then -e else if 2 * x < l then x else x - l)
  else if p.src = 2 then (if p.ptpSeen then some (4 * ((p.ptpT : Int) - (p.target n : Int))) else none)
  else some 0

/-- The trim of the next heat (R19, R21): steered by at most 1 ppm in ACQUIRE and LOCKED, returning to 0 in INTERNAL, held
otherwise. -/
def Pacer.nextTrim (p : Pacer) (steer : Int) : Int :=
  let clip : Int → Int := fun x => max (-1000) (min 1000 x)
  match p.state with
  | .internal => p.trim - clip p.trim
  | .acquire => max (-100000) (min 100000 (p.trim + clip steer))
  | .locked => max (-100000) (min 100000 (p.trim + clip steer))
  | _ => p.trim

/-- With IEEE 1588 as source the trim is held from one Sync to the next (R18). -/
def Pacer.holdsTrim (p : Pacer) : Bool := decide (p.src = 2) && !p.ptpNew

/-- The reference of the ended heat is evaluated at the gun: phase error, run counters, flywheel, trim and events
(R14, R18, R19, R21, R35). -/
def State.pacerRef (s : State) (n : BitVec 64) (late : Nat) : State :=
  let p := s.pacer
  let ph := p.phase n.toNat late
  let valid := ph.isSome
  let err := ph.getD p.phaseErr
  let tick := decide (p.src = 1)
  let evs := if tick then p.tickRef.2 else []
  let p' := { p with
    phaseErr := err
    lockRun := if valid && decide (err.natAbs ≤ 16) then p.lockRun + 1 else 0
    unlockRun := if valid && decide (64 < err.natAbs) then p.unlockRun + 1 else 0
    validRun := if valid then p.validRun + 1 else 0
    tickAOk := p.edgeA.isSome, tickBOk := p.edgeB.isSome
    aLost := p.edgeA.isNone && p.edgeB.isSome, bLost := p.edgeB.isNone && p.edgeA.isSome
    edgeA := none, edgeB := none, ptpNew := false
    trim := if p.holdsTrim then p.trim else p.nextTrim (Config.steer s.free)
    flyCnt := if p.state = .flywheel then min (p.flyCnt + 1) 256 else p.flyCnt }
  let s := ({ s with pacer := p' }).draw
  let s := evs.foldl (fun s k => s.pRaise k) s
  let s := if p.state = .flywheel then s.tally 19 else if p.state = .freerun then s.tally 20 else s
  let s := if p.state = .locked then s.hist8 (0x0B00 + 8 * min err.natAbs 63) else s
  if tick && !valid && (p.state = .acquire || p.state = .locked) then
    let s := s.flywheel
    ({ s with pacer := { s.pacer with flyCnt := 1 } }).tally 19
  else s

/-- Step 1 of R29 with what precedes it: pending changes, the new heat number, cycle 0. No tick reference precedes the first
gun after RUN. A source change keeps the trim in force (R21). -/
def State.pacerGun (s : State) : State :=
  let n := s.pacer.nextNum
  let first := s.pacer.firstGun.isSome
  let late := if s.pacer.rephase.isSome then s.pacer.elapsed - s.L else 0
  let trim := s.pacer.trim
  let s := { s with pacer := { s.pacer with heatNum := n, open_ := true, elapsed := 0, gunAt := s.now, firstGun := none, rephase := none } }
  let src := s.pacer.src
  let s := if first && src = 1 then s else s.pacerRef n late
  let s := s.pacerApply n
  { s with pacer := { s.pacer with trim := if s.pacer.src = src then s.pacer.trim else trim, circGun := none, flag0 := false, flag1 := false, edgeA := none, edgeB := none } }

def execTickEdge (b : Bool) (frac : BitVec 4) (s : State) : Answer := .next (s.live (tickEdge s b frac))
def execPtpSync (sec : PtpTime) (ns : BitVec 30) (s : State) : Answer := .next (s.live (ptpSync s sec ns))
def execPacerPtpLost (why : PtpLoss) (s : State) : Answer := .next (s.live (pacerPtpLost s why))
def execPacerLocked (s : State) : Answer := .next (s.live (pacerLocked s))
def execPacerUnlock (s : State) : Answer := .next (s.live (pacerUnlock s))
def execPacerReacquire (s : State) : Answer := .next (s.live (pacerReacquire s))
def execPacerFreerun (s : State) : Answer := .next (s.live (pacerFreerun s))
def execPacerCircDisagree (c0 c1 : CircView) (s : State) : Answer := .next (s.live (pacerCircDisagree s c0 c1))
def execPacerCircReload (ok : Bool) (s : State) : Answer := .next (s.live (pacerCircReload s ok))
def execPacerRun (m : BitVec 11) (s : State) : Answer := .next (s.live (pacerRun s m))
def execPacerStop (m : BitVec 11) (s : State) : Answer := .next (s.live (pacerStop s m))
def execRephase (m : BitVec 11) (phase : Nat) (s : State) : Answer := .next (s.live (rephaseOp s m phase))
def execHeatNumLoRead (_m : BitVec 11) (s : State) : Answer := .next (s.live (heatNumLoRead s))
def execApplyHiWrite (m : BitVec 11) (v : Word) (s : State) : Answer := .next (s.live (applyHiWrite s m v))

end Sys2Proof.Machine
end

