-- ==== Sys2Proof/Machine/Qdr.lean ====
section
/-! DEFINITION. QDR-IV channels: addresses and remaps, reads and writes with the index-bound rod code, initialisation,
maintenance in the cool-down, address-parity reports and channel failure (R259–R273, R281). `Qdr.cells` holds each rod as
its difference from the rod of zero data bound to the same index: the code is linear, so the contribution of the index
cancels and a difference decodes as a plain rod (R241, R265; `Sys2Proof.Laws.stored_decodes`). -/

namespace Sys2Proof.Machine
open Sys2Proof

/-- The QDR clock in MHz (R261). -/
def mhz (f : BitVec 2) : Nat := match f.toNat with | 0 => 1066 | 1 => 1000 | 2 => 800 | _ => 667
def Qdr.f (q : Qdr) : Nat := mhz q.freqF

/-- The QDR clock of channel `k` that device cycle `c` of the heat falls in. DESIGN CHOICE (log 79): clocks are counted from
the gun, as the cycles of R276 are. -/
def State.qclock (s : State) (k c : Nat) : Nat :=
  let g := s.pacer.gunAt
  g * (s.qch k).f / 1250 + (c - g) * (s.qch k).f / 1250

/-- τ of rod `n` relative to its descriptor's start (R276). -/
def rodTime (f n : Nat) : Nat := (1250 * n + f - 1) / f

/-- The first remap spare: the spare region begins there (R260). -/
def Qdr.spareBase (q : Qdr) : Nat := if q.densF then 0x3FF800 else 0x1FF800
/-- Indexes that masters may address lie below the spare region (R260, R263). -/
def Qdr.limit (q : Qdr) : Nat := q.spareBase

/-- The physical index of logical rod `r` (R263, R270). -/
def Qdr.phys (q : Qdr) (r : Nat) : Nat :=
  match q.remap.find? (fun e => e.2.v && decide (e.2.row = r)) with
  | some (k, _) => q.spareBase + k
  | none => r

/-- The check bytes that the index bound to a rod adds to those of its data (R265): the bytes r[21:16], r[15:8] and r[7:0]
stand before the data as the coefficients of x^38 to x^36. -/
def idxCheck (i : Nat) : List Byte :=
  rsCheck (BitVec.ofNat 8 (i / 65536) :: BitVec.ofNat 8 (i / 256) :: BitVec.ofNat 8 i :: List.replicate 32 0)

/-- Symbol by symbol sum in GF(2^8). -/
def xorList (a b : List Byte) : List Byte := List.zipWith (fun x y => x ^^^ y) a b

/-- The 36 symbols that a device stores for data `d` written to index `i` (R265). -/
def qdrStored (i : Nat) (d : List Byte) : List Byte :=
  d ++ rsCheck (BitVec.ofNat 8 (i / 65536) :: BitVec.ofNat 8 (i / 256) :: BitVec.ofNat 8 i :: d)

/-- The read decoder's word for stored symbols `w` read at index `i`: the contribution of the index it drives is subtracted
(R265). -/
def qdrUnbind (i : Nat) (w : List Byte) : List Byte := w.take 32 ++ xorList (w.drop 32) (idxCheck i)

/-- What physical index `i` decodes to (R265). -/
def Qdr.decode (q : Qdr) (i : Nat) : List Byte × RodOk := let d := rodDecode (mread q.cells (36 * i) 36); (d.1, d.2.1)

def Qdr.store (q : Qdr) (i : Nat) (d : List Byte) (mark : Bool) : Qdr :=
  { q with cells := mwrite q.cells (36 * i) (if mark then rodEncodeMarked d else rodEncode d) }

/-- Spares in use or bad. -/
def Qdr.spareUsed (q : Qdr) : Nat := ((List.range 256).filter (fun k =>
  (tget remapDflt q.remap k).v || (tget remapDflt q.remap k).bad)).length

def Qdr.event (q : Qdr) (k : Nat) : Qdr := { q with events := q.events ||| ((1 : BitVec 7) <<< k) }

/-! ### Failure -/

/-- DEST of a descriptor (R275): a seat or a multicast list, and the first home rod. -/
def descDest (d : BitVec 128) : Word := d.extractLsb' 64 32
def descV (d : BitVec 128) : Bool := d.getLsbD 31
def descDir (d : BitVec 128) : Bool := d.getLsbD 30
def descMc (d : BitVec 128) : Bool := d.getLsbD 29
def descS (d : BitVec 128) : Nat := (d.extractLsb' 0 24).toNat
def descRod (d : BitVec 128) : Nat := (d.extractLsb' 32 22).toNat
def descSeat (d : BitVec 128) : Nat := (d.extractLsb' 75 10).toNat
def descHome (d : BitVec 128) : Nat := if descMc d then (d.extractLsb' 72 11).toNat else (d.extractLsb' 64 11).toNat
def descList (d : BitVec 128) : Nat := (d.extractLsb' 64 8).toNat
def descCount (d : BitVec 128) : Nat := (d.extractLsb' 96 16).toNat
def descQstep (d : BitVec 128) : Int := (d.extractLsb' 112 8).toInt
def descHstep (d : BitVec 128) : Int := (d.extractLsb' 120 8).toInt

/-- A descriptor with MC and DIR both set, or a nonzero reserved field, is treated as V = 0 (R275). -/
def descBad (d : BitVec 128) : Bool :=
  (descMc d && descDir d) || decide (d.extractLsb' 24 5 ≠ 0) || decide (d.extractLsb' 54 10 ≠ 0)
    || (if descMc d then decide (d.extractLsb' 83 13 ≠ 0) else decide (d.extractLsb' 85 11 ≠ 0))

/-- The seats that a multicast list names (R279). -/
def mcSeats (b : BitVec 128) : List Nat :=
  (List.range 64).flatMap (fun q => if b.getLsbD q then
    (List.range 16).filterMap (fun i => if b.getLsbD (64 + i) then some (16 * q + i) else none) else [])

/-- The multicast list `k` in force. -/
def Mcast.list (m : Mcast) (k : Nat) : BitVec 128 := tget (fun _ => 0) (if m.bank then m.bank1 else m.bank0) k
def State.mcast (s : State) (k : Nat) : BitVec 128 := s.mc.list k

/-- The seats that a descriptor of the card reaches. -/
def Card.descSeats (c : Card) (d : BitVec 128) : List Nat :=
  if descMc d then (c.mcast.filter (fun m => decide (m.list = descList d))).flatMap (fun m => mcSeats m.bits)
  else [descSeat d]

/-- Seats that the engines of channel `k` feed for a contract. -/
def Card.fedBy (c : Card) (k : Nat) : List Nat :=
  (c.streams.filter (fun r => decide (r.engine / 2 = k))).flatMap (fun r =>
    (r.desc.filter (fun d => descV d && !descDir d)).flatMap c.descSeats)

/-- A contract's cards use a channel (R266). -/
def State.chanUsed (s : State) (k : Nat) : Bool :=
  s.con.any (fun c => c.card.streams.any (fun r => decide (r.engine / 2 = k)))

/-- Every active pair of a paired contract in effect that the channel feeds runs single, until the contract is withdrawn; the
side that the channel feeds is not delivered; of a pair fed on both sides the lead is delivered (R273, R401; DESIGN CHOICE,
log 31). A pair under repair follows when it resumes. -/
def State.channelLost (s : State) (k : Nat) : State :=
  (s.con.filter (fun c => c.running && c.card.paired)).foldl (fun s c =>
    (c.card.seats.filter (fun r => (c.card.fedBy k).contains r.seat
        && (!(c.card.fedBy k).contains r.partner || decide (r.role = 2)))).foldl
      (fun s r => if s.seatState r.seat = 0 ∧ s.seatState r.partner = 0 then s.singleOff r.seat r.partner else s) s) s

/-- The gun's action for the channels that have failed by then (R401). -/
def State.channelActs (s : State) : State :=
  (List.range 4).foldl (fun s k => if (s.qch k).state = 3 then s.channelLost k else s) s

/-- The channel is declared failed (R273). Its seats are acted on at the next gun (R401). -/
def State.qFail (s : State) (k : Nat) : State :=
  let q := s.qch k
  if q.state = 3 then s
  else
    ((s.setQch k { q.event 4 with
      state := 3, replay := [], dueRetrain := false, dueZq := false }).raise 0x0502 (srcW 4 k) 0).tally (128 + k)

/-- Record what a read found (R271, R281): `src` 0 stream, 1 best-effort, 2 scrub. -/
def State.qNote (s : State) (k src i : Nat) (portB : Bool) (ok : RodOk) : State :=
  let q := s.qch k
  let rec_ : Word := 0x80000000 ||| b2n portB 29 ||| BitVec.ofNat 32 (src * 67108864 + i)
  match ok with
  | .clean => s
  | .corrected =>
    let q := { q.event 0 with ceCnt := sat1 q.ceCnt }
    s.setQch k (if q.lastErr.getLsbD 31 && q.lastErr.getLsbD 30 then q else { q with lastErr := rec_ })
  | .uncor _ =>
    let q := { q.event 1 with ueCnt := sat1 q.ueCnt, ueHeat := q.ueHeat + 1, lastErr := rec_ ||| 0x40000000 }
    let s := (s.setQch k q).raise 0x0503 (srcW 4 k) 0
    if q.failUe ≠ 0 ∧ q.failUe.toNat ≤ q.ueHeat then s.qFail k else s

/-! ### Accesses -/

/-- An access is kept for as long as an address-parity report can reach back (R272). -/
def Qdr.keep (q : Qdr) (a : QAcc) : Qdr :=
  { q with recent := a :: q.recent.filter (fun b => decide (a.clock ≤ b.clock + 16)) }

/-- Read logical rod `r` in QDR clock `clk` through port A or B: data and poison. A channel that is not READY delivers a
poisoned rod (R271, R273). -/
def State.qRead (s : State) (k clk r : Nat) (portB : Bool) (src : Nat) (fid : Option Nat) : (List Byte × Bool) × State :=
  let q := s.qch k
  if q.state ≠ 2 then ((List.replicate 32 0, true), s)
  else
    let i := q.phys r
    let d := q.decode i
    let s := s.setQch k (q.keep ⟨clk, i, portB, none, none, fid, none⟩)
    let bad := match d.2 with | .uncor _ => true | _ => false
    ((d.1, bad), s.qNote k src i portB d.2)

/-- Write logical rod `r` whole in QDR clock `clk`; a channel that is not READY discards it (R242, R273). -/
def State.qWrite (s : State) (k clk r : Nat) (portB : Bool) (d : List Byte) (poison : Bool) (readAt : Option Nat) : State :=
  let q := s.qch k
  if q.state ≠ 2 then s
  else
    let i := q.phys r
    let old := mread q.cells (36 * i) 36
    let q := q.store i d poison
    s.setQch k (q.keep ⟨clk, i, portB, some old, some (mread q.cells (36 * i) 36), none, readAt⟩)

/-- In clock `clk` the port is taken, or the other port accesses an index that agrees with `i` in bits [2:0] (R261, R264). -/
def Qdr.taken (q : Qdr) (clk i : Nat) (portB : Bool) : Bool :=
  q.recent.any (fun a => decide (a.clock = clk) && (a.portB == portB || decide (a.idx % 8 = i % 8)))

/-- The rod at index `i` stands between the read and the write of a partial write (R271). -/
def Qdr.locked (q : Qdr) (clk i : Nat) : Bool := q.recent.any (fun a => decide (a.idx = i) && decide (clk < a.clock))

def descDflt : Nat → BitVec 128 := fun _ => 0

/-- Descriptor `k` of the active bank. -/
def Engine.desc_ (g : Engine) (k : Nat) : BitVec 128 := tget descDflt (if g.bank then g.bank1 else g.bank0) k

/-- Rod `n` of a descriptor: its logical index and its home rod (R275). -/
def descRodAt (d : BitVec 128) (n : Nat) : Nat := (((descRod d : Int) + n * descQstep d) % 4194304).toNat
def descHomeAt (d : BitVec 128) (n : Nat) : Nat := (((descHome d : Int) + n * descHstep d) % 2048).toNat

/-- The program of an engine: its descriptors up to the one that ends it (R274, R275). -/
def Engine.prog (g : Engine) : List (BitVec 128) :=
  ((List.range 256).map g.desc_).takeWhile (fun d => descV d && !descBad d)

/-- The QDR clock, from the gun, of a descriptor's rod 0; rod n has the n-th clock after it (R261, R276). -/
def descClock (f : Nat) (d : BitVec 128) : Nat := descS d * f / 1250

/-- The logical rod that the program of engine `e` accesses in clock `clk` of its channel, if any. -/
def State.streamAt (s : State) (e clk : Nat) : Option Nat :=
  let g := s.engine e
  let f := (s.qch (e / 2)).f
  let c := clk - s.qclock (e / 2) s.pacer.gunAt
  if g.owner = 0xFFFF ∨ s.working = false then none
  else
    (g.prog.find? (fun d => within c (descClock f d) (descClock f d + descCount d - 1))).bind (fun d =>
      let r := descRodAt d (c - descClock f d)
      if (s.qch (e / 2)).limit ≤ r then none else some r)

/-- In clock `clk` a stream engine of channel `k` takes the port, or its index agrees with `i` in bits [2:0]. -/
def State.streamTakes (s : State) (k clk i : Nat) (portB : Bool) : Bool :=
  [false, true].any (fun b => match s.streamAt (2 * k + b.toNat) clk with
    | none => false
    | some r => b == portB || decide ((s.qch k).phys r % 8 = i % 8))

/-- In clock `clk` a stream engine of channel `k` accesses index `i`. -/
def State.streamUses (s : State) (k clk i : Nat) : Bool :=
  [false, true].any (fun b => match s.streamAt (2 * k + b.toNat) clk with
    | none => false
    | some r => decide ((s.qch k).phys r = i))

/-- A best-effort access to index `i` on port A may be issued now: neither maintenance, an access made nor a stream rod of
this clock stands against it (R261, R264, R267, R282, R284). A partial write needs the second clock after this one too, and
its rod may not be accessed between (R271). -/
def State.qFree (s : State) (k i : Nat) (part : Bool) : Bool :=
  let q := s.qch k
  let c := s.qclock k s.now
  let open_ : Nat → Bool := fun c => !q.taken c i false && !s.streamTakes k c i false
  decide (q.busyTo ≤ s.now) && open_ c && !q.locked c i && (!part || (open_ (c + 2) && !s.streamUses k (c + 1) i))

/-! ### Initialisation -/

/-- A write of QDR_CTRL.INIT (R266, R281). -/
def qdrInit (s : State) (m : BitVec 11) (k : Nat) : State :=
  let q := s.qch k
  if !isStwMaster m || s.chanUsed k then s.setQch k (q.event 6)
  else
    s.setQch k { q with
      freqF := q.freq, densF := q.dens, state := if q.present then 1 else 0
      initStep := if q.present then 1 else 0, replay := [], dueRetrain := false, dueZq := false, recent := [] }

/-- Steps of R266 that can fail. -/
def initCanFail (n : Nat) : Bool := decide (n = 2) || within n 5 9

/-- Retraining and ZQ calibration of channel `k` are due in heat `h` (R267). -/
def Qdr.retrainDue (q : Qdr) (k h : Nat) : Bool := decide (h % 2 ^ q.retrain.toNat = k * 2 ^ (q.retrain.toNat - 2))
def Qdr.zqDue (q : Qdr) (k h : Nat) : Bool :=
  decide (h % 2 ^ q.zq.toNat = k * 2 ^ (q.zq.toNat - 2) + 2 ^ (q.zq.toNat - 3))

/-! Training (R266, R268). -/

def dlyDflt : Nat → Nat := fun _ => 0

/-- The delays of the bits that `eyes` measures, each moved from `t` by `f`. -/
def trainDly (f : Nat → Nat → Nat) (t : Tab Nat) (eyes : List Nat) : Tab Nat :=
  eyes.zipIdx.foldl (fun t e => tput dlyDflt t e.2 (f (tget dlyDflt t e.2) e.1)) t

/-- The mean of device `d`'s 36 delays. DESIGN CHOICE (log 80): rounded down. -/
def meanDly (t : Tab Nat) (d : Nat) : Nat := ((List.range 36).map (fun b => tget dlyDflt t (36 * d + b))).sum / 36

/-- The narrowest eye among the bits of device `d`. -/
def narrowest (eyes : List EyeMeas) (d : Nat) : Nat :=
  ((eyes.drop (36 * d)).take 36).foldl (fun m e => min m e.eye) 255

/-- QDR_TRAIN after a training that measured `eyes` (R281). -/
def Qdr.trained (q : Qdr) (eyes : List EyeMeas) : Qdr :=
  { q with
    train := (List.range 4).foldl (fun t d => putW t d
      (BitVec.ofNat 32 (meanDly q.wrDly d % 256 * 65536 + meanDly q.rdDly d % 256 * 256 + narrowest eyes d % 256))) q.train }

/-- A training step of the initialisation: step 7 sets the read delays to their centres, step 8 the write delays. -/
def Qdr.initTrain (q : Qdr) (r : QdrStep) : Qdr :=
  if r.step < 7 ∨ r.eyes = [] then q
  else
    let rd := trainDly (fun _ c => c) q.rdDly (r.eyes.map (fun e => e.rdCentre))
    let wr := if 8 ≤ r.step then trainDly (fun _ c => c) q.wrDly (r.eyes.map (fun e => e.wrCentre)) else q.wrDly
    ({ q with rdDly := rd, wrDly := wr }).trained r.eyes

/-- QDR_READY: the sequence of R266 goes on to a step, fails at it, or ends; step 10 writes every rod, and no remap is left
(R270). -/
def qdrReady (s : State) (k : Nat) (res : QdrStep) : State :=
  let q := s.qch k
  if q.state ≠ 1 ∨ res.step ≤ q.initStep ∨ 11 < res.step then s
  else if !res.ok then
    if initCanFail res.step then
      (s.setQch k { q.event 4 with state := 3, initStep := res.step }).raise 0x0502 (srcW 4 k) 0
    else s
  else if res.step < 11 then s.setQch k { q.initTrain res with initStep := res.step }
  else
    let q := q.initTrain res
    let h := s.pacer.heatNum.toNat
    (s.setQch k { q with
      state := 2, initStep := 11, remap := [], cells := [], scrubPos := 0, failRun := 0, ueHeat := 0, aparHeats := 0
      aparIn := false, dueRetrain := s.pacer.open_ && q.retrainDue k h, dueZq := s.pacer.open_ && q.zqDue k h
      }).raise 0x0501 (srcW 4 k) 0

/-- A write of QDR_CTRL.FAIL (R273). -/
def qdrCtrlFail (s : State) (m : BitVec 11) (k : Nat) : State :=
  if !isStwMaster m then s.setQch k ((s.qch k).event 6) else s.qFail k

/-! ### Maintenance in the cool-down (R267) -/

/-- A maintenance step of `n` lc, in its place after those before it, ends before D − 16. -/
def Qdr.fits (q : Qdr) (d n : Nat) : Bool := decide (64 + q.used + n + 16 ≤ d)

/-- The cycle in which the next maintenance step of channel `k` begins: its offset in the cool-down is 64 and what the steps
before it have taken. -/
def State.maintains (s : State) (k : Nat) : Bool :=
  s.cooling && decide (s.coolCyc = 64 + (s.qch k).used) && decide ((s.qch k).state = 2)

/-- The step has begun in the current cycle and takes `n` lc. -/
def Qdr.busy (q : Qdr) (now n : Nat) : Qdr := { q with used := q.used + n, busyTo := now + n }

/-- QDR_WRITE_REPLAY: the writes kept by R272 are performed again, oldest first. It takes the 48 lc that R267 gives it. -/
def qdrWriteReplay (s : State) (k : Nat) : State :=
  let q := s.qch k
  if !s.maintains k || q.replay.isEmpty || decide (q.used ≠ 0) then s
  else
    let cells := q.replay.foldl (fun c a => match a.new with | some d => mwrite c (36 * a.idx) d | none => c) q.cells
    s.setQch k ({ q with cells := cells, replay := [] }.busy s.now 48)

/-- One step toward the centre of the eye (R268). -/
def toward (a c : Nat) : Nat := if a < c then a + 1 else if c < a then a - 1 else a

/-- A retraining moves the delay of each bit one step (R268). -/
def Qdr.retrainStep (q : Qdr) (eyes : List EyeMeas) : Qdr :=
  ({ q with
    rdDly := trainDly toward q.rdDly (eyes.map EyeMeas.rdCentre)
    wrDly := trainDly toward q.wrDly (eyes.map EyeMeas.wrCentre) }).trained eyes

/-- QDR_RETRAIN: when due and in its place (R267, R268). `eyes` is what it measures, `driftOk` that the drift lies within
the FIFO's range. -/
def qdrRetrain (s : State) (k : Nat) (eyes : List EyeMeas) (driftOk : Bool) : State :=
  let q := s.qch k
  if !s.maintains k || !q.dueRetrain || !q.replay.isEmpty || !q.fits s.D 320 then s
  else
    let ok := driftOk && eyes.all (fun e => decide (8 ≤ e.eye))
    let q := { (q.retrainStep (eyes.take 144)).busy s.now 320 with
      dueRetrain := false, retrainCnt := sat1 q.retrainCnt, failRun := if ok then 0 else q.failRun + 1 }
    if ok then s.setQch k q
    else
      let s := s.setQch k (q.event 2)
      if 2 ≤ q.failRun then s.qFail k else s

/-- QDR_ZQ_CALIBRATION: when due, after a retraining that still fits (R267). -/
def qdrZqCalibration (s : State) (k : Nat) : State :=
  let q := s.qch k
  if !s.maintains k || !q.dueZq || !q.replay.isEmpty || (q.dueRetrain && q.fits s.D 320) || !q.fits s.D 64 then s
  else s.setQch k { q.busy s.now 64 with dueZq := false }

/-- The lowest unused remap spare (R270). -/
def Qdr.freeSpare (q : Qdr) : Option Nat :=
  (List.range 256).find? (fun k => !(tget remapDflt q.remap k).v && !(tget remapDflt q.remap k).bad)

/-- Logical rod `r`, corrected to `d`, is remapped to the lowest unused spare; the spare it leaves is marked BAD (R270). -/
def Qdr.remapRod (q : Qdr) (r : Nat) (d : List Byte) : Qdr :=
  match q.freeSpare with
  | none => q.event 5
  | some j =>
    let old := q.remap.find? (fun e => e.2.v && decide (e.2.row = r))
    let q := q.store (q.spareBase + j) d false
    let t := match old with | some (i, _) => tput remapDflt q.remap i ⟨false, true, 0⟩ | none => q.remap
    { q with remap := tput remapDflt t j ⟨true, false, r⟩ }

/-- Scrub of logical rod `r` in clock `clk`: a corrected error is rewritten on port B and read again; one that persists is a
hard error, counted once more, and stays in the rod unless it is remapped (R269, R270). -/
def scrubRod (s : State) (k clk r : Nat) (hard : Bool) : State :=
  let q := s.qch k
  let i := q.phys r
  let d := q.decode i
  let s := s.qNote k 2 i false d.2
  match d.2 with
  | .corrected =>
    if hard then
      let s := s.qNote k 2 i false d.2
      let q := s.qch k
      if q.remapAuto then s.setQch k (q.remapRod r d.1) else s
    else s.qWrite k clk r true d.1 false (some clk)
  | _ => s

/-- Rods that scrub reads in this cool-down (R269). -/
def Qdr.scrubCount (q : Qdr) (d : Nat) : Nat := (d - 80 - q.used) * q.f / 1250

/-- The `n` logical indexes from `a` on, wrapping at `lim`. -/
def wrapRange (a n lim : Nat) : List Nat := (List.range n).map (fun i => (a + i) % lim)

/-- QDR_SCRUB: once in a cool-down, after the steps due before it; `hard` lists the rods whose error persists. A rod whose
stored difference is zero reads clean. -/
def qdrScrub (s : State) (k : Nat) (hard : List Nat) : State :=
  let q := s.qch k
  if !s.maintains k || !q.scrubEn || q.scrubbed || !q.replay.isEmpty || (q.dueRetrain && q.fits s.D 320)
      || (q.dueZq && q.fits s.D 64) then s
  else
    let n := q.scrubCount s.D
    let c := s.qclock k s.now
    let rods := (wrapRange q.scrubPos n q.limit).zipIdx.filter (fun r =>
      let i := q.phys r.1
      q.cells.any (fun e => within e.1 (36 * i) (36 * i + 35)))
    let s := rods.foldl (fun s r =>
      if (s.qch k).state = 2 then scrubRod s k (c + r.2) r.1 (hard.contains r.1) else s) s
    let q := s.qch k
    s.setQch k { q with
      scrubbed := true, busyTo := s.now + rodTime q.f n, scrubPos := (q.scrubPos + n) % q.limit
      sweepCnt := satAdd q.sweepCnt ((q.scrubPos + n) / q.limit) }

/-! ### Address-parity reports -/

/-- What index `j` holds once it has taken the write of symbols `w` meant for index `i` (R265, R272). -/
def misdirected (i j : Nat) (w : List Byte) : List Byte :=
  w.take 32 ++ xorList (w.drop 32) (xorList (idxCheck i) (idxCheck j))

/-- QDR_APAR (R272). A write that goes back to a read of the 16 clocks is not performed, since that read is delivered
poisoned (R269, R271). -/
def qdrApar (s : State) (a : AparIn) : State :=
  let k := a.chan
  let q := s.qch k
  if q.state ≠ 2 then s
  else
    let c := s.qclock k s.now
    let old_ : Nat → Bool := fun t => decide (c ≤ t + 16) && decide (t < c)
    let undone : QAcc → Bool := fun a => match a.readAt with | some t => old_ t | none => false
    let hit := q.recent.filter (fun a => old_ a.clock || undone a)
    let writes := (hit.filter (fun a => a.new.isSome && old_ a.clock && !undone a)).reverse
    let ids := hit.filterMap (fun a => if a.new.isNone then a.fid else none)
    let cells := hit.foldl (fun m a => match a.old with | some d => mwrite m (36 * a.idx) d | none => m) q.cells
    let cells := a.wrong.foldl (fun m e => match writes[e.1]? with
      | some x => if x.idx = e.2 then m else mwrite m (36 * e.2) (misdirected x.idx e.2 (x.new.getD []))
      | none => m) cells
    let q := { q.event 3 with
      aparCnt := sat1 q.aparCnt, aparHeats := if q.aparIn then q.aparHeats else q.aparHeats + 1, aparIn := true
      cells := cells, replay := q.replay ++ writes, recent := q.recent.filter (fun a => !old_ a.clock && !undone a) }
    let s := s.setQch k q
    let poisonE := fun (s : State) (e : Nat) =>
      let g := s.engine e
      s.setEngine e { g with flying := g.flying.map (fun r =>
        if c ≤ r.clock + 16 ∧ r.clock < c then { r with poison := true } else r) }
    let s := poisonE (poisonE s (2 * k)) (2 * k + 1)
    let s := { s with fab := { s.fab with resps := s.fab.resps.map (fun (r : FResp) =>
      if ids.contains r.id then { r with code := 3, data := r.data.map (fun _ => 0) } else r) } }
    let s := s.raise 0x0504 (srcW 4 k) 0
    if 4 ≤ q.aparHeats then s.qFail k else s

/-- The gun begins a heat for channel `k`: due steps that did not fit move on, and the counts of a heat restart (R267,
R273). -/
def Qdr.gun (q : Qdr) (k h : Nat) : Qdr :=
  if q.state = 2 then
    { q with
      dueRetrain := q.dueRetrain || q.retrainDue k h, dueZq := q.dueZq || q.zqDue k h, ueHeat := 0
      aparHeats := if q.aparIn then q.aparHeats else 0, aparIn := false, used := 0, busyTo := 0, scrubbed := false }
  else q

def execQdrInit (m : BitVec 11) (k : Nat) (s : State) : Answer := .next (s.live (qdrInit s m k))
def execQdrReady (k : Nat) (res : QdrStep) (s : State) : Answer := .next (s.live (qdrReady s k res))
def execQdrCtrlFail (m : BitVec 11) (k : Nat) (s : State) : Answer := .next (s.live (qdrCtrlFail s m k))
def execQdrRetrain (k : Nat) (eyes : List EyeMeas) (driftOk : Bool) (s : State) : Answer :=
  .next (s.live (qdrRetrain s k eyes driftOk))
def execQdrZqCalibration (k : Nat) (s : State) : Answer := .next (s.live (qdrZqCalibration s k))
def execQdrScrub (k : Nat) (hard : List Nat) (s : State) : Answer := .next (s.live (qdrScrub s k hard))
def execQdrApar (a : AparIn) (s : State) : Answer := .next (s.live (qdrApar s a))
def execQdrWriteReplay (k : Nat) (s : State) : Answer := .next (s.live (qdrWriteReplay s k))

end Sys2Proof.Machine
end

