-- ==== Sys2Proof/Machine/Stream.lean ====
section
/-! DEFINITION. Stream engines and multicast lists: programs, issue and arrival of rods (R274–R279). -/

namespace Sys2Proof.Machine
open Sys2Proof

/-- The contract that owns engine `e`. -/
def State.ownerOf (s : State) (h : BitVec 16) : Option Contract := s.con.find? (fun c => decide (c.handle = h.toNat))

/-- The END of the window of a seat's certificate in which cycle `c` of the heat falls (R319). -/
def Card.windowEnd (c : Card) (seat cyc : Nat) : Option Nat :=
  (c.cert.seats.find? (fun r => decide (r.seat = seat))).bind (fun r =>
    (r.win.find? (fun w => within cyc w.start w.end_)).map (fun w => w.end_))

/-- The deadline of a DIR = 0 rod of engine `e` that arrives in cycle `c` of the heat at seat `n` (R250, R319). -/
def State.streamDeadline (s : State) (e n c : Nat) : Option Nat :=
  (s.ownerOf (s.engine e).owner).bind (fun h => (h.card.windowEnd n c).map (fun w => s.pacer.gunAt + w))

/-- The seats that a descriptor reaches under the lists in force. -/
def State.destSeats (s : State) (mc : Bool) (seat : Nat) : List Nat := if mc then mcSeats (s.mcast seat) else [seat]

/-- A rod joins the sharing ports of its destination seats (R277, R279). -/
def State.toSeats (s : State) (seats : List Nat) (home cls : Nat) (dl : Nat → Option Nat) (rod : Rod) (poison : Bool) :
    State :=
  seats.foldl (fun s n =>
    match s.seatLane n with
    | none => s
    | some p => s.shAdd p (home % 2)
        { cls := cls, rod := home, deadline := dl n, fab := none, kind := .write rod fullMask none poison }) s

/-- The cycle of the heat from which rod `n` may be issued, when the rod of a DIR = 1 descriptor has been served: its τ, or
after a late rod one QDR clock a rod (R276, R278). -/
def Engine.issueAt (g : Engine) (f gun : Nat) (d : BitVec 128) (served : Option Nat) : Nat :=
  let t := gun + descS d + rodTime f g.n
  let t := match served with | some a => max t (a + 24) | none => t
  match g.shift with
  | some (m, c) => max t (c + rodTime f (g.n - m))
  | none => t

/-- After rod `n` the engine turns to the next rod, or to the next descriptor (R274). -/
def Engine.next (g : Engine) (d : BitVec 128) : Engine :=
  if g.n + 1 < descCount d then { g with n := g.n + 1 }
  else { g with desc := g.desc + 1, n := 0, asked := 0, shift := none, ended := decide (255 ≤ g.desc) }

/-- The reads of a DIR = 1 descriptor wait at the seat's sharing port, at most four at a time (R249, R277); no best-effort
request keeps them out (R282). -/
def State.askRead (s : State) (e : Nat) (d : BitVec 128) (f : Nat) : State :=
  let g := s.engine e
  if descCount d ≤ g.asked ∨ g.n + 4 ≤ g.asked then s
  else
    let h := descHomeAt d g.asked
    match s.seatLane (descSeat d) with
    | none => s
    | some p =>
      (s.setEngine e { g with asked := g.asked + 1 }).shAdd p (h % 2)
        { cls := 4, rod := h, deadline := some (s.pacer.gunAt + descS d + rodTime f g.asked - 24), fab := none,
          kind := .readStream e g.desc g.asked }

/-- The QDR clock in which rod `n` of the running descriptor is issued: its own, from the descriptor's start or from the late
rod before it; a rod that comes after that clock, or finds it taken, has the current one (R261, R276, R278). -/
def State.issueClock (s : State) (e : Nat) (d : BitVec 128) : Nat :=
  let g := s.engine e
  let k := e / 2
  let own := match g.shift with
    | some (m, c) => s.qclock k c + (g.n - m)
    | none => s.qclock k s.pacer.gunAt + descClock (s.qch k).f d + g.n
  let q := s.qch k
  let c := s.qclock k s.now
  if c ≤ own + 1 ∧ q.taken own (q.phys (descRodAt d g.n)) (decide (e % 2 = 1)) = false then own else c

/-- The port of engine `e` can take the rod in clock `c`: one access per port and clock, and no two in one bank (R261, R264).
A rod that the channel does not hold accesses nothing. -/
def State.issueHeld (s : State) (e : Nat) (d : BitVec 128) (c : Nat) : Bool :=
  let q := s.qch (e / 2)
  let r := descRodAt d (s.engine e).n
  decide (r < q.limit) && decide (q.state = 2)
    && (q.taken c (q.phys r) (decide (e % 2 = 1)) || q.locked c (q.phys r))

/-- A DIR = 0 rod is issued: it is read in this clock and arrives 48 lc after its τ (R277); a rod issued later than its τ
arrives 48 lc after its issue. -/
def State.issueRead (s : State) (e : Nat) (d : BitVec 128) (f : Nat) : State :=
  let g := s.engine e
  let k := e / 2
  let c := s.issueClock e d
  if s.issueHeld e d c then s
  else
    let r := descRodAt d g.n
    let x := if (s.qch k).limit ≤ r then ((List.replicate 32 0, true), s) else s.qRead k c r (decide (e % 2 = 1)) 0 none
    let g := x.2.engine e
    let t := s.pacer.gunAt + descS d + rodTime f g.n
    let own := decide (c = s.qclock k s.pacer.gunAt + descClock f d + g.n)
    let rod : SRod :=
      { due := (if own then t else s.now) + 48, rod := bytesRod x.1.1, poison := x.1.2, mc := descMc d,
        seat := if descMc d then descList d else descSeat d, home := descHomeAt d g.n, clock := c }
    x.2.setEngine e ({ g with flying := g.flying ++ [rod] }.next d)

/-- A DIR = 1 rod that has been served is written to its channel at its issue cycle (R277, R278). -/
def State.issueWrite (s : State) (e : Nat) (d : BitVec 128) (f : Nat) : State :=
  let g := s.engine e
  match g.reads.find? (fun r => decide (r.desc = g.desc) && decide (r.n = g.n)) with
  | none => s
  | some r =>
    let t := g.issueAt f s.pacer.gunAt d (some r.at_)
    let c := s.issueClock e d
    if s.now < t ∨ s.issueHeld e d c = true then s
    else
      let late := decide (s.pacer.gunAt + descS d + rodTime f g.n - 24 < r.at_)
      let g := { g with
        reads := g.reads.filter (fun x => decide (x ≠ r))
        shift := if late then some (g.n, s.now) else g.shift }
      let i := descRodAt d g.n
      let s := if (s.qch (e / 2)).limit ≤ i then s
        else s.qWrite (e / 2) c i (decide (e % 2 = 1)) (rodBytes r.rod) r.poison none
      s.setEngine e (g.next d)

/-- STREAM_ROD_ISSUE: the engine issues the rod that is due; before it is due, a DIR = 1 rod's read is requested. A
descriptor with V = 0, or one that R275 treats so, ends the program (R274–R278). -/
def streamRodIssue (s : State) (e : Nat) : State :=
  let g := s.engine e
  if g.owner = 0xFFFF ∨ s.working = false ∨ g.ended then s
  else
    let d := g.desc_ g.desc
    let f := (s.qch (e / 2)).f
    if !descV d then s.setEngine e { g with ended := true }
    else if descBad d then s.setEngine e { g with ended := true, baddesc := true }
    else if descDir d then (s.askRead e d f).issueWrite e d f
    else if s.now < g.issueAt f s.pacer.gunAt d none then s
    else s.issueRead e d f

/-- STREAM_ROD_ARRIVE: the oldest rod on its way reaches every destination sharing port, class 4 (R277, R249). -/
def streamRodArrive (s : State) (e : Nat) : State :=
  let g := s.engine e
  match g.flying with
  | [] => s
  | r :: rest =>
    if s.now < r.due then s
    else
      (s.setEngine e { g with flying := rest }).toSeats (s.destSeats r.mc r.seat) r.home 4
        (fun n => s.streamDeadline e n (r.due - s.pacer.gunAt)) r.rod r.poison

/-- A descriptor is running: its S has come and it has rods left (STR_STATUS.ACTIVE, R281). -/
def State.engActive (s : State) (e : Nat) : Bool :=
  let g := s.engine e
  let d := g.desc_ g.desc
  decide (g.owner ≠ 0xFFFF) && s.working && !g.ended && descV d && !descBad d && decide (descS d ≤ s.cyc)

/-- The gun: a bank switch with ARM set, and the program restarts at descriptor 0 (R274, R29). -/
def Engine.gun (g : Engine) : Engine :=
  let g := if g.arm then { g with bank := !g.bank, arm := false, owner := g.newOwner } else g
  { g with desc := 0, n := 0, ended := decide (g.owner = 0xFFFF), asked := 0, shift := none, reads := [] }

def Mcast.gun (m : Mcast) : Mcast := if m.arm then { m with bank := !m.bank, arm := false } else m

/-- Reads that the ended heat's programs still awaited are dropped. -/
def ShPort.dropStream (q : ShPort) : ShPort :=
  { q with pend := q.pend.filter (fun r => match r.kind with | .readStream _ _ _ => false | _ => true) }
def LaneMem.dropStream (m : LaneMem) : LaneMem :=
  { m with p0 := m.p0.dropStream, p1 := m.p1.dropStream, pis := m.pis.dropStream }

def execStreamRodIssue (e : Nat) (s : State) : Answer := .next (s.live (streamRodIssue s e))
def execStreamRodArrive (e : Nat) (s : State) : Answer := .next (s.live (streamRodArrive s e))

end Sys2Proof.Machine
end

