-- ==== Sys2Proof/Machine/Resets.lean ====
section
/-! DEFINITION. Power domains that are on, requests of a master that is reset, the reset of a lane, and the reseat of a seat
to its squad's reserve (R52, R229, R299, R390, R404, R455, R465). -/

namespace Sys2Proof.Machine
open Sys2Proof

/-- Domain `d` is on (R455, R469). -/
def State.domOn (s : State) (d : Nat) : Bool := s.pwr.on.getLsbD d
/-- The field of a physical lane, and whether it is on. -/
def fieldOf (p : Nat) : Nat := p / 136
def State.laneOn (s : State) (p : Nat) : Bool := decide (1088 ≤ p) || s.domOn (3 + fieldOf p)

/-- Rods in flight of master `m`. -/
def Fab.inFlight (f : Fab) (m : BitVec 11) : Bool :=
  f.reqs.any (fun r => decide (r.master = m)) || f.bridge.any (fun r => decide (r.master = m) && !r.drop)
    || f.resps.any (fun r => decide (r.master = m))

/-- A master port is reset: rods the target has received are committed, the others are discarded, and its responses are
dropped (R299). -/
def State.abortMaster (s : State) (m : BitVec 11) : State :=
  let f := s.fab
  if !f.inFlight m then { s with fab := { f with done := f.done.filter (fun r => decide (r.master ≠ m)) } }
  else
    ({ s with fab := { f with
        reqs := f.reqs.filter (fun r => decide (r.master ≠ m))
        bridge := f.bridge.map (fun (r : FRod) => if r.master = m then { r with drop := true } else r)
        resps := f.resps.filter (fun r => decide (r.master ≠ m)), done := f.done.filter (fun r => decide (r.master ≠ m))
        abort := true, abortCnt := sat1 f.abortCnt } }).raise 0x0601 0 (m.zeroExtend 64)

/-- A lane is put into the reset state of R52 under a new identity and team, as at a gun; its arrays and their remaps
stay. -/
def State.clearLane (s : State) (p : Nat) (master : BitVec 11) (team : Word) : State :=
  let old := (s.lane p).master
  let s := if old = 0x7FE then s else s.abortMaster old
  let l := laneReset p
  s.setLane p { l with master := if isStw p then l.master else master, rly := { l.rly with team := team } }

/-- A lane reset that keeps the lane's identity: the channels it sends or receives on follow (R389, R390). -/
def State.resetLane (s : State) (p : Nat) : State :=
  let l := s.lane p
  let s := s.clearLane p l.master l.rly.team
  if l.master.toNat < 0x404 then s.mbxReset l.master.toNat else s

/-- TEAM_INFO of a seat (R232): the innermost team, its tier and the number of teams that contain the seat. -/
def Card.teamInfo (c : Card) (seat : Nat) : Word :=
  let up : TeamRec → Option TeamRec := fun t => c.teams.find? (fun u => decide (u.team = t.parent))
  let rec depth : Nat → TeamRec → Nat
    | 0, _ => 0
    | n + 1, t => match up t with | some u => 1 + depth n u | none => 1
  let n := c.teams.length
  let ts := c.teams.filter (fun t => t.seats.contains seat || decide (t.front = seat))
  let inner := ts.foldl (fun (b : Option TeamRec) t => match b with
    | none => some t
    | some u => if depth n u < depth n t then some t else b) none
  match inner with
  | none => 0x0000FFFF
  | some t => b2n (decide (t.front = seat)) 31
      ||| BitVec.ofNat 32 (t.tier % 4 * 16777216 + depth n t % 256 * 65536 + t.team % 65536)

/-- The reserve lane of a lane's squad (R7). -/
def reserveOf (p : Nat) : Nat := p / 17 * 17 + 16
def isReserve (p : Nat) : Bool := decide (p < 1088) && decide (p % 17 = 16)
/-- A lane holds a seat under the seat map. -/
def State.holdsSeat (s : State) (p : Nat) : Bool := decide ((s.lane p).master.toNat < 0x400)
/-- The reserve can take a seat: its field is on and it is neither scratched nor holding a seat (R409, R459). -/
def State.reserveFree (s : State) (r : Nat) : Bool :=
  s.laneOn r && !s.pair.scratched.contains r && !s.holdsSeat r
    && !s.pair.seatMap.any (fun e => decide (e.2 = some r))

def State.setSeatLane (s : State) (n : Nat) (p : Option Nat) : State :=
  { s with pair := { s.pair with seatMap := tput seatDflt s.pair.seatMap n p } }

/-- Entries of a squad output that select slot `old` select slot 16 instead (R229). -/
def reslot (old : Nat) (t : Tab (BitVec 16)) : Tab (BitVec 16) :=
  tmap ent16 (fun _ e => if e.getLsbD 15 && decide ((e.extractLsb' 0 5).toNat = old) then (e &&& 0xFFE0) ||| 16 else e) t

/-- The reserve takes over a slot's place in its squad router (R229): the table in use and the other one keep their parts,
while the active bank of an output changes only by a switch. -/
def State.reroute (s : State) (p : Nat) : State :=
  let q := RouterId.squad (p / 17)
  let i := p % 17
  let a := s.rout q i
  let b := s.rout q 16
  let s := s.setRout q 16 (if a.bank = b.bank then a
    else { a with bank0 := a.bank1, bank1 := a.bank0, dir0 := a.dir1, dir1 := a.dir0, bank := b.bank })
  let s := s.setRout q i { routReset with refused := a.refused, bank := a.bank }
  (List.range 21).foldl (fun s n =>
    let o := s.rout q n
    s.setRout q n { o with bank0 := reslot i o.bank0, bank1 := reslot i o.bank1 }) s

/-- Seat `n` moves from lane `p` to the reserve of its squad (R70, R229, R279); the channels of the seat go
with it, and a reseat is no change of role (R379, R391). -/
def State.reseat (s : State) (n p : Nat) (team : Word) : State :=
  let r := reserveOf p
  let s := (s.reroute p).setSeatLane n (some r)
  (s.clearLane p 0x7FE 0x0000FFFF).clearLane r (BitVec.ofNat 11 n) team

/-- A lane is withdrawn for good (R404, R450). -/
def State.scratch (s : State) (p cause : Nat) : State :=
  let s := { s with pair := { s.pair with
    scratched := if s.pair.scratched.contains p then s.pair.scratched else s.pair.scratched ++ [p]
    cnt := bumpW s.pair.cnt 5 } }
  (s.raise 0x0302 (srcW 1 p) (BitVec.ofNat 64 cause)).tally 0

end Sys2Proof.Machine
end

