-- ==== Sys2Proof/Machine/Routes.lean ====
section
/-! DEFINITION. The routes that a card's RELAY section makes in one heat, traced entry by entry from each lane output back to
the sending lane (R212, R217–R220), and the repair groups they join (R403). -/

namespace Sys2Proof.Machine
open Sys2Proof

/-- The RELAY record of an output. -/
def Card.out (c : Card) (r : RouterId) (n : Nat) : Option RelayRec :=
  c.relay.find? (fun x => decide (x.router = r) && decide (x.output = n))

/-- The entry that a record's tables give in heat cycle `t`; 0 when the output is idle (R217). -/
def RelayRec.entry (x : RelayRec) (t : Nat) : BitVec 16 :=
  match phaseAt (fun k => x.dir.getD k 0) t with
  | none => 0
  | some d => if dirUse d then x.ent.getD (dirBase d + (t - dirStart d) % dirPeriod d) 0 else 0

def Card.entryAt (c : Card) (r : RouterId) (n t : Nat) : BitVec 16 := match c.out r n with | some x => x.entry t | none => 0

/-- The ring stop before stop `f` on the ring of output `n` (R212). -/
def ringPrev (f n : Nat) : Nat := if n ≤ 3 then (f + 7) % 8 else (f + 1) % 8

/-- The lane whose word output `n` of router `r` takes in cycle `t`, sent in the cycle given beside it. -/
def Card.source (c : Card) : Nat → RouterId → Nat → Nat → Option (Nat × Nat)
  | 0, _, _, _ => none
  | fuel + 1, r, n, t =>
    let e := c.entryAt r n t
    if !e.getLsbD 15 then none
    else match r with
    | .squad q =>
      let k := (e.extractLsb' 0 5).toNat
      if k ≤ 16 then (if 1 ≤ t then some (17 * q + k, t - 1) else none)
      else if n ≤ 16 ∧ k ≤ 20 ∧ 1 ≤ t then c.source fuel (.field (q / 8)) (4 * (q % 8) + (k - 17)) (t - 1)
      else none
    | .field f =>
      let k := (e.extractLsb' 0 6).toNat
      if k ≤ 31 then (if 2 ≤ t then c.source fuel (.squad (8 * f + k / 4)) (17 + k % 4) (t - 2) else none)
      else if k ≤ 39 ∧ 3 ≤ t then c.source fuel (.ring (ringPrev f (k - 32))) (k - 32) (t - 3)
      else none
    | .ring f =>
      if e.getLsbD 0 then (if 2 ≤ t then c.source fuel (.field f) (32 + n) (t - 2) else none)
      else if 1 ≤ t then c.source fuel (.ring (ringPrev f n)) n (t - 1) else none

/-- One word that the tables route in a heat: sender, send cycle, destination lane, arrival cycle, and the remote move's
destination port, 128 for the queue. -/
structure Route where
  src : Nat
  sent : Nat
  dst : Nat
  at_ : Nat
  port : Nat
  deriving DecidableEq, Repr

/-- The words that reach lanes in the contract part of a heat (R217, R218). -/
def Card.routes (c : Card) : List Route :=
  (c.relay.filter (fun x => match x.router with | .squad _ => decide (x.output ≤ 16) | _ => false)).flatMap (fun x =>
    match x.router with
    | .squad q =>
      (List.range (c.heatLen - coolLen c.heatLen)).filterMap (fun t =>
        (c.source 16 (.squad q) x.output t).map (fun y =>
          let e := x.entry t
          { src := y.1, sent := y.2, dst := 17 * q + x.output, at_ := t + 1,
            port := if e.getLsbD 14 then (e.extractLsb' 7 7).toNat else 128 }))
    | _ => [])

/-- The seat of a lane slot under the default placement (R7). -/
def slotSeat (p : Nat) : Option Nat := if p < 1088 ∧ p % 17 < 16 then some (16 * (p / 17) + p % 17) else none

def Card.seatRec (c : Card) (n : Nat) : Option SeatRec := c.seats.find? (fun r => decide (r.seat = n))
def Card.role (c : Card) (n : Nat) : Nat := match c.seatRec n with | some r => r.role | none => 0
def Card.partner (c : Card) (n : Nat) : Nat := match c.seatRec n with | some r => r.partner | none => 0xFFFF

/-- Pairs of seats of one side that a route joins (R403). -/
def Card.links (c : Card) : List (Nat × Nat) :=
  c.routes.filterMap (fun r =>
    match slotSeat r.src, slotSeat r.dst with
    | some a, some b => if a ≠ b ∧ c.role a = c.role b then some (a, b) else none
    | _, _ => none)

/-- Grow a set of seats along links, `n` times. -/
def growSet (links : List (Nat × Nat)) : Nat → List Nat → List Nat
  | 0, g => g
  | n + 1, g =>
    let new := links.filterMap (fun l =>
      if g.contains l.1 && !g.contains l.2 then some l.2
      else if g.contains l.2 && !g.contains l.1 then some l.1 else none)
    if new.isEmpty then g else growSet links n (g ++ new.eraseDups)

/-- The repair group of a seat (R403). -/
def Card.group (c : Card) (n : Nat) : List Nat := growSet c.links 1024 [n]

end Sys2Proof.Machine
end

