-- ==== Sys2Proof/Machine/Pairing.lean ====
section
/-! DEFINITION. Pairing: sample points and the comparator, the side delivered, the actions of a fault, repair copies, shadow
tests of reserves and the steward pairs (R395–R412). -/

namespace Sys2Proof.Machine
open Sys2Proof

/-! ### Sample points -/

def pairSel0 (n : Nat) : PairSel :=
  { lead := n, miss := false, partnerSel := false, disputed := false, leadFlag := false, partFlag := false, counted := false }
def getSel (l : List PairSel) (n : Nat) : PairSel := (l.find? (fun x => decide (x.lead = n))).getD (pairSel0 n)
def putSel (x : PairSel) (l : List PairSel) : List PairSel := x :: l.filter (fun y => decide (y.lead ≠ x.lead))

/-- Count `k` of the eight pairing counters, and of the firmware's own counts (R415, R447). -/
def State.pcount (s : State) (k : Nat) : State := { s with pair := { s.pair with cnt := bumpW s.pair.cnt k } }

/-- Record the flag of a lane at sample point `pt` in SPL_SAMPLE and clear it; a fenced lane's flag stays set (R160, R163,
R192). -/
def Lane.sample (l : Lane) (pt : Nat) : Lane :=
  let x := l.spl
  let f := x.flag
  let x := if pt = 10 then { x with sampleGun := f }
    else if pt = 9 then { x with sampleE := f }
    else { x with sampleK := (x.sampleK &&& ~~~((1 : BitVec 8) <<< (pt - 1))) ||| (if f then (1 : BitVec 8) <<< (pt - 1) else 0) }
  { l with spl := { x with flag := f && l.mode == .fenced } }

/-- Sample the lane of a seat: its signature and flag, unless it holds no running lane. -/
def State.sampleSeat (s : State) (n pt : Nat) : Option (Word × Bool) × State :=
  match s.seatLane n with
  | none => (none, s)
  | some p =>
    let s := s.settle p
    let l := s.lane p
    if l.mode == .held then (none, s) else (some (l.spl.sig, l.spl.flag), s.setLane p (l.sample pt))

/-- Every seat of the contract is sampled, in record order. -/
def State.sampleAll (s : State) (c : Contract) (pt : Nat) : List (Nat × Option (Word × Bool)) × State :=
  c.card.seats.foldl (fun a r =>
    let x := a.2.sampleSeat r.seat pt
    (a.1 ++ [(r.seat, x.1)], x.2)) ([], s)

/-- A point falls no later than the cycle that fixes the selection (R399). -/
def Contract.decides (c : Contract) (pt : Nat) : Bool :=
  if pt = 9 then true
  else if pt = 10 then decide (c.card.heatLen ≤ c.card.win.e)
  else decide (c.card.win.k.getD (pt - 1) 0 ≤ c.card.win.e)

/-- The pair comparator on one active pair at a sample point (R398, R400, R401). `due` is the gun of an action. -/
def State.comparePair (s : State) (c : Contract) (r : SeatRec) (pt due : Nat) (a b : Word × Bool) : State :=
  let x := getSel c.sel r.seat
  let x := if c.decides pt then { x with leadFlag := x.leadFlag || a.2, partFlag := x.partFlag || b.2 } else x
  if a.1 = b.1 then
    let s := s.setContract { c with sel := putSel x c.sel }
    let s := if a.2 then (s.pcount 3).tally 7 else s
    if b.2 then (s.pcount 3).tally 7 else s
  else
    let first := !x.miss
    let decide_ := first && c.decides pt
    let x := { x with
      miss := true
      partnerSel := if decide_ then a.2 && !b.2 else x.partnerSel
      disputed := if decide_ then a.2 == b.2 else x.disputed }
    let s := s.setContract { c with sel := putSel x c.sel }
    let s := if first then (s.pcount 0).tally 4 else s
    let s := if decide_ && (a.2 == b.2) then
        s.raise 0x0301 (srcW 2 r.seat)
          (BitVec.ofNat 64 (pt + (if a.2 then 16 else 0) + (if b.2 then 32 else 0) + (a.1 ^^^ b.1).toNat * 4294967296))
      else s
    if a.2 != b.2 then
      match s.seatLane (if a.2 then r.seat else r.partner) with
      | some p => s.faultCause p .history 1 due
      | none => s
    else if first then
      match s.seatLane r.partner with | some p => s.faultCause p .refresh 0 due | none => s
    else s

/-- A pair that runs single: the flag of the running side marks its result, and a flag on a source restarts its group's
sweeps (R400, R409). -/
def State.singlePair (s : State) (c : Contract) (r : SeatRec) (pt : Nat) (a b : Option (Word × Bool)) : State :=
  let fa := match a with | some x => x.2 | none => false
  let fb := match b with | some x => x.2 | none => false
  let x := getSel c.sel r.seat
  let x := if c.decides pt then { x with leadFlag := x.leadFlag || fa, partFlag := x.partFlag || fb } else x
  let s := s.setContract { c with sel := putSel x c.sel }
  let s := if fa && decide (s.seatState r.seat = 2) then s.sourceFault r.partner else s
  if fb && decide (s.seatState r.partner = 2) then s.sourceFault r.seat else s

/-- Sample point `pt` of contract `h` in the current cycle. -/
def State.samplePoint (s : State) (h pt due : Nat) : State :=
  match s.contract h with
  | none => s
  | some c =>
    if !c.running || c.sampled.contains pt then s
    else
      let q := s.sampleAll c pt
      let s := q.2.setContract { c with sampled := pt :: c.sampled }
      let val : Nat → Option (Word × Bool) := fun n => (q.1.find? (fun e => decide (e.1 = n))).bind (fun e => e.2)
      if !c.card.paired then
        c.card.seats.foldl (fun s r =>
          match s.contract h with
          | none => s
          | some c =>
            let x := getSel c.sel r.seat
            let f := match val r.seat with | some v => v.2 | none => false
            s.setContract { c with sel := putSel { x with leadFlag := x.leadFlag || (f && c.decides pt) } c.sel }) s
      else
        (c.card.seats.filter (fun r => decide (r.role = 1))).foldl (fun s r =>
          match s.contract h with
          | none => s
          | some c =>
            match val r.seat, val r.partner with
            | some a, some b =>
              if s.seatState r.seat = 0 ∧ s.seatState r.partner = 0 then s.comparePair c r pt due a b
              else s.singlePair c r pt (some a) (some b)
            | a, b => s.singlePair c r pt a b) s

/-- The number of a sample point in RESULT_DISPUTED (R400). -/
def pointNum : SamplePoint → Nat
  | .k n => n
  | .egress => 9
  | .gun => 10

/-- The current cycle is that sample point of the contract (R398). -/
def State.atPoint (s : State) (c : Contract) : SamplePoint → Bool
  | .k n => within n 1 c.card.win.k.length && s.pacer.open_ && decide (s.cyc = c.card.win.k.getD (n - 1) 0)
  | .egress => s.pacer.open_ && decide (c.card.win.e < s.L) && decide (s.cyc = c.card.win.e)
  | .gun => s.pacer.open_ && s.pacer.gunDue s.now

/-- COMPARE_POINT (R398). -/
def comparePoint (s : State) (h : Nat) (pt : SamplePoint) : State :=
  match s.contract h with
  | none => s
  | some c =>
    if s.atPoint c pt then s.samplePoint h (pointNum pt) (s.pacer.heatNum.toNat + (if pt = .gun then 2 else 1)) else s

/-! ### The delivered side -/

/-- The seat that an element is read from, and its marks, under the comparisons of a heat (R399–R402). -/
def State.side (s : State) (c : Contract) (n : Nat) (sel : List PairSel) : Nat × BitVec 2 :=
  let x := getSel sel n
  let fl : Bool → BitVec 2 := fun b => if b then 1 else 0
  let ds : BitVec 2 := if x.disputed then 2 else 0
  if !c.card.paired then (n, fl x.leadFlag)
  else if c.card.role n ≠ 1 then (n, 0)
  else
    let q := c.card.partner n
    if s.seatState n ≠ 0 ∨ s.seatState q ≠ 0 then
      if s.seatState n = 1 ∨ s.seatLane n = none ∨ s.pair.off.contains n then (q, fl x.partFlag ||| ds)
      else (n, fl x.leadFlag ||| ds)
    else if x.partnerSel then (q, ds) else (n, ds)

/-- A delivered result is counted once a pair and heat (R415). -/
def State.countSide (s : State) (h n : Nat) (prev : Bool) (mark : BitVec 2) : State :=
  match s.contract h with
  | none => s
  | some c =>
    let l := if prev then c.selPrev else c.sel
    let x := getSel l n
    if x.counted then s
    else
      let l := putSel { x with counted := true } l
      let c := if prev then { c with selPrev := l } else { c with sel := l }
      let f := mark.getLsbD 0
      let d := mark.getLsbD 1
      let s := s.setContract { c with
        flagged := if f then sat1 c.flagged else c.flagged, disputed := if d then sat1 c.disputed else c.disputed }
      let s := if f then (s.pcount 2).tally 6 else s
      if d then (s.pcount 1).tally 5 else s

/-! ### Fault actions at the gun (R401–R405) -/

/-- A lane is held for repair: in lane reset under its seat (R404). -/
def State.hold (s : State) (p : Nat) : State :=
  let s := s.resetLane p
  let s := s.setLane p { s.lane p with mode := .held }
  s.setLmem p { s.lmem p with fresh := [] }

/-- The gun's heat number. -/
def State.heatN (s : State) : Nat := s.pacer.heatNum.toNat

/-- A copy joins the queue in the order of its action gun, and within a gun in order of physical lane (R405). -/
def insCopy (c : Copy) : List Copy → List Copy
  | [] => [c]
  | d :: r => if d.gun < c.gun ∨ d.lane ≤ c.lane then d :: insCopy c r else c :: d :: r

/-- Queue the copy of held member `m` (R405); a refresh in place is counted, and its heat recorded (R401, R415). -/
def State.queueCopy (s : State) (gid m lp sp : Nat) (reseat : Bool) : State :=
  let s := if reseat then s
    else { (s.pcount 4).tally 1 with pair := { (s.pcount 4).pair with
      lastRefresh := putN s.pair.lastRefresh lp (s.heatN + 1) } }
  let c : Copy := { seat := m, lane := lp, src := sp, gid := gid, gun := s.heatN, pos := 0, reseat := reseat }
  { s with pair := { s.pair with copies := insCopy c s.pair.copies } }

/-- Hold member `m` of a group and queue its copy (R403, R404). A member that another group holds is copied for this group
too, and resumes with the later one (R409). -/
def State.holdMember (s : State) (c : Contract) (gid m : Nat) (acted reseat : Bool) : State :=
  let q := c.card.partner m
  match s.seatLane m, s.seatLane q with
  | some lp, some sp =>
    if s.seatState m = 1 then s.queueCopy gid m lp sp false
    else if (s.lane lp).mode == .held || (!acted && (decide (s.seatState m ≠ 0) || decide (s.seatState q ≠ 0))) then
      if s.seatState m = 2 then s.sourceFault q else s
    else
      let s := ((s.hold lp).setSeatState m 1).setSeatState q 2
      (s.setLmem sp { s.lmem sp with dirty := [] }).queueCopy gid m lp sp reseat
  | _, _ => s

/-- The lane has no reserve to go to: its seat holds no lane, and every pair of the group runs single until service
(R409). -/
def State.loseLane (s : State) (c : Contract) (n p : Nat) (group : List Nat) : State :=
  let s := (s.clearLane p 0x7FE 0x0000FFFF).setSeatLane n none
  group.foldl (fun s m =>
    let q := c.card.partner m
    if s.seatState m ≠ 0 ∨ s.seatState q ≠ 0 then s
    else (s.singleOff m q).raise 0x0304 (srcW 2 m) (BitVec.ofNat 64 (q % 65536))) s

/-- One action on the lane of a seat of an active paired contract, at its gun (R401–R404, R409). -/
def State.actOn (s : State) (a : Act) : State :=
  match s.seatOf a.lane with
  | none => s
  | some (c, r) =>
    if c.handle ≠ a.handle ∨ c.state ≠ .active ∨ (s.lane a.lane).mode = .held then s
    else
      let kind := s.resolve a.lane s.heatN a.kind
      if s.seatState r.seat ≠ 0 ∨ s.seatState r.partner ≠ 0 then
        if kind = .scratch then
          { s with pair := { s.pair with deferred := s.pair.deferred ++ [(c.handle, a.lane, a.cause)] } }
        else s
      else
        let group := c.card.group r.seat
        let s := if kind = .scratch then s.scratch a.lane a.cause else s
        if kind = .scratch ∧ (isReserve a.lane ∨ s.reserveFree (reserveOf a.lane) = false) then
          s.loseLane c r.seat a.lane group
        else
          let moved := decide (kind = .scratch)
          let s := if moved then s.reseat r.seat a.lane (c.card.teamInfo r.seat) else s
          let gid := s.pair.nextGid
          let s := { s with pair := { s.pair with
            nextGid := gid + 1
            groups := s.pair.groups ++ [{ gid := gid, handle := c.handle, gunNum := s.heatN, resume := none, restart := false }] } }
          group.foldl (fun s m => s.holdMember c gid m (decide (m = r.seat)) (moved && decide (m = r.seat))) s

/-- Sweeps whose restart is due begin again at row 0 (R409). -/
def State.restartSweeps (s : State) : State :=
  s.pair.groups.foldl (fun s g =>
    if !g.restart then s
    else
      let cs := s.pair.copies.filter (fun c => decide (c.gid = g.gid))
      let s := cs.foldl (fun s c =>
        let s := s.setLmem c.src { s.lmem c.src with dirty := [] }
        s.setLmem c.lane { s.lmem c.lane with fresh := [] }) s
      { s with pair := { s.pair with
          copies := s.pair.copies.map (fun (c : Copy) => if c.gid = g.gid then { c with pos := 0 } else c)
          groups := s.pair.groups.map (fun (x : Group) => if x.gid = g.gid then { x with restart := false } else x) } }) s

/-- Every copy and queue entry of a contract ends, and its seats' states and actions with them; the scratching of a lane
stays scheduled (R29, R324, R409). -/
def State.forgetPairs (s : State) (c : Contract) : State :=
  let own : Nat → Bool := fun n => (c.card.seatRec n).isSome
  { s with pair := { s.pair with
      copies := s.pair.copies.filter (fun (x : Copy) => !own x.seat)
      groups := s.pair.groups.filter (fun (x : Group) => decide (x.handle ≠ c.handle))
      acts := s.pair.acts.filterMap (fun (x : Act) =>
        if x.handle ≠ c.handle then some x
        else if s.resolve x.lane x.gun x.kind = .scratch then some { x with kind := .scratch, handle := 65536 } else none)
      off := s.pair.off.filter (fun n => !own n)
      seatSt := s.pair.seatSt.filter (fun e => !own e.1) } }

/-! ### The repair copy (R405–R408) -/

/-- The field of the mover that serves a copy: that of the held lane. -/
def Copy.field (c : Copy) : Nat := fieldOf c.lane

/-- Rod cycles that a field mover has in one cool-down, and those that have come by now (R405). -/
def State.moverBudget (s : State) : Nat := s.D - 28
def State.moverCome (s : State) : Nat := min (s.coolCyc - 3) s.moverBudget

/-- Copy the rod at place `i` of the sweep, unless a sharer has written it on the held lane (R405, R406). It uses one cycle of
the array at each end; `e` comes over it on its way (R247, R248). -/
def State.copyRod (s : State) (src dst i : Nat) (e : HopErr) : State :=
  let a := sweepAddr i
  if (s.lmem dst).fresh.contains i then s
  else
    let q := ((s.useRods src [a]).useRods dst [a]).rodRead src a 3
    let h := hopPass (bytesRod q.1.data) e
    (if h.2 then q.2.hopFail else q.2).rodWrite dst a (rodBytes h.1) (if q.1.bad || h.2 then 0 else q.1.tags) (q.1.bad || h.2)

/-- The arrays at both ends of the rod at place `i` are idle in this cycle (R248). -/
def State.copyFree (s : State) (src dst i : Nat) : Bool :=
  let k := arrOf (sweepAddr i)
  (s.lmem dst).fresh.contains i || (s.arrFree src k && s.arrFree dst k)

/-- Copy `c` has moved one more rod of its sweep. -/
def State.advance (s : State) (c : Copy) : State :=
  { s with pair := { s.pair with copies := s.pair.copies.map (fun (d : Copy) =>
      if d.seat = c.seat ∧ d.gid = c.gid then { d with pos := c.pos + 1 } else d) } }

def State.movedBy (s : State) (f n : Nat) : State :=
  { s with pair := { s.pair with moved := putN s.pair.moved f (getN s.pair.moved f + n) } }

/-- Field mover `f` moves up to `n` sweep rods in the order of its queue, as far as it finds the arrays idle. -/
def State.sweep (s : State) (f : Nat) (e : HopErr) : Nat → State
  | 0 => s
  | n + 1 =>
    match s.pair.copies.find? (fun c => decide (c.field = f) && decide (c.pos < 2560)) with
    | none => s
    | some c =>
      if s.copyFree c.src c.lane c.pos then
        (((s.copyRod c.src c.lane c.pos e).advance c).movedBy f 1).sweep f e n
      else s

/-- REPAIR_SWEEP: in the cool-down a field mover moves the rods whose cycles have come, one a cycle from cycle 4 (R405). -/
def repairSweep (s : State) (mv : MoverIn) : State :=
  let f := mv.field
  if !s.cooling || !s.domOn (3 + f) then s else s.sweep f mv.hop (s.moverCome - getN s.pair.moved f)

/-- The lane-state record of R408. -/
def Lane.carry (src dst : Lane) : Lane :=
  { dst with
    w := src.w, g := src.g, u := src.u, c := src.c, fcap := src.fcap, tdt := src.tdt
    trap := { dst.trap with
      mask := src.trap.mask, curNum := src.trap.curNum, curOt := src.trap.curOt, scr := src.trap.scr
      cause := src.trap.cause, addr := src.trap.addr }
    ctl := { dst.ctl with pc := src.ctl.pc, rstk := src.ctl.rstk, top := src.ctl.top, depth := src.ctl.depth, rc := src.ctl.rc }
    spl := { dst.spl with
      schkTrap := src.spl.schkTrap, tmrArm := src.spl.tmrArm, tmrPer := src.spl.tmrPer, tmrCyc := src.spl.tmrCyc
      tmrFrom := src.spl.tmrFrom, lastSig := src.spl.lastSig, sampleK := src.spl.sampleK, sampleE := src.spl.sampleE
      sampleGun := src.spl.sampleGun, flag := false }
    cfg := src.cfg }

/-- Copy a member's dirty rows and its lane-state record (R407, R408). -/
def State.finishCopy (s : State) (c : Copy) : State :=
  let d := (s.lmem c.src).dirty
  let s := d.foldl (fun s i => s.copyRod c.src c.lane i noHopErr) s
  let s := s.setLmem c.src { s.lmem c.src with dirty := [] }
  let s := s.settle c.src
  let s := s.setLane c.lane ((s.lane c.src).carry (s.lane c.lane))
  s.movedBy c.field (d.length + 24)

/-- What field mover `f` still has to move for a group. -/
def State.groupNeed (s : State) (cs : List Copy) (f : Nat) : Nat :=
  (cs.filter (fun c => decide (c.field = f))).foldl (fun n c => n + (s.lmem c.src).dirty.length + 24) 0

/-- GROUP_RESUME: the group of a held seat is completed in the first cool-down that meets R407. -/
def groupResume (s : State) (h n : Nat) : State :=
  match s.pair.copies.find? (fun c => decide (c.seat = n)
      && s.pair.groups.any (fun g => decide (g.gid = c.gid) && g.resume.isNone)) with
  | none => s
  | some c0 =>
    match s.pair.groups.find? (fun g => decide (g.gid = c0.gid) && decide (g.handle = h)) with
    | none => s
    | some g =>
      let cs := s.pair.copies.filter (fun c => decide (c.gid = g.gid))
      if !s.cooling || g.resume.isSome || g.restart then s
      else if cs.any (fun c => decide (c.pos < 2560) || (s.lane c.src).mode != .wait) then s
      else if (List.range 8).any (fun f =>
          decide (s.moverBudget < getN s.pair.moved f + s.groupNeed cs f) && decide (0 < s.groupNeed cs f)) then s
      else
        let s := cs.foldl State.finishCopy s
        { s with pair := { s.pair with groups := s.pair.groups.map (fun (x : Group) =>
            if x.gid = g.gid then { x with resume := some (s.heatN + 1) } else x) } }

/-- Members of groups that resume at the current gun wait in `spl.wait` with their partners; RESEAT_DONE follows (R407,
R389). -/
def State.resumeGroups (s : State) : State :=
  let n := s.heatN
  let gs := s.pair.groups.filter (fun g => decide (g.resume = some n))
  gs.foldl (fun s g =>
    let cs := s.pair.copies.filter (fun c => decide (c.gid = g.gid))
    let s := { s with pair := { s.pair with
      copies := s.pair.copies.filter (fun (c : Copy) => decide (c.gid ≠ g.gid))
      groups := s.pair.groups.filter (fun (x : Group) => decide (x.gid ≠ g.gid)) } }
    cs.foldl (fun s c =>
      let later := s.pair.copies.any (fun d => decide (d.lane = c.lane))
      if later then s
      else
        let s := s.setLane c.lane { s.lane c.lane with mode := .wait }
        let q := (s.con.findSome? (fun k => (k.card.seatRec c.seat).map (fun r => r.partner))).getD 0
        let s := (s.setSeatState c.seat 0).setSeatState q 0
        let s := if c.reseat then (s.pcount 6).tally 2 else s
        let s := (List.range 64).foldl (fun s k =>
          let ch := s.chan k
          if ch.bindV && decide (ch.receiver.toNat = c.seat) then
            let s := s.setChan k ch.receiverReset
            if ch.full then s.pendInt c.lane 0 else s
          else s) s
        s.raise 0x0303 (srcW 2 c.seat) (BitVec.ofNat 64 (c.lane + (n - g.gunNum) % 65536 * 65536))) s) s

/-! ### Shadow tests of reserves (R410) -/

/-- SHADOW_TEST of reserve `p`: `sigOk` is whether the test image leaves its signature, `copyOk` whether the rods come over
unchanged; what is then read back is compared by its CRC-32C. -/
def shadowTest (s : State) (p : Nat) (sigOk copyOk : Bool) : State :=
  if !s.cooling || !isReserve p || s.holdsSeat p || s.pair.seatMap.any (fun e => decide (e.2 = some p)) || !s.laneOn p || s.pair.scratched.contains p
      || s.pair.copies.any (fun c => decide (c.field = fieldOf p)) || decide (getN s.pair.shadowIn p = s.heatN + 1) then s
  else
    let s := { s with pair := { s.pair with shadowIn := putN s.pair.shadowIn p (s.heatN + 1) } }
    -- the rod copy: 64 rods from seat slot HEAT_NUM mod 16 of the squad
    let src := p / 17 * 17 + s.heatN % 16
    let rods := (List.range 64).map (fun i => 32 * i)
    let s := (List.range 64).foldl (fun s i =>
      let q := s.rodRead src (32 * i) 3
      q.2.rodWrite p (32 * i) q.1.data q.1.tags q.1.bad) ((s.useRods src rods).useRods p rods)
    let crc : Nat → Word := fun q => crc32c (rods.flatMap (fun a => (s.rodPeek q a).data))
    if sigOk && copyOk && decide (crc src = crc p) then { s with pair := { s.pair with shadow := putN s.pair.shadow p 0 } }
    else
      let s := (s.pcount 7).tally 3
      let s := s.resetLane p
      if getN s.pair.shadow p = 0 then { s with pair := { s.pair with shadow := putN s.pair.shadow p 1 } }
      else { s with pair := { s.pair with shadow := putN s.pair.shadow p 0 } }.scratch p 5

/-! ### Steward pairs (R411) -/

/-- The lanes of the pair on standby. -/
def State.stbyPair (s : State) : List Nat := if s.pair.svc then [1088, 1089] else [1090, 1091]

/-- STEWARD_DUPLEX_MISMATCH of the pair in service: the standby, when healthy, takes service at the next gun. -/
def stewardDuplexMismatch (s : State) : State :=
  if s.pair.stbyOk then { s with pair := { s.pair with takeover := true } } else s

/-- A steward pair is reset: its lanes start in the boot ROM again (R411, R465). -/
def State.resetPair (s : State) (ps : List Nat) : State := ps.foldl State.resetLane s

/-- STANDBY_SELF_TEST_DONE: the reset pair becomes the healthy standby. -/
def standbySelfTestDone (s : State) : State :=
  if s.pair.selfTest then { s with pair := { s.pair with selfTest := false, stbyOk := true } } else s

def execComparePoint (h : Nat) (pt : SamplePoint) (s : State) : Answer := .next (s.live (comparePoint s h pt))
def execRepairSweep (mv : MoverIn) (s : State) : Answer := .next (s.live (repairSweep s mv))
def execGroupResume (h seat : Nat) (s : State) : Answer := .next (s.live (groupResume s h seat))
def execShadowTest (p : Nat) (sigOk copyOk : Bool) (s : State) : Answer := .next (s.live (shadowTest s p sigOk copyOk))
def execStewardDuplexMismatch (s : State) : Answer := .next (s.live (stewardDuplexMismatch s))
def execStandbySelfTestDone (s : State) : Answer := .next (s.live (standbySelfTestDone s))

end Sys2Proof.Machine
end

