-- ==== Sys2Proof/Machine/PortUnit.lean ====
section
/-! DEFINITION. Serial ports: modes, counters, link states, received frames and cells, and the ingest maps and delivery paths
(R326–R336, R343–R351). -/

namespace Sys2Proof.Machine
open Sys2Proof

/-! ### Ports -/

/-- The SERDES domain of a port (R455). -/
def portDomain (k : Nat) : Nat := if k < 8 then 15 else 16
/-- The SerDes PLL of the group is locked (R464, CLK_STATUS[7:6]). -/
def State.portClock (s : State) (k : Nat) : Bool := s.pwr.clk.getLsbD (6 + k / 8)
def Port.isEth (t : Port) : Bool := decide (t.mode = 1) || decide (t.mode = 2)
def Port.isKaong (t : Port) : Bool := decide (t.mode = 3)

/-- Counter `i` of the block at 0x040 (R351) advances. -/
def Port.count (t : Port) (i : Nat) : Port := { t with cnt := bumpW t.cnt i }
def cRxOk : Nat := 0
def cRxFcs : Nat := 1
def cRxFilter : Nat := 2
def cRxLen : Nat := 3
def cRxDup : Nat := 4
def cRxStwDrop : Nat := 5
def cTxOk : Nat := 6
def cTxBad : Nat := 7
def cFecCe : Nat := 8
def cFecUe : Nat := 9
def cKSync : Nat := 10
def cKShort : Nat := 11
def cKCrc : Nat := 12
def cKSeq : Nat := 13
def cKLockLoss : Nat := 14
def Port.event (t : Port) (k : Nat) : Port := { t with events := t.events ||| ((1 : BitVec 5) <<< k) }

/-- D_out and the readiness of ingest rods in lc (R326, R333). -/
def Port.dOut (t : Port) : Nat := if t.mode = 2 then 272 else 224
def Port.readyLc (t : Port) : Nat := if t.mode = 2 then 174 else 46

/-- A change of mode restarts the link (R326). -/
def Port.setMode (t : Port) (m : BitVec 3) : Port :=
  if 4 ≤ m.toNat then t
  else if m = t.mode then t
  else
    { t with mode := m, kstate := 0, lock := false, cdr := false, crcRun := 0, seqRx := none, lastTrain := none,
             nonData := 0, txBusy := 0, hdrRun := 0, hdrs := 0 }

/-! ### The records in force -/

/-- The gun at which a contract leaves: its own withdrawal, or the start of the card that replaces it (R323, R336). -/
def State.leaves (s : State) (c : Contract) : Option Nat :=
  match c.pendW with
  | some w => some w
  | none =>
    (s.con.find? (fun d => decide (d.replaced = some c.handle) && d.state == .scheduled)).map (fun d => d.startGun)

/-! ### Record banks (R330, R337, R351) -/

/-- The record headers of a bank that are in use (N ≠ 0), each with its elements; ELEM_BASE stands at offset `eb`. -/
def bankHeads (m : Mem) (eb : Nat) : List (List Byte × List Word) :=
  (List.range 8).filterMap (fun j =>
    let h := mread m (32 * j) 32
    let n := leAt h 2 2
    if n = 0 then none
    else some (h, (List.range n).map (fun i => leWordAt (mread m (0x100 + 4 * ((leAt h eb 2 + i) % 512)) 4) 0)))

def bankIngest (m : Mem) : List IngestRec :=
  (bankHeads m 14).map (fun x =>
    { port := leAt x.1 0 1, kind := leAt x.1 1 1, srcIp := leWordAt x.1 4, dstIp := leWordAt x.1 8,
      dstUdp := BitVec.ofNat 16 (leAt x.1 12 2), status := leWordAt x.1 16, map := x.2 })

def bankEgress (m : Mem) : List EgressRec :=
  (bankHeads m 28).map (fun x =>
    { port := leAt x.1 0 1, kind := leAt x.1 1 1, ofs := leAt x.1 4 4, dstMac := (x.1.drop 8).take 6,
      vlan := BitVec.ofNat 16 (leAt x.1 14 2), dstIp := leWordAt x.1 16, srcUdp := BitVec.ofNat 16 (leAt x.1 20 2),
      dstUdp := BitVec.ofNat 16 (leAt x.1 22 2), tos := byteAt x.1 24, ttl := byteAt x.1 25,
      trailer := (byteAt x.1 26).getLsbD 0, elem := x.2 })

/-- The bytes of one record header. -/
def IngestRec.head (r : IngestRec) (base : Nat) : List Byte :=
  leBytes r.port 1 ++ leBytes r.kind 1 ++ leBytes r.map.length 2 ++ leW r.srcIp ++ leW r.dstIp ++ leBytes r.dstUdp.toNat 2
    ++ leBytes base 2 ++ leW r.status ++ List.replicate 12 0

def EgressRec.head (r : EgressRec) (base : Nat) : List Byte :=
  leBytes r.port 1 ++ leBytes r.kind 1 ++ leBytes r.elem.length 2 ++ leBytes r.ofs 4 ++ (r.dstMac ++ List.replicate 6 0).take 6
    ++ leBytes r.vlan.toNat 2 ++ leW r.dstIp ++ leBytes r.srcUdp.toNat 2 ++ leBytes r.dstUdp.toNat 2
    ++ [r.tos, r.ttl, if r.trailer then 1 else 0, 0] ++ leBytes base 2 ++ [0, 0]

/-- A bank written with records: header j in order, its elements behind those of the records before it. -/
def putRecs {α : Type} (head : α → Nat → List Byte) (elems : α → List Word) (m : Mem) : Nat → Nat → List α → Mem
  | _, _, [] => m
  | j, base, r :: l =>
    putRecs head elems (mwrite (mwrite m (32 * j) (head r base)) (0x100 + 4 * base) ((elems r).flatMap leW))
      (j + 1) (base + (elems r).length) l

def ingestBank (l : List IngestRec) : Mem := putRecs IngestRec.head (fun r => r.map) [] 0 0 l
def egressBank (l : List EgressRec) : Mem := putRecs EgressRec.head (fun r => r.elem) [] 0 0 l

/-! Instants are counted in 50 ps from the start of cycle 0, 16 to a lane cycle (R327, R343). -/

/-- The receive timestamp of an input that began `ago` before the end of the current cycle, corrected for the board path. -/
def State.rxStamp (s : State) (k ago : Nat) : Int :=
  16 * ((s.now : Int) + 1) - ago + ((s.port k).tsCorr.extractLsb' 16 16).toInt

/-- The PTP time of an instant (R17, R343), in 50 ps. -/
def State.ptpAt (s : State) (x : Int) : Nat := (4 * (s.pacer.ptpT : Int) + (x - 16 * s.now)).toNat

/-- The cycle that an instant lies in. -/
def instCycle (x : Int) : Nat := (x / 16).toNat

/-- The owner of port `k` and its ingest records in force at an instant: from the switch cycle on those of the other bank, and
before a switch that has taken place those that it replaced (R336). -/
def State.recordsAt (s : State) (k : Nat) (x : Int) : BitVec 16 × List IngestRec :=
  let t := s.port k
  let recs : Bool → List IngestRec := fun b => bankIngest (if b then t.in1 else t.in0)
  match t.inAt, t.inWas with
  | some a, _ => if 16 * (a : Int) ≤ x then (t.ig.newOwner, recs (!t.ig.bank)) else (t.ig.owner, recs t.ig.bank)
  | none, some (a, o) => if x < 16 * (a : Int) then (o, recs (!t.ig.bank)) else (t.ig.owner, recs t.ig.bank)
  | none, none => (t.ig.owner, recs t.ig.bank)

/-- The heat that an input of the contract with reference instant `x` belongs to (R26, R327); a card takes inputs from its
first heat on (R336). -/
def State.inputHeat (s : State) (c : Contract) (x : Int) : Nat :=
  let g : Int := s.pacer.gunAt
  let cut : Int := 16 * (g + c.card.win.i + 1)
  max c.startGun (if x < cut - 16 * s.L then s.heatN - 1 else if x < cut then s.heatN else s.heatN + 1)

/-- The contract and the records that map an input with reference instant `x`: none for one that belongs to a heat after the
contract's last (R336). -/
def State.ingestNow (s : State) (k : Nat) (x : Int) : Option (Contract × List IngestRec) :=
  let r := s.recordsAt k x
  match s.ownerOf r.1 with
  | none => none
  | some c =>
    let gone := match s.leaves c with
      | some w => decide (w ≤ s.inputHeat c x)
      | none => false
    if gone then none else some (c, r.2)

/-- The gun of heat `h`, from the one before the current heat on, as a device cycle. -/
def State.gunOf (s : State) (h : Nat) : Nat := s.pacer.gunAt + (h + 1 - s.heatN) * s.L - s.L

/-- An instant as lc from the gun of the heat in which it falls (R335). -/
def State.instOffset (s : State) (x : Int) : Nat :=
  let c : Int := x / 16 - s.pacer.gunAt
  (if c < 0 then c + s.L else c).toNat

/-! ### Mapping inputs -/

def Port.flowHeat (t : Port) (flow h : Nat) : FlowHeat :=
  (t.flows.find? (fun x => decide (x.flow = flow) && decide (x.heat = h))).getD
    { flow := flow, heat := h, accepted := 0, dup := 0, first := none, last := none, rods := [], status := false }

/-- Store a flow's state, dropping heats long past. -/
def Port.setFlow (t : Port) (x : FlowHeat) : Port :=
  { t with flows := x :: t.flows.filter (fun y =>
      !(decide (y.flow = x.flow) && decide (y.heat = x.heat)) && decide (x.heat ≤ y.heat + 2)) }

def elemMc (e : Word) : Bool := e.getLsbD 31
def elemSeat (e : Word) : Nat := (e.extractLsb' 20 10).toNat
def elemRod (e : Word) : Nat := (e.extractLsb' 0 11).toNat

/-- A payload rod waits for its bank's delivery path (R331, R333). -/
def Port.queue (t : Port) (x : PRod) : Port :=
  if elemRod x.elem % 2 = 0 then { t with q0 := t.q0 ++ [x] } else { t with q1 := t.q1 ++ [x] }

/-- The 32 bytes of payload rod `k`. -/
def payloadRod (l : List Byte) (k : Nat) : Rod := bytesRod ((l.drop (32 * k)).take 32)

/-- Count an accepted input of a flow with reference instant `x` (R335). -/
def State.accepted (s : State) (f : FlowHeat) (k : Nat) (x : Int) : FlowHeat :=
  { f with accepted := f.accepted + 1, first := f.first.or (some (s.instOffset x)), last := some (s.instOffset x),
           rods := f.rods ++ [k] }

/-- Queue the rods of an accepted input of heat `h`, with their signatures where the card enables them (R257, R333). -/
def State.mapRods (s : State) (port : Nat) (c : Contract) (h : Nat) (x : Int) (rods : List (Word × Rod)) : State :=
  let t := s.port port
  let ready := instCycle x + t.readyLc
  s.setPort port (rods.foldl (fun t q =>
    t.queue { elem := q.1, rod := q.2, ready := ready, due := 0, deadline := some (s.gunOf h + c.card.win.c - 1), heat := h,
              sig := if c.card.inSig then some (crc32c (rodBytes q.2)) else none }) t)

/-! ### Ethernet -/

/-- PORT_MAC as the 48-bit address with byte 0 highest (R351). -/
def Port.mac (t : Port) : BitVec 48 :=
  t.macLo.extractLsb' 0 8 ++ t.macLo.extractLsb' 8 8 ++ t.macLo.extractLsb' 16 8 ++ t.macLo.extractLsb' 24 8
    ++ t.macHi.extractLsb' 0 8 ++ t.macHi.extractLsb' 8 8

/-- A timestamp as the firmware gets it (R343): 48-bit seconds, 30-bit nanoseconds, 16-bit fraction. DESIGN CHOICE (log 81): in
6, 4 and 2 bytes. -/
def stampBytes (x : Nat) : List Byte :=
  leBytes (x / 20000000000) 6 ++ leBytes (x / 20 % 1000000000) 4 ++ leBytes (x % 20 * 65536 / 20) 2

/-- A frame for the steward firmware, with its timestamp: at most 64 wait at an engine (R329, R343). -/
def State.toSteward (s : State) (port : Nat) (f : Frame) : State :=
  let e := port / 8
  let l := tget stwDflt s.stw e
  if 64 ≤ l.length then s.setPort port (((s.port port).count cRxStwDrop).event 3)
  else
    let x := s.ptpAt (s.rxStamp port f.ago)
    let w : StwFrame := { port := port, stamp := x, left := stampBytes x ++ f.bytes.take (f.bytes.length - 4) }
    ({ s with stw := tput stwDflt s.stw e (l ++ [w]) }).setPort port ((s.port port).count cRxOk)

/-- A flow record that a frame matches (R330). -/
def IngestRec.matches (r : IngestRec) (f : FrameView) : Bool :=
  decide (r.kind = 0) && decide (r.dstIp = f.dstIp) && decide (r.dstUdp = f.dstUdp)
    && (decide (r.srcIp = 0) || decide (r.srcIp = f.srcIp))

/-- The steps of R329 from step 7 on, for a frame with reference instant `x`. -/
def State.mapFrame (s : State) (port : Nat) (f : FrameView) (x : Int) : State :=
  let t := s.port port
  match s.ingestNow port x with
  | none => s.setPort port (t.count cRxFilter)
  | some (c, recs) =>
    match recs.findIdx? (fun r => r.matches f) with
    | none => s.setPort port (t.count cRxFilter)
    | some i =>
      let r := recs.getD i ⟨0, 0, 0, 0, 0, 0, []⟩
      let h := s.inputHeat c x
      if f.payload.length ≠ 32 * r.map.length then s.setPort port (t.count cRxLen)
      else
        let y := t.flowHeat i h
        if 0 < y.accepted then s.setPort port ((t.count cRxDup).setFlow { y with dup := y.dup + 1 })
        else
          (s.setPort port ((t.count cRxOk).setFlow (s.accepted y 0 x))).mapRods port c h x
            (r.map.zipIdx.map (fun q => (q.1, payloadRod f.payload q.2)))

/-- RS-FEC codewords of MODE 2 are counted (R328). -/
def Port.fec (t : Port) (f : Frame) : Port :=
  if t.mode = 2 then
    { t with cnt := putW (putW t.cnt cFecCe (satAdd (getW t.cnt cFecCe) f.fecCe)) cFecUe (satAdd (getW t.cnt cFecUe) f.fecUe) }
  else t

/-- The reference instant of a frame: the end of its last UDP payload byte, a byte taking 6.4 of 50 ps (R327). -/
def State.frameInstant (s : State) (port : Nat) (f : Frame) : Int := s.rxStamp port f.ago + 32 * (frameView f).payEnd / 5

/-- The steps of R329 in order. -/
def State.filterFrame (s : State) (port : Nat) (b : Frame) : State :=
    let t := s.port port
    let f := frameView b
    let x := s.frameInstant port b
    let recs := match s.ingestNow port x with | some y => y.2 | none => []
    let filter := s.setPort port (t.count cRxFilter)
    if !(f.fcsOk && within f.length 64 4146) then s.setPort port (t.count cRxFcs)
    else if !(decide (f.dstMac = t.mac) || decide (f.dstMac = 0xFFFFFFFFFFFF)
        || (decide (f.dstMac.extractLsb' 24 24 = 0x01005E) && recs.any (fun r => decide (r.kind = 0) && decide (r.dstIp = f.dstIp))))
      then filter
    else if f.vlan ≠ (if t.vlan then some t.vid else none) then filter
    else if f.etherType = 0x0806 then s.toSteward port b
    else if !(decide (f.etherType = 0x0800) && f.ipOk && decide (f.proto = 17) && f.udpOk) then filter
    else if f.dstUdp = 319 ∨ f.dstUdp = 320 ∨ (t.ctrlUdp ≠ 0 ∧ f.dstUdp = t.ctrlUdp) then s.toSteward port b
    else s.mapFrame port f x

/-- FRAME_RECEIVE: a frame whose last bit comes in the current cycle (R329). -/
def frameReceive (s : State) (port : Nat) (f : Frame) : State :=
  let t := s.port port
  if !t.isEth || !s.domOn (portDomain port) then s else (s.setPort port (t.fec f)).filterFrame port f

/-! ### Kaong -/

/-- CRC-32C with final XOR (R345). -/
def crc32cFinal (l : List Byte) : Word := crc32c l ^^^ 0xFFFFFFFF

def le16 (l : List Byte) (o : Nat) : BitVec 16 := BitVec.ofNat 16 (leAt l o 2)

/-- A DATA cell with a good CRC and reference instant `x` (R332, R345, R347). -/
def State.mapCell (s : State) (port : Nat) (b : List Byte) (x : Int) : State :=
  let t := s.port port
  let k := leAt b 0 2 % 4096
  if !(decide (t.kstate = 2) || (decide (t.kstate = 1) && decide (t.kcfg.extractLsb' 16 16 = 0))) then
    s.setPort port (t.count cRxFilter)
  else match s.ingestNow port x with
  | none => s.setPort port (t.count cRxFilter)
  | some (c, recs) =>
    match recs with
    | r :: _ =>
      if r.kind ≠ 1 then s.setPort port (t.count cRxFilter)
      else
        let h := s.inputHeat c x
        let y := t.flowHeat 0 h
        if r.map.length ≤ k then s.setPort port ((t.count cRxLen).setFlow { y with dup := y.dup + 1 })
        else if y.rods.contains k then s.setPort port ((t.count cRxDup).setFlow { y with dup := y.dup + 1 })
        else
          (s.setPort port ((t.count cRxOk).setFlow (s.accepted y k x))).mapRods port c h x
            [(r.map.getD k 0, payloadRod (b.drop 2) 0)]
    | [] => s.setPort port (t.count cRxFilter)

/-- A TRAIN cell with a good CRC that started in cycle `at_` (R347, R348): states, tags and the round trip. -/
def State.trainCell (s : State) (port : Nat) (b : List Byte) (at_ : Nat) : State :=
  let t := s.port port
  let p := b.drop 2
  let tag := le16 p 0
  let st := leAt p 2 1
  let peer := t.kcfg.extractLsb' 16 16
  let tagBad := decide (peer ≠ 0) && decide (tag ≠ peer)
  let echo := leWordAt p 8
  let t := { t with
    krtt := if echo = 0 then t.krtt else BitVec.ofNat 32 at_ - echo - leWordAt p 12 - 32
    lastTrain := some (leWordAt p 4, s.now) }
  let s := s.setPort port t
  if t.kstate = 1 then
    if 1 ≤ st && !tagBad then
      (s.setPort port { t.event 1 with kstate := 2 }).raise 0x0701 (srcW 3 port) 0
    else s
  else if t.kstate = 2 then
    if tagBad then (s.setPort port { t.event 2 with kstate := 1 }).raise 0x0703 (srcW 3 port) 0
    else if st = 0 then s.setPort port { t with kstate := 1 }
    else s
  else s

/-- A sync header is received: what the lock rules look at, and K_SYNC (R347, R349). -/
def Port.header (t : Port) (b : KBlock) : Port :=
  if blockValid b then { t with hdrRun := t.hdrRun + 1, hdrs := t.hdrs <<< 1 }
  else { t.count cKSync with hdrRun := 0, hdrs := (t.hdrs <<< 1) ||| 1 }

/-- Invalid sync headers among the last 64. -/
def Port.badHdrs (t : Port) : Nat := ((List.range 64).filter (fun i => t.hdrs.getLsbD i)).length

/-- A complete cell `b` with reference instant `x` that started in cycle `at_` (R347, R349). -/
def State.takeCell (s : State) (port : Nat) (b : List Byte) (x : Int) (at_ : Nat) : State :=
  let t := s.port port
  if leWordAt b 36 ≠ crc32cFinal (b.take 36) then s.setPort port { t.count cKCrc with crcRun := t.crcRun + 1 }
  else
    let seq := le16 b 34
    let t := { t with crcRun := 0 }
    let t := match t.seqRx with | some q => if seq = q + 1 then t else t.count cKSeq | none => t
    let s := s.setPort port { t with seqRx := some seq }
    match leAt b 0 2 / 16384 with
    | 1 => s.mapCell port b x
    | 2 => s.trainCell port b at_
    | _ => s

/-- KAONG_CELL_RECEIVE (R344, R347, R349): the blocks from one control header to the next, whose last bit comes in the current
cycle. A block with an invalid header is ignored; fewer than five are no cell. -/
def kaongCellReceive (s : State) (port : Nat) (c : KCell) : State :=
  let t := s.port port
  if !t.isKaong || !s.domOn (portDomain port) then s
  else
    let q := readBlocks t.scrRx c.blocks
    let s := s.setPort port (c.blocks.foldl Port.header { t with scrRx := q.2 })
    let good := q.1.filter (fun b => blockValid b.1)
    if good.isEmpty || good.head?.any (fun b => decide (b.1.hdr ≠ hdrControl)) then s
    else if good.length < 5 then s.setPort port ((s.port port).count cKShort)
    else s.takeCell port ((good.take 5).flatMap (fun b => b.2)) (s.rxStamp port c.ago + 256) (instCycle (16 * ((s.now : Int) + 1) - c.ago))

/-- KAONG_LOCK: 64 consecutive valid sync headers; an Ethernet port gains its block lock in its own way (R347). -/
def kaongLock (s : State) (port : Nat) : State :=
  let t := s.port port
  if t.mode = 0 || !s.domOn (portDomain port) || !s.portClock port then s
  else if t.isKaong then
    if t.kstate = 0 ∧ 64 ≤ t.hdrRun then
      s.setPort port { t with kstate := 1, lock := true, cdr := true, crcRun := 0, hdrs := 0 }
    else s
  else s.setPort port { t with lock := true, cdr := true }

/-- Loss of lock (R347, R349, R464). -/
def State.portDown (s : State) (port : Nat) : State :=
  let t := s.port port
  let t := if t.isKaong then t.count cKLockLoss else t
  (s.setPort port { t.event 0 with kstate := 0, lock := false, cdr := false, crcRun := 0, hdrRun := 0 }).raise 0x0702 (srcW 3 port) 0

/-- PORT_LINK_DOWN. -/
def portLinkDown (s : State) (port : Nat) (why : LinkLoss) : State :=
  let t := s.port port
  let met := match why with
    | .syncHeaders => !t.isKaong || decide (16 ≤ t.badHdrs)
    | .crcFailures => t.isKaong && decide (8 ≤ t.crcRun)
    | .pll => !s.portClock port
  if t.mode = 0 || !s.domOn (portDomain port) || !t.lock || !met then s else s.portDown port

/-! ### The delivery paths (R333–R335) -/

/-- The first rod of a queue that has not entered its path enters in the current cycle. -/
def enterFirst (now : Nat) : List PRod → List PRod
  | [] => []
  | x :: r => if x.due = 0 then (if x.ready ≤ now then { x with due := now + 7 } :: r else x :: r) else x :: enterFirst now r

/-- INGEST_ROD_ENTER: in a cycle that the port owns, the next ready rod of the bank enters (R333). -/
def ingestRodEnter (s : State) (port : Nat) (bank : Bool) : State :=
  let t := s.port port
  let q := if bank then t.q1 else t.q0
  if s.cyc % 8 ≠ port % 8 ∨ q.any (fun x => decide (x.due = s.now + 7)) then s
  else if bank then s.setPort port { t with q1 := enterFirst s.now q } else s.setPort port { t with q0 := enterFirst s.now q }

/-- An ingest rod reaches one sharing port: it joins the ingest queue, or is discarded when that is full (R334). -/
def State.ingestTo (s : State) (p : Nat) (x : PRod) : State :=
  let h := elemRod x.elem
  let m := s.lmem p
  let q := m.sp (h % 2)
  if 16 ≤ q.ingest.length then (s.setLmem p { m with late := sat1 m.late }).raise 0x0403 (srcW 1 p) 0
  else
    s.setLmem p (m.setSp (h % 2) { q with ingest := q.ingest ++
      [{ cls := 2, rod := h, deadline := x.deadline, fab := none, kind := .write x.rod fullMask none false,
         sig := x.sig }] })

/-- The seats that an ingest rod reaches. An input of the next heat goes by the multicast lists of that heat, which stand in the
other bank when a switch is armed (R27, R279). -/
def State.ingestSeats (s : State) (x : PRod) : List Nat :=
  let m := if decide (s.heatN < x.heat) && s.mc.arm then s.mc.gun else s.mc
  if elemMc x.elem then mcSeats (m.list (elemSeat x.elem)) else [elemSeat x.elem]

/-- INGEST_ROD_ARRIVE: the rod due reaches every destination sharing port, 7 lc after it entered (R333, R334). -/
def ingestRodArrive (s : State) (port : Nat) (bank : Bool) : State :=
  let t := s.port port
  match (if bank then t.q1 else t.q0) with
  | [] => s
  | x :: r =>
    if x.due = 0 ∨ s.now < x.due then s
    else
      let s := s.setPort port (if bank then { t with q1 := r } else { t with q0 := r })
      ((s.ingestSeats x).filterMap s.seatLane).foldl (fun s p => s.ingestTo p x) s

/-- The status rod of a flow (R335). -/
def statusRod (h : Nat) (x : FlowHeat) : Rod :=
  bytesRod (leBytes h 4 ++ leBytes x.accepted 2 ++ leBytes x.dup 2 ++ leBytes (x.first.getD 0xFFFFFFFF) 4
    ++ leBytes (x.last.getD 0xFFFFFFFF) 4 ++ List.replicate 16 0)

/-- The running contract whose records write the status rods of the heat: the port's owner, or the one that its records have
just been switched from (R335, R336). -/
def State.statusOwner (s : State) (port : Nat) : Option (Contract × List IngestRec) :=
  let t := s.port port
  let recs : Bool → List IngestRec := fun b => bankIngest (if b then t.in1 else t.in0)
  let run : BitVec 16 → Option Contract := fun h => (s.ownerOf h).bind (fun c => if c.running then some c else none)
  match run t.ig.owner with
  | some c => some (c, recs t.ig.bank)
  | none => (t.inWas.bind (fun w => run w.2)).map (fun c => (c, recs (!t.ig.bank)))

/-- INGEST_STATUS_ROD: after the cutoff of the heat, record `rec`'s status rod is written once (R335). -/
def ingestStatusRod (s : State) (port rec : Nat) : State :=
  let t := s.port port
  match s.statusOwner port with
  | none => s
  | some (c, recs) =>
    match recs[rec]? with
    | none => s
    | some r =>
      let x := t.flowHeat rec s.heatN
      if !c.running || decide (r.status = 0xFFFFFFFF) || x.status || decide (s.pacer.elapsed ≤ c.card.win.i) then s
      else
        s.setPort port ((t.setFlow { x with status := true }).queue
          { elem := r.status, rod := statusRod s.heatN x, ready := s.now, due := 0,
            deadline := some (s.pacer.gunAt + c.card.win.c - 1), heat := s.heatN, sig := none })

/-- The ingest records of a port switch as of cycle `a` (R336). -/
def Port.switchIn (t : Port) (a : Nat) : Port :=
  { t with
    inAt := none, inWas := some (a, t.ig.owner), ig := { t.ig with bank := !t.ig.bank, owner := t.ig.newOwner, arm := false } }

/-- INGEST_MAP_SWITCH (R336). -/
def ingestMapSwitch (s : State) (port : Nat) : State :=
  let t := s.port port
  match t.inAt with
  | some a => if a ≤ s.now then s.setPort port (t.switchIn a) else s
  | none => s

def execFrameReceive (port : Nat) (f : Frame) (s : State) : Answer := .next (s.live (frameReceive s port f))
def execKaongCellReceive (port : Nat) (c : KCell) (s : State) : Answer := .next (s.live (kaongCellReceive s port c))
def execKaongLock (port : Nat) (s : State) : Answer := .next (s.live (kaongLock s port))
def execPortLinkDown (port : Nat) (why : LinkLoss) (s : State) : Answer := .next (s.live (portLinkDown s port why))
def execIngestRodEnter (port : Nat) (bank : Bool) (s : State) : Answer := .next (s.live (ingestRodEnter s port bank))
def execIngestRodArrive (port : Nat) (bank : Bool) (s : State) : Answer := .next (s.live (ingestRodArrive s port bank))
def execIngestStatusRod (port rec : Nat) (s : State) : Answer := .next (s.live (ingestStatusRod s port rec))
def execIngestMapSwitch (port : Nat) (s : State) : Answer := .next (s.live (ingestMapSwitch s port))

end Sys2Proof.Machine
end

