-- ==== Sys2Proof/Machine/Egress.lean ====
section
/-! DEFINITION. Egress: the reads of a heat's results, the frames and cells that carry them, the Kaong transmitter and the
steward firmware's own frames (R256, R337–R346). -/

namespace Sys2Proof.Machine
open Sys2Proof

/-! ### The emission of one heat (R339–R341) -/

/-- The elements of an emission, counted across its records (R340). -/
def recElems (l : List EgressRec) : List Word := l.flatMap (fun (r : EgressRec) => r.elem)

def elemSize (e : Word) : Nat := (e.extractLsb' 30 2).toNat
def elemOutSeat (e : Word) : Nat := (e.extractLsb' 20 10).toNat

/-- The side and the marks of every element, fixed as the emission begins; each delivered result is counted (R399, R400,
R415). -/
def State.takeSides (s : State) (h : Nat) (prev : Bool) : List Word → List (Option Nat × BitVec 2) × State
  | [] => ([], s)
  | e :: r =>
    match s.contract h with
    | none => ([], s)
    | some c =>
      let n := elemOutSeat e
      let x := s.side c n (if prev then c.selPrev else c.sel)
      let q := (s.countSide h n prev x.2).takeSides h prev r
      ((s.seatLane x.1, x.2) :: q.1, q.2)

/-- The emission of heat `heat` on port `k` begins: `base` is gun + E of that heat. -/
def State.startRun (s : State) (k : Nat) (c : Contract) (recs : List EgressRec) (heat base : Nat) (prev : Bool) : State :=
  let q := s.takeSides c.handle prev (recElems recs)
  let t := q.2.port k
  q.2.setPort k { t with
    ran := heat + 1
    runs := t.runs ++ [{ heat := heat, base := base, recs := recs, srcs := q.1, sig := c.card.outSig, asked := 0, got := [],
                         nextRec := 0, nextCell := 0 }] }

/-- The EGRESS records in force on a port. -/
def Port.outRecs (t : Port) : List EgressRec := bankEgress (if t.eg.bank then t.out1 else t.out0)

/-- The emission that begins in the current cycle or has been due since: that of this heat, or with E ≥ L that of the heat
before (R5, R340). -/
def State.beginRun (s : State) (k : Nat) : State :=
  let t := s.port k
  match s.ownerOf t.eg.owner with
  | none => s
  | some c =>
    let e := c.card.win.e
    let n := s.heatN
    if !c.running || t.outRecs.isEmpty || !s.pacer.open_ then s
    else if e < s.L then
      if s.pacer.elapsed < e ∨ n < c.startGun ∨ t.ran = n + 1 then s
      else
        let s := if s.pacer.elapsed = e then s.samplePoint c.handle 9 (n + 1) else s
        s.startRun k c t.outRecs n (s.pacer.gunAt + e) false
    else if s.pacer.elapsed < e - s.L ∨ n ≤ c.startGun ∨ t.ran = n then s
    else s.startRun k c t.outRecs (n - 1) (s.pacer.gunAt + (e - s.L)) true

/-- Element `g` of an emission is requested at base + 4g as a class-3 read (R340); a seat without a lane answers poison. -/
def State.askElem (s : State) (k : Nat) (x : EgRun) : State :=
  let t := s.port k
  let g := x.asked
  let put : EgRun → State → State := fun y s => s.setPort k { t with runs := t.runs.map (fun z => if z.heat = x.heat then y else z) }
  let h := elemRod ((recElems x.recs).getD g 0)
  match (x.srcs.getD g (none, 0)).1 with
  | none => put { x with asked := g + 1, got := x.got ++ [{ g := g, rod := 0, poison := true, late := false }] } s
  | some p =>
    if !((s.lmem p).sp (h % 2)).room false then s
    else
      (put { x with asked := g + 1 } s).shAdd p (h % 2)
        { cls := 3, rod := h, deadline := some (x.base + 4 * g + 64), fab := none, kind := .readEgress k g x.heat }

/-- EGRESS_READ_REQUEST: the engine of port `k` requests the next element whose cycle has come (R340). -/
def egressReadRequest (s : State) (k : Nat) : State :=
  let s := s.beginRun k
  match (s.port k).runs.find? (fun x => decide (x.asked < (recElems x.recs).length)) with
  | none => s
  | some x => if x.base + 4 * x.asked ≤ s.now then s.askElem k x else s

/-! ### Frames (R338, R341) -/

/-- What has arrived for element `g`. -/
def EgRun.elem (x : EgRun) (g : Nat) : Option ElemGot := x.got.find? (fun e => decide (e.g = g))

/-- The bytes of an element of a payload (R337). -/
def elemBytes (e : Word) (rod : Rod) : List Byte :=
  match elemSize e with
  | 0 => rodBytes rod
  | 1 => (rodBytes rod).take 16
  | _ => (rodBytes rod).drop 16

/-- The signature formed over an element as it enters the check generator differs from the one carried with it (R256). -/
def ElemGot.sigDiffers (a : ElemGot) : Bool := match a.sig with
  | some w => decide (w ≠ crc32c (rodBytes a.rod))
  | none => false

/-- What an emission sends for elements `g`, `g`+1, …: their bytes, whether one was not served in time, whether one is
poisoned or differs from its signature, and the OR of their marks. The data of an element that never came is a free value. -/
structure Sent where
  bytes : List (List Byte)
  late : Bool
  poison : Bool
  mark : BitVec 2
  deriving DecidableEq, Repr

def State.gather (s : State) (x : EgRun) (g : Nat) : List Word → Sent × State
  | [] => (⟨[], false, false, 0⟩, s)
  | e :: r =>
    let y := match x.elem g with
      | some a => ((elemBytes e a.rod, a.late, a.poison || a.sigDiffers), s)
      | none => ((elemBytes e (Config.undefRod s.free), true, false), s.draw)
    let m := (x.srcs.getD g (none, 0)).2
    let q := y.2.gather x (g + 1) r
    (⟨y.1.1 :: q.1.bytes, y.1.2.1 || q.1.late, y.1.2.2 || q.1.poison, m ||| q.1.mark⟩, q.2)

/-- The trailer of R341. -/
def trailerBytes (heat : Nat) (m : BitVec 2) : List Byte := leBytes heat 4 ++ leBytes m.toNat 4

def frameHead (t : Port) (r : EgressRec) : List Byte :=
  r.dstMac ++ leBytes t.macLo.toNat 4 ++ leBytes t.macHi.toNat 2
    ++ (if r.vlan.getLsbD 15 then
          netBytes 0x8100 2 ++ netBytes ((r.vlan.extractLsb' 12 3).toNat * 8192 + (r.vlan.extractLsb' 0 12).toNat) 2 else [])
    ++ netBytes 0x0800 2

def ipHead (t : Port) (r : EgressRec) (n : Nat) : List Byte :=
  let a : List Byte := [0x45, r.tos] ++ netBytes (28 + n) 2 ++ [0, 0, 0x40, 0, if r.ttl = 0 then 64 else r.ttl, 17]
  let b : List Byte := netBytes t.ip.toNat 4 ++ netBytes r.dstIp.toNat 4
  a ++ netBytes (ipChecksum (a ++ [0, 0] ++ b)) 2 ++ b

/-- An Ethernet frame without its FCS (R338). -/
def ethFrame (t : Port) (r : EgressRec) (pay : List Byte) : List Byte :=
  frameHead t r ++ ipHead t r pay.length
    ++ netBytes r.srcUdp.toNat 2 ++ netBytes r.dstUdp.toNat 2 ++ netBytes (8 + pay.length) 2 ++ [0, 0] ++ pay

/-- A frame with its FCS, inverted when `ok` is false (R338, R340). -/
def withFcs (f : List Byte) (ok : Bool) : List Byte := f ++ leW (if ok then crc32 f else ~~~(crc32 f))

/-- The lc that `n` wire bytes take (R339). -/
def wireLc (n : Nat) : Nat := (2 * n + 4) / 5

/-- The first bit of the next record or cell of an emission (R339, R346). -/
def EgRun.nextBit (t : Port) (x : EgRun) : Option Nat :=
  x.recs[x.nextRec]?.map (fun r => x.base + t.dOut + r.ofs + 16 * x.nextCell)

def EgRun.cur (x : EgRun) : EgressRec := x.recs.getD x.nextRec ⟨0, 0, 0, [], 0, 0, 0, 0, 0, 0, false, []⟩

/-- Store an emission after a send; one that has ended leaves. -/
def Port.putRun (t : Port) (x : EgRun) : Port :=
  if x.recs.length ≤ x.nextRec then { t with runs := t.runs.filter (fun y => decide (y.heat ≠ x.heat)) }
  else { t with runs := t.runs.map (fun y => if y.heat = x.heat then x else y) }

/-- The counts and events of a frame or cell that has left (R256, R340, R351). -/
def State.leftPort (s : State) (k : Nat) (late poison sig : Bool) : State :=
  let t := s.port k
  if late || poison then
    let s := s.setPort k ((t.count cTxBad).event 4)
    let s := if late then s.raise 0x0704 (srcW 3 k) 0 else s
    if poison && sig then s.raise 0x0406 (srcW 3 k) 0 else s
  else s.setPort k (t.count cTxOk)

/-- The elements of earlier records. -/
def EgRun.first (x : EgRun) : Nat := (recElems (x.recs.take x.nextRec)).length

/-- An Ethernet record leaves. -/
def State.sendFrame (s : State) (k : Nat) (x : EgRun) (due : Nat) : State :=
  let r := x.cur
  let q := s.gather x x.first r.elem
  let t := q.2.port k
  let pay := q.1.bytes.flatten ++ (if r.trailer then trailerBytes x.heat q.1.mark else [])
  let f := ethFrame t r pay
  let s := q.2.setPort k { t.putRun { x with nextRec := x.nextRec + 1 } with txBusy := due + wireLc (f.length + 24) }
  let ok := !(q.1.late || q.1.poison)
  (s.emit (.frame k (withFcs f ok) ok)).leftPort k q.1.late q.1.poison x.sig

/-- A complete cell with its SEQ and CRC, which is inverted when `ok` is false (R340, R345). -/
def cellBytes (hdr : Nat) (pay : List Byte) (seq : BitVec 16) (ok : Bool) : List Byte :=
  let b := leBytes hdr 2 ++ pay ++ leBytes seq.toNat 2
  b ++ leW (if ok then crc32cFinal b else ~~~(crc32cFinal b))

/-- `n` blocks of a cell go through the transmitter's scrambler and leave (R344). -/
def State.emitCell (s : State) (k n : Nat) (b : List Byte) (ok : Bool) : State :=
  let t := s.port k
  let x := cellBlocks t.scrTx n 0 b
  (s.setPort k { t with scrTx := x.2 }).emit (.cell k x.1 ok)

/-- The next DATA cell of a Kaong record leaves. -/
def State.sendCell (s : State) (k : Nat) (x : EgRun) (due : Nat) : State :=
  let r := x.cur
  let g := x.first + x.nextCell
  let q := s.gather x g [r.elem.getD x.nextCell 0]
  let t := q.2.port k
  let last := decide (r.elem.length ≤ x.nextCell + 1)
  let ok := !(q.1.late || q.1.poison)
  let hdr := 16384 + (if last then 8192 else 0) + (if q.1.mark = 0 then 0 else 4096) + g % 4096
  let x' := if last then { x with nextRec := x.nextRec + 1, nextCell := 0 } else { x with nextCell := x.nextCell + 1 }
  let s := q.2.setPort k { t.putRun x' with txBusy := due + 16, seqTx := t.seqTx + 1 }
  (s.emitCell k 5 (cellBytes hdr q.1.bytes.flatten t.seqTx ok) ok).leftPort k q.1.late q.1.poison x.sig

/-- EGRESS_FRAME_SEND: the record, or the Kaong record's next DATA cell, whose first bit is due leaves (R339, R346). -/
def egressFrameSend (s : State) (k : Nat) : State :=
  let t := s.port k
  match t.runs with
  | [] => s
  | x :: _ =>
    match x.nextBit t with
    | none => s
    | some due =>
      if s.now < due ∨ s.domOn (portDomain k) = false then s
      else if x.cur.kind = 0 ∧ t.isEth then s.sendFrame k x due
      else if x.cur.kind = 1 ∧ t.isKaong then s.sendCell k x due
      else s

/-! ### Between the scheduled emissions -/

/-- The next scheduled first bit on a port: of an emission under way, or of one that a coming heat begins. -/
def State.nextSched (s : State) (k : Nat) : Option Nat :=
  let t := s.port k
  let under := t.runs.filterMap (fun x => x.nextBit t)
  let coming := match s.ownerOf t.eg.owner, t.outRecs with
    | some c, r :: _ =>
      if !c.running then []
      else
        let b := t.dOut + r.ofs
        let e := c.card.win.e
        let n := s.heatN
        (if s.L ≤ e ∧ c.startGun < n ∧ t.ran ≠ n then [s.pacer.gunAt + (e - s.L) + b] else [])
          ++ (if c.startGun ≤ n ∧ t.ran ≠ n + 1 then [s.pacer.gunAt + e + b] else []) ++ [s.pacer.gunAt + s.L + e + b]
    | _, _ => []
  (under ++ coming.filter (fun a => decide (s.now ≤ a))).min?

/-- The payload of a TRAIN cell that starts now (R348). -/
def Port.trainPay (t : Port) (now : Nat) : List Byte :=
  leBytes (t.kcfg.extractLsb' 0 16).toNat 2 ++ leBytes t.kstate.toNat 1 ++ [0] ++ leBytes now 4
    ++ (match t.lastTrain with
        | some (tx, at_) => leW tx ++ leBytes (now - at_) 4
        | none => List.replicate 8 0)
    ++ List.replicate 16 0

/-- KAONG_CELL_SEND: the transmitter starts an IDLE or TRAIN cell; a DATA cell that falls due within it cuts it after the
block then in progress (R346). -/
def kaongCellSend (s : State) (k : Nat) : State :=
  let t := s.port k
  if !t.isKaong || !s.domOn (portDomain k) || decide (s.now < t.txBusy) then s
  else
    let train := decide (t.kstate ≠ 2) || decide (t.nonData = 0)
    let hdr := if train then 0x8000 else 0
    let pay := if train then t.trainPay s.now else List.replicate 32 0
    let t := { t with nonData := (t.nonData + 1) % 64 }
    let whole := (s.setPort k { t with txBusy := s.now + 16, seqTx := t.seqTx + 1 }).emitCell k 5 (cellBytes hdr pay t.seqTx true) true
    match s.nextSched k with
    | none => whole
    | some d =>
      if d ≤ s.now then s
      else
        let blocks := 5 * (d - s.now) / 16 + 1
        if s.now + 16 ≤ d ∨ 5 ≤ blocks then whole
        else (s.setPort k { t with txBusy := d }).emitCell k blocks (leBytes hdr 2 ++ pay) false

/-- The transmit timestamp of a frame whose preamble starts in the current cycle: the point comes eight bytes later (R343). -/
def State.txStamp (s : State) (k : Nat) : Nat :=
  s.ptpAt (16 * (s.now : Int) + 51 + ((s.port k).tsCorr.extractLsb' 0 16).toInt)

/-- STEWARD_FRAME_SEND: `bytes` is the frame without its FCS. It starts only when it and a 12-byte gap end before the next
scheduled bit (R342); it is timestamped (R343). -/
def stewardFrameSend (s : State) (k : Nat) (bytes : List Byte) : State :=
  let t := s.port k
  let end_ := s.now + wireLc (bytes.length + 24)
  let fits := match s.nextSched k with | none => true | some d => decide (end_ ≤ d)
  if !t.isEth || !s.domOn (portDomain k) || decide (s.now < t.txBusy) || !fits then s
  else (s.setPort k { t.count cTxOk with txBusy := end_, txTs := some (s.txStamp k) }).emit (.frame k (withFcs bytes true) true)

def execEgressReadRequest (port : Nat) (s : State) : Answer := .next (s.live (egressReadRequest s port))
def execEgressFrameSend (port : Nat) (s : State) : Answer := .next (s.live (egressFrameSend s port))
def execKaongCellSend (port : Nat) (s : State) : Answer := .next (s.live (kaongCellSend s port))
def execStewardFrameSend (port : Nat) (bytes : List Byte) (s : State) : Answer := .next (s.live (stewardFrameSend s port bytes))

end Sys2Proof.Machine
end

