-- ==== Sys2Proof/Machine/Cmd.lean ====
section
/-! DEFINITION. What every host command shares: taking an entry, its reserved fields, the lifecycle's permission, host
buffers and scatter lists, and the completion that waits to be written (R358–R363, R374, R375, R428). -/

namespace Sys2Proof.Machine
open Sys2Proof

/-! ### Rings -/

def ringDflt : Nat → Ring := fun _ => ringReset
def flagDflt : Nat → Bool := fun _ => false

def State.sqRing (s : State) (q : Nat) : Ring := tget ringDflt s.hif.sq q
def State.cqRing (s : State) (q : Nat) : Ring := tget ringDflt s.hif.cq q
def State.setSq (s : State) (q : Nat) (r : Ring) : State := { s with hif := { s.hif with sq := tput ringDflt s.hif.sq q r } }
def State.setCq (s : State) (q : Nat) (r : Ring) : State := { s with hif := { s.hif with cq := tput ringDflt s.hif.cq q r } }
def State.sqBusy (s : State) (q : Nat) : Bool := tget flagDflt s.hif.busy q
def State.setBusy (s : State) (q : Nat) (b : Bool) : State := { s with hif := { s.hif with busy := tput flagDflt s.hif.busy q b } }

/-- Host address of a ring's BASE. -/
def Ring.base (r : Ring) : Nat := r.hi.toNat * 4294967296 + r.lo.toNat

/-- The index after `i`. -/
def Ring.after (r : Ring) (i : Nat) : Nat := (i + 1) % 2 ^ r.size

/-- An entry of a ring that the device produces has been written: the tail advances, and the phase inverts at a wrap (R358). -/
def Ring.push (r : Ring) : Ring :=
  { r with tail := r.after r.tail, phase := if r.after r.tail = 0 then !r.phase else r.phase }

/-! ### Accesses to host memory (R352)

A request stays within the size that the host has set and within one 4 KB page (PRESUMED, log 85). -/

def maxPayload : Nat := 128 * 2 ^ min Config.payload 2
def maxReadRequest : Nat := 128 * 2 ^ min Config.readRequest 5

/-- Writes of `d` from host address `a` on, in ascending order. -/
def dmaWrites : Nat → Nat → List Byte → List Out
  | 0, _, _ => []
  | fuel + 1, a, d =>
    if d.isEmpty then []
    else
      let k := min maxPayload (4096 - a % 4096)
      .dma a (d.take k) :: dmaWrites fuel (a + k) (d.drop k)

/-- Read requests for `n` bytes from host address `a` on. -/
def dmaReads : Nat → Nat → Nat → List Out
  | 0, _, _ => []
  | fuel + 1, a, n =>
    if n = 0 then []
    else
      let k := min n (min maxReadRequest (4096 - a % 4096))
      .dmaRead a k :: dmaReads fuel (a + k) (n - k)

def State.emits (s : State) (l : List Out) : State := l.foldl State.emit s

/-! ### Taking and finishing (R359, R362) -/

/-- Queue `q` has an entry to take: the ring serves it, the previous command of the queue has completed and its completion
queue has a free entry. -/
def State.sqReady (s : State) (q : Nat) : Bool :=
  let r := s.sqRing q
  s.hif.ready && s.hostHere && decide (q < 4) && r.en && !r.stopped && decide (r.head ≠ r.tail) && !s.sqBusy q
    && !ringFull (s.cqRing q)

/-- The queue whose entry is next: the first ready one that this pass has not come to, else the first of the next pass. -/
def State.nextQueue (s : State) : Option Nat :=
  match (List.range 4).find? (fun q => decide (s.hif.pass ≤ q) && s.sqReady q) with
  | some q => some q
  | none => (List.range 4).find? s.sqReady

/-- The steward firmware takes the next entry of queue `q` now. -/
def State.canTake (s : State) (q : Nat) : Bool := s.sqReady q && decide (s.nextQueue = some q)

/-- The entry at the head of queue `q` is read and taken. -/
def State.takeEntry (s : State) (q : Nat) : State :=
  let r := s.sqRing q
  let s := s.emit (.dmaRead (r.base + 64 * r.head) 64)
  let s := (s.setSq q { r with head := r.after r.head }).setBusy q true
  { s with hif := { s.hif with pass := q + 1 } }

/-- A command has ended inside the device; its completion waits to be written. -/
def State.finish (s : State) (q op : Nat) (cid : BitVec 16) (status : Nat) (r0 r1 : Word) : State :=
  { s with hif := { s.hif with compl := s.hif.compl ++
      [{ sq := q, op := BitVec.ofNat 8 op, cid := cid, status := status, r0 := r0, r1 := r1, sqHead := (s.sqRing q).head,
         dma := [] }] } }

def stSuccess : Nat := 0x0000
def stOpcode : Nat := 0x0001
def stField : Nat := 0x0002
def stBuffer : Nat := 0x0003
def stBusy : Nat := 0x0004
def stNotAllowed : Nat := 0x0005
def stInternal : Nat := 0x0006
def stAdm : Nat := 0x0100
def stNoContract : Nat := 0x0201
def stState : Nat := 0x0202
def stGun : Nat := 0x0203
def stStopped : Nat := 0x0204
def stHeatLen : Nat := 0x0205
def stSwap : Nat := 0x0206
def stPacer : Nat := 0x0207
def stClaimed : Nat := 0x0208
def stNotOwner : Nat := 0x0209
def stFwVerify : Nat := 0x020A
def stNotStaged : Nat := 0x020B
def stNoSnap : Nat := 0x020C
def stLogRange : Nat := 0x020D
def stToken : Nat := 0x020E

/-- What a command answers: its status, its results and the state after it. -/
structure Done where
  status : Nat
  r0 : Word
  r1 : Word
  s : State
  deriving DecidableEq, Repr

def fail (st : Nat) (s : State) : Done := ⟨st, 0, 0, s⟩
def done (r0 r1 : Word) (s : State) : Done := ⟨stSuccess, r0, r1, s⟩

/-! ### Fields and permissions -/

/-- Field of `n` bytes at offset `o` of an entry's PARAM area (R360): the area begins at 0x18. -/
def sqePar (e : Sqe) (o n : Nat) : Nat := leAt e.param (o - 0x18) n

/-- What a command uses of an entry: HANDLE, the buffer, and PARAM bytes up to an offset (R363). -/
structure Uses where
  handle : Bool
  buf : Bool
  upTo : Nat
  deriving DecidableEq, Repr

/-- Reserved and unused fields are 0 (R360, R362). -/
def sqeClean (e : Sqe) (u : Uses) : Bool :=
  decide (e.flags &&& 0xFE = 0) && decide (e.rsv0 = 0) && decide (e.rsv1 = 0) && (u.handle || decide (e.handle = 0))
    && (u.buf || (decide (e.addr = 0) && decide (e.len = 0) && decide (e.flags = 0)))
    && (e.param.drop (u.upTo - 0x18)).all (fun b => decide (b = 0))

/-- Lifecycle state codes: 0 BLANK, 1 PROVISIONED, 2 OPERATIONAL, 3 SERVICE, 4 RETIRED (R417). -/
def Sec.lcState (c : Sec) : Nat :=
  if c.lcFuse.getLsbD 1 then 4 else if c.lcFuse.getLsbD 0 then c.lc.state.toNat else 0

/-- R428. -/
def allowedIn (op lc : Nat) : Bool :=
  if op = 0x03 ∨ op = 0x04 then decide (lc = 2) || decide (lc = 3)
  else if op = 0x02 then decide (lc = 2)
  else if op = 0x0A ∨ op = 0x0B ∨ op = 0x0E then decide (lc ≠ 4)
  else true

/-- A command takes the entry at the head of its queue, is checked for reserved fields and permission, and runs. -/
def State.runCmd (s : State) (op : Nat) (u : Uses) (e : Sqe) (body : State → Done) : State :=
  if !s.canTake e.sq then s
  else
    let s := s.takeEntry e.sq
    let d := if !sqeClean e u then fail stField s
      else if !allowedIn op s.sec.lcState then fail stNotAllowed s
      else body s
    d.s.finish e.sq op e.cid d.status d.r0 d.r1

/-- A command of kind `op` other than a refused one has been taken and not completed (R359). -/
def State.runs (s : State) (op : Nat) : Bool :=
  s.hif.compl.any (fun c => decide (c.op.toNat = op) && decide (c.status ≠ stBusy)) || (decide (op = 0x03) && s.load.isSome)

/-! ### Host buffers (R361) -/

def sqeSgl (e : Sqe) : Bool := e.flags.getLsbD 0

/-- The scatter list obeys R361. -/
def sqeSglOk (e : Sqe) : Bool :=
  !sqeSgl e ||
    (decide (e.addr.toNat % 16 = 0) && decide (e.buf.sgl.length ≤ 4096)
      && e.buf.sgl.all (fun x => decide (1 ≤ x.2.1) && decide (x.2.1 ≤ 16777216) && decide (x.2.2 = 0))
      && decide ((e.buf.sgl.map (fun x => x.2.1)).sum = e.len.toNat))

/-- The bytes of an in buffer; none when an access failed or the list broke R361. -/
def sqeInput (e : Sqe) : Option (List Byte) :=
  if e.buf.ok && sqeSglOk e && decide (e.buf.data.length = e.len.toNat) then some e.buf.data else none

/-- Host writes of `d` along a scatter list, in ascending order. -/
def scatter : List (Nat × Nat × Nat) → List Byte → List Out
  | [], _ => []
  | (a, n, _) :: r, d => if d.isEmpty then [] else dmaWrites n a (d.take n) ++ scatter r (d.drop n)

/-- The host writes of an out buffer. -/
def bufferOut (e : Sqe) (d : List Byte) : List Out :=
  if sqeSgl e then scatter e.buf.sgl d else dmaWrites d.length e.addr.toNat d

/-- The read requests for a scatter list, and for an in buffer. -/
def listReads (e : Sqe) : List Out :=
  if sqeSgl e then dmaReads (16 * e.buf.sgl.length) e.addr.toNat (16 * e.buf.sgl.length) else []
def bufferReads (e : Sqe) : List Out :=
  if !sqeSgl e then dmaReads e.len.toNat e.addr.toNat e.len.toNat
  else if sqeSglOk e then e.buf.sgl.flatMap (fun x => dmaReads x.2.1 x.1 x.2.1) else []

/-- What the accesses of a command report under AER (R376). -/
def State.aer (s : State) (b : HostBuf) : State :=
  { s with hif := { s.hif with
      cor := s.hif.cor || b.corrected, advisory := s.hif.advisory || decide (b.fault = some .poisoned),
      fatal := s.hif.fatal || decide (b.fault = some .engine) } }

/-- A command reads its scatter list, and its in buffer. -/
def State.readBuffer (s : State) (e : Sqe) : State := ((s.emits (listReads e)).emits (bufferReads e)).aer e.buf

/-- Write `d` to an out buffer: INVALID_FIELD when it is too short, BUFFER_ERROR when an access fails (R361–R363). -/
def State.output (s : State) (e : Sqe) (d : List Byte) (r0 r1 : Word) : Done :=
  if e.len.toNat < d.length then fail stField s
  else
    let s := (s.emits (listReads e)).aer e.buf
    if !(e.buf.ok && sqeSglOk e) then fail stBuffer s
    else done r0 r1 (s.emits (bufferOut e d))

/-! ### The completion entry (R362) -/

/-- HOST_CMD_DROPPED of a completion that is not written (R362, R374). -/
def State.dropCompl (s : State) (c : Compl) : State :=
  s.raise 0x0802 0 (BitVec.ofNat 64 (c.op.toNat + 256 * c.sq + 65536 * c.cid.toNat + 4294967296 * c.status
    + 281474976710656 * (c.r0.toNat % 65536))) false

/-- An MSI-X message of vector `v`: a masked one sets its pending bit (R373, R375). -/
def msixDflt : Nat → Msix := fun _ => msixReset
def State.message (s : State) (v : Nat) : State :=
  let x := tget msixDflt s.hif.msix v
  if !s.hostHere then s
  else if x.mask then { s with hif := { s.hif with msix := tput msixDflt s.hif.msix v { x with pend := true } } }
  else s.emit (.msix v x.addr.toNat x.data)

def Compl.bytes (c : Compl) (p : Bool) : List Byte :=
  leW c.r0 ++ leW c.r1 ++ leBytes c.sqHead 2 ++ leBytes c.sq 1 ++ [0] ++ leBytes c.cid.toNat 2
    ++ leBytes (c.status + (if p then 32768 else 0)) 2

/-- COMPLETION_POST of queue `q`: the completion of its finished command is written, or dropped with HOST_CMD_DROPPED when the
queue is disabled or stopped or a reset caught the command; it waits while the device may not access the host. -/
def completionPost (s : State) (q : Nat) : State :=
  match s.hif.compl.find? (fun c => decide (c.sq = q)) with
  | none => s
  | some c =>
    let r := s.cqRing q
    let cut := s.hif.cut.contains q
    let gone := cut || !r.en || r.stopped
    if !gone && !s.hostHere then s
    else
    let s := { (s.setBusy q false) with hif := { (s.setBusy q false).hif with
      compl := s.hif.compl.filter (fun d => decide (d ≠ c)), cut := s.hif.cut.filter (fun k => decide (k ≠ q)) } }
    if gone then s.dropCompl c
    else
      (((s.emits c.dma).emit (.dma (r.base + 16 * r.tail) (c.bytes r.phase))).setCq q r.push).message r.vector.toNat

/-- A reserved opcode (R363). -/
def invalidOpcode (s : State) (e : Sqe) (op : Byte) : State :=
  if op.toNat = 0 ∨ 0x10 ≤ op.toNat then
    if !s.canTake e.sq then s else (s.takeEntry e.sq).finish e.sq op.toNat e.cid stOpcode 0 0
  else s

def execCompletionPost (q : Nat) (s : State) : Answer := .next (s.live (completionPost s q))
def execInvalidOpcode (e : Sqe) (op : Byte) (s : State) : Answer := .next (s.live (invalidOpcode s e op))

end Sys2Proof.Machine
end

