-- ==== Sys2Proof/Machine/CardParse.lean ====
section
/-! DEFINITION. A race card's bytes read as its sections, and the format checks of R317 steps 1 and 3 (R302–R314, R330, R331,
R337). -/

namespace Sys2Proof.Machine
open Sys2Proof

/-! ### Header and directory (R302, R303) -/

def slice (b : List Byte) (o n : Nat) : List Byte := (b.drop o).take n
def allZero (l : List Byte) : Bool := l.all (fun b => decide (b = 0))

def cardSigOff (b : List Byte) : Nat := leAt b 0x20 4
def cardKeyHash (b : List Byte) : List Byte := slice b 0x30 32

/-- Step 1 of R317. `BUF_LEN` of LOAD_CARD must be TOTAL_LEN (R363). -/
def cardStep1 (b : List Byte) : Bool :=
  decide (leAt b 0 4 = 0x44524352) && decide (leAt b 4 2 = 1) && decide (leAt b 0x27 1 = 1)
    && decide (leAt b 0x1C 4 ≤ 33554432) && decide (cardSigOff b % 32 = 0)
    && decide (leAt b 0x1C 4 = cardSigOff b + 7856) && decide (b.length = leAt b 0x1C 4)

/-- A directory entry (R303). -/
structure Sect where
  type : Nat
  count : Nat
  off : Nat
  len : Nat
  deriving DecidableEq, Repr

def cardSects (b : List Byte) : List Sect :=
  (List.range (leAt b 0x26 1)).map (fun i =>
    let o := 0x50 + 16 * i
    { type := leAt b o 1, count := leAt b (o + 4) 4, off := leAt b (o + 8) 4, len := leAt b (o + 12) 4 })

/-- Bytes from `at_` up to each section, and after the last up to `sig`, are 0, and sections ascend without overlap. -/
def gapsOk (b : List Byte) (sig : Nat) : Nat → List Sect → Bool
  | at_, [] => decide (at_ ≤ sig) && allZero (slice b at_ (sig - at_))
  | at_, x :: r => decide (at_ ≤ x.off) && decide (x.off % 32 = 0) && allZero (slice b at_ (x.off - at_)) && gapsOk b sig (x.off + x.len) r

def dirOk (b : List Byte) : Bool :=
  let n := leAt b 0x26 1
  let l := cardSects b
  let ty := l.map (fun x => x.type)
  decide (5 ≤ n) && decide (n ≤ 11) && l.all (fun x => within x.type 1 11) && decide ty.Nodup
    && [1, 2, 3, 9, 11].all (fun t => ty.contains t)
    && (List.range n).all (fun i => allZero (slice b (0x51 + 16 * i) 3))
    && gapsOk b (cardSigOff b) (0x50 + 16 * n) l

/-- Count and bytes of a section; none is an empty section. -/
def cardSect (b : List Byte) (t : Nat) : Nat × List Byte :=
  match (cardSects b).find? (fun x => decide (x.type = t)) with
  | some x => (x.count, slice b x.off x.len)
  | none => (0, [])

/-- Read `n` records one after another; `p` reads one and says how long it is. -/
def parseRecs {α : Type} (p : List Byte → Option (α × Nat)) : Nat → List Byte → Option (List α)
  | 0, _ => some []
  | n + 1, l =>
    match p l with
    | none => none
    | some (a, k) => if l.length < k then none else (parseRecs p n (l.drop k)).map (fun r => a :: r)

def parseSect {α : Type} (b : List Byte) (t : Nat) (p : List Byte → Option (α × Nat)) : Option (List α) :=
  parseRecs p (cardSect b t).1 (cardSect b t).2

/-- `a` when the condition holds. -/
def whenOk {α : Type} (c : Bool) (a : α) : Option α := if c then some a else none

/-! ### Seats, images, start records (R304–R306) -/

def parseSeat (l : List Byte) : Option (SeatRec × Nat) :=
  whenOk (allZero (slice l 12 4))
    ({ seat := leAt l 0 2, partner := leAt l 2 2, role := leAt l 4 1, startIdx := leAt l 5 1, image := leAt l 6 2,
       homeImg := leAt l 8 2, certIdx := leAt l 10 2 }, 16)

def parseImage (b l : List Byte) : Option (ImageRec × Nat) :=
  let off := leAt l 0 4
  let len := leAt l 4 4
  let at_ := leAt l 12 4
  let kind := leAt l 8 1
  whenOk (allZero (slice l 9 3) && decide (off % 32 = 0) && decide (len % 32 = 0) && decide (at_ % 32 = 0)
      && decide (off + len ≤ cardSigOff b)
      && (decide (kind = 0) && decide (at_ + len ≤ 16384) || decide (kind = 1) && decide (at_ + len ≤ 65536)))
    ({ kind := kind, loadAt := at_, bytes := slice b off len }, 16)

/-- A 16-byte capability specification; all zero is null (R306). -/
def specAt (l : List Byte) (o : Nat) : Cap := capOf (slice l o 16) (!allZero (slice l o 16))

def parseSeed (l : List Byte) : Option ((Nat × Cap) × Nat) :=
  whenOk (allZero (slice l 4 12)) ((leAt l 0 4, specAt l 16), 32)

def parseStart (b l : List Byte) : Option (StartRec × Nat) :=
  let n := leAt l 0xA8 2
  let off := leAt l 0xAC 4
  if !(allZero (slice l 0xA4 4) && allZero (slice l 0xAA 2) && decide (n ≤ 256) && decide (off % 32 = 0)
      && decide (off + 32 * n ≤ cardSigOff b)) then none
  else
    (parseRecs parseSeed n (slice b off (32 * n))).map (fun seeds =>
      ({ fcap := specAt l 0, c := (List.range 8).map (fun k => specAt l (0x10 + 16 * k)), tdt := specAt l 0x90,
         laneCfg := leWordAt l 0xA0, seeds := seeds }, 176))

/-! ### Relay, streams, lists (R309, R310) -/

def routerOf (kind n : Nat) : Option RouterId :=
  if kind = 0 ∧ n < 64 then some (.squad n)
  else if kind = 1 ∧ n < 8 then some (.field n)
  else if kind = 2 ∧ n < 8 then some (.ring n)
  else none

/-- Reserved bits, inputs and destinations of an entry (R219, R225, R231). -/
def relayEntryOk (r : RouterId) (n : Nat) (e : BitVec 16) : Bool :=
  match r with
  | .squad _ =>
    if n ≤ 16 then
      decide (e.extractLsb' 5 2 = 0) && decide ((e.extractLsb' 0 5).toNat ≤ 20) &&
        (if e.getLsbD 14 then !e.getLsbD 15 || remoteDst (e.extractLsb' 7 7).toNat else decide (e.extractLsb' 7 7 = 0))
    else decide (e.extractLsb' 5 10 = 0) && decide ((e.extractLsb' 0 5).toNat ≤ 16)
  | .field _ => decide (e.extractLsb' 6 9 = 0) && decide ((e.extractLsb' 0 6).toNat ≤ 39)
  | .ring _ => decide (e.extractLsb' 1 14 = 0)

/-- A phase directory: reserved bits, BASE + PERIOD, and present phases numbered from 0 in ascending START (R217, R231). -/
def phasesFrom : Option Nat → List (BitVec 64) → Bool
  | _, [] => true
  | last, d :: r =>
    if dirV d then
      (match last with | none => true | some s => decide (s < dirStart d)) && phasesFrom (some (dirStart d)) r
    else r.all (fun x => !dirV x)

def relayDirOk (l : List (BitVec 64)) : Bool :=
  l.all (fun d => decide (d.extractLsb' 48 14 = 0) && decide (d.extractLsb' 21 3 = 0)
      && (!dirV d || decide (dirBase d + dirPeriod d ≤ 2048)))
    && phasesFrom none l

def parseRelay (l : List Byte) : Option (RelayRec × Nat) :=
  let w := leAt l 0 4
  let n := leAt l 4 2
  match routerOf (w / 1073741824) (w / 65536 % 16384) with
  | none => none
  | some r =>
    let o := w % 65536
    let used := 0x48 + 2 * n
    let size := (used + 7) / 8 * 8
    let dir := (List.range 8).map (fun k => BitVec.ofNat 64 (leAt l (8 + 8 * k) 8))
    let ent := (List.range n).map (fun k => BitVec.ofNat 16 (leAt l (0x48 + 2 * k) 2))
    whenOk (decide (o < nOuts r) && decide (n ≤ 2048) && allZero (slice l 6 2) && allZero (slice l used (size - used))
        && ent.all (relayEntryOk r o) && relayDirOk dir)
      ({ router := r, output := o, dir := dir, ent := ent }, size)

/-- Outputs appear once, and a phase is present in all of them with one START, or in none (R217, R231, R309). -/
def relaysOk (l : List RelayRec) : Bool :=
  decide (l.map (fun r => outKey r.router r.output)).Nodup &&
    l.all (fun a => l.all (fun b => (List.range 8).all (fun k =>
      let x := a.dir.getD k 0
      let y := b.dir.getD k 0
      dirV x == dirV y && (!dirV x || decide (dirStart x = dirStart y)))))

def parseStream (l : List Byte) : Option (StreamRec × Nat) :=
  let n := leAt l 4 4
  let ds := (List.range n).map (fun k => BitVec.ofNat 128 (leAt l (8 + 16 * k) 16))
  whenOk (decide (leAt l 0 1 < 8) && allZero (slice l 1 3) && within n 1 256
      && ds.all (fun d => descV d && !descBad d && decide (1 ≤ descCount d)))
    ({ engine := leAt l 0 1, desc := ds }, 8 + 16 * n)

def parseMcast (l : List Byte) : Option (McastRec × Nat) :=
  whenOk (allZero (slice l 1 7) && allZero (slice l 18 2) && allZero (slice l 20 4))
    ({ list := leAt l 0 1, bits := BitVec.ofNat 128 (leAt l 8 16) }, 24)

/-! ### Ingest and egress (R330, R331, R337) -/

def parseIngest (l : List Byte) : Option (IngestRec × Nat) :=
  let n := leAt l 2 2
  let kind := leAt l 1 1
  let udp := leAt l 12 2
  whenOk (decide (leAt l 0 1 < 16) && decide (kind ≤ 1) && within n 1 (if kind = 0 then 128 else 512)
      && allZero (slice l 14 2) && allZero (slice l 20 12)
      && (if kind = 0 then decide (udp ≠ 319) && decide (udp ≠ 320) else allZero (slice l 8 6)))
    ({ port := leAt l 0 1, kind := kind, srcIp := leWordAt l 4, dstIp := leWordAt l 8, dstUdp := BitVec.ofNat 16 udp,
       status := leWordAt l 16, map := (List.range n).map (fun k => leWordAt l (32 + 4 * k)) }, 32 + 4 * n)

def elemLen (e : Word) : Nat := if elemSize e = 0 then 32 else 16

/-- The UDP payload of an Ethernet record (R338). -/
def EgressRec.payload (r : EgressRec) : Nat := (r.elem.map elemLen).sum + (if r.trailer then 8 else 0)

def parseEgress (l : List Byte) : Option (EgressRec × Nat) :=
  let n := leAt l 2 2
  let kind := leAt l 1 1
  let r : EgressRec :=
    { port := leAt l 0 1, kind := kind, ofs := leAt l 4 4, dstMac := slice l 8 6, vlan := BitVec.ofNat 16 (leAt l 14 2),
      dstIp := leWordAt l 16, srcUdp := BitVec.ofNat 16 (leAt l 20 2), dstUdp := BitVec.ofNat 16 (leAt l 22 2),
      tos := byteAt l 24, ttl := byteAt l 25, trailer := (byteAt l 26).getLsbD 0,
      elem := (List.range n).map (fun k => leWordAt l (32 + 4 * k)) }
  whenOk (decide (leAt l 0 1 < 16) && decide (kind ≤ 1) && within n 1 512 && decide (leAt l 26 1 ≤ 1)
      && allZero (slice l 27 5)
      && r.elem.all (fun e => decide (elemSize e ≠ 3) && decide (e.extractLsb' 11 9 = 0)
        && (decide (kind = 0) || decide (elemSize e = 0)))
      && (if kind = 0 then within r.payload 18 4104 else allZero (slice l 8 20)))
    (r, 32 + 4 * n)

/-! ### Windows, teams, certificate (R312–R314) -/

def parseWindows (l : List Byte) : Option (Windows × Nat) :=
  let n := leAt l 12 1
  whenOk (decide (n ≤ 8) && allZero (slice l 13 3) && allZero (slice l (16 + 4 * n) (32 - 4 * n)))
    ({ i := leAt l 0 4, c := leAt l 4 4, e := leAt l 8 4, k := (List.range n).map (fun k => leAt l (16 + 4 * k) 4) }, 48)

def parseTeam (l : List Byte) : Option (TeamRec × Nat) :=
  let nin := leAt l 9 1
  let nout := leAt l 10 1
  let ns := leAt l 30 2
  let size := leAt l 0 2
  whenOk (decide (size % 4 = 0) && decide (32 + nin + nout + 2 * ns ≤ size) && allZero (slice l 11 1)
      && within (leAt l 8 1) 1 3 && decide (1 ≤ leAt l 16 4) && decide (leAt l 2 2 ≠ 0xFFFF)
      && allZero (slice l (32 + nin + nout + 2 * ns) (size - (32 + nin + nout + 2 * ns))))
    ({ team := leAt l 2 2, parent := leAt l 4 2, front := leAt l 6 2, tier := leAt l 8 1, nIn := nin, nOut := nout,
       lambda := leAt l 12 4, hold := leAt l 16 4, trigFirst := leAt l 20 4, trigPeriod := leAt l 24 4,
       trigCount := leAt l 28 2, ports := (List.range (nin + nout)).map (fun k => leAt l (32 + k) 1),
       seats := (List.range ns).map (fun k => leAt l (32 + nin + nout + 2 * k) 2) }, size)

def winAt (l : List Byte) (o : Nat) : CertWin :=
  { start := leAt l o 4, end_ := leAt l (o + 4) 4, lc := leAt l (o + 8) 4, idle0 := leAt l (o + 12) 4,
    idle1 := leAt l (o + 16) 4, rods0 := leAt l (o + 20) 2, rods1 := leAt l (o + 22) 2 }

def parseCertSeat (l : List Byte) : Option (CertSeat × Nat) :=
  let n := leAt l 2 1
  whenOk (within n 1 16 && allZero (slice l 3 1) && allZero (slice l 12 4) && allZero (slice l (16 + 24 * n) (384 - 24 * n)))
    ({ seat := leAt l 0 2, workEnd := leAt l 4 4, sends := leAt l 8 2, recvs := leAt l 10 2,
       win := (List.range n).map (fun k => winAt l (16 + 24 * k)) }, 400)

def parseCert (l : List Byte) : Option Cert :=
  if !(allZero (slice l 2 6) && allZero (slice l 0xAC 4) && decide (0xB0 ≤ l.length)) then none
  else
    (parseRecs parseCertSeat (leAt l 0 2) (l.drop 0xB0)).map (fun seats =>
      { qrod := (List.range 8).map (fun k => leAt l (8 + 4 * k) 4)
        inWire := (List.range 16).map (fun k => leAt l (0x28 + 4 * k) 4)
        outWire := (List.range 16).map (fun k => leAt l (0x68 + 4 * k) 4), outputs := leAt l 0xA8 4, seats := seats })

/-! ### The card -/

/-- A card read from its bytes; none when a section breaks its layout. -/
def parseCard (b : List Byte) : Option Card :=
  match parseSect b 1 parseSeat, parseSect b 2 (parseImage b), parseSect b 3 (parseStart b), parseSect b 4 parseRelay,
      parseSect b 5 parseStream, parseSect b 6 parseMcast, parseSect b 7 parseIngest, parseSect b 8 parseEgress,
      parseSect b 9 parseWindows, parseSect b 10 parseTeam, parseCert (cardSect b 11).2 with
  | some seats, some images, some start, some relay, some streams, some mcast, some ingest, some egress, some [win],
      some teams, some cert =>
    let fl : BitVec 16 := BitVec.ofNat 16 (leAt b 6 2)
    some { paired := fl.getLsbD 0, inSig := fl.getLsbD 1, outSig := fl.getLsbD 2,
           cardId := BitVec.ofNat 64 (leAt b 8 8), replaces := BitVec.ofNat 64 (leAt b 0x10 8), heatLen := leAt b 0x18 4,
           seats := seats, images := images, start := start, relay := relay, streams := streams, mcast := mcast,
           ingest := ingest, egress := egress, win := win, teams := teams, cert := cert }
  | _, _, _, _, _, _, _, _, _, _, _ => none

/-- Header fields that step 3 covers. -/
def headerOk (b : List Byte) : Bool :=
  decide (leAt b 6 2 < 8) && decide (leAt b 8 8 ≠ 0) && allZero (slice b 0x28 8) && within (leAt b 0x24 2) 1 1024
    && decide ((cardSect b 1).1 = leAt b 0x24 2)

/-- A list is strictly ascending. -/
def ascending : List Nat → Bool
  | a :: b :: r => decide (a < b) && ascending (b :: r)
  | _ => true

/-- A seat record names what the card holds (R304). -/
def seatRecOk (c : Card) (r : SeatRec) : Bool :=
  decide (r.seat < 1024) && decide (r.role ≤ 2) && decide (r.startIdx < c.start.length)
    && (match c.images[r.image]? with | some i => decide (i.kind = 0) | none => false)
    && (decide (r.homeImg = 0xFFFF) || (match c.images[r.homeImg]? with | some i => decide (i.kind = 1) | none => false))
    && (match c.cert.seats[r.certIdx]? with | some x => decide (x.seat = r.seat) | none => false)
    && (if c.paired then decide (r.partner < 1024) else decide (r.partner = 0xFFFF) && decide (r.role = 0))

def Card.owns (c : Card) (n : Nat) : Bool := (c.seatRec n).isSome
def Card.ownsList (c : Card) (k : Nat) : Bool := c.mcast.any (fun m => decide (m.list = k))

/-- A map element (R331). -/
def mapElemOk (c : Card) (e : Word) : Bool :=
  !e.getLsbD 30 && decide (e.extractLsb' 11 9 = 0) && decide (elemRod e < 0x7E0)
    && (if elemMc e then decide (e.extractLsb' 28 2 = 0) && c.ownsList (e.extractLsb' 20 8).toNat else c.owns (elemSeat e))

/-- Two flow records can match one frame (R330). -/
def flowsMeet (a b : IngestRec) : Bool :=
  decide (a.port = b.port) && decide (a.kind = 0) && decide (b.kind = 0) && decide (a.dstIp = b.dstIp)
    && decide (a.dstUdp = b.dstUdp) && (decide (a.srcIp = 0) || decide (b.srcIp = 0) || decide (a.srcIp = b.srcIp))

/-- No two entries of a list are related by `f`. -/
def pairwiseNot {α : Type} (f : α → α → Bool) : List α → Bool
  | [] => true
  | a :: r => r.all (fun b => !f a b) && pairwiseNot f r

/-- Ports of a list of records obey the per-port counts (R330, R337); a Kaong flow stands alone on its port. -/
def portCountsOk (alone : Bool) (l : List (Nat × Nat × Nat)) : Bool :=
  (List.range 16).all (fun p =>
    let m := l.filter (fun x => decide (x.1 = p))
    decide (m.length ≤ 8) && decide ((m.map (fun x => x.2.2)).sum ≤ 512)
      && (!alone || m.all (fun x => decide (x.2.1 = 0)) || decide (m.length ≤ 1)))

/-- Step 3 of R317, but for what depends on the device's state. -/
def Card.formatOk (c : Card) : Bool :=
  ascending (c.seats.map (fun r => r.seat)) && c.seats.all (seatRecOk c) && relaysOk c.relay
    && decide (c.streams.map (fun r => r.engine)).Nodup
    && decide (c.mcast.map (fun m => m.list)).Nodup
    && c.ingest.all (fun r => r.map.all (mapElemOk c) && (decide (r.status = 0xFFFFFFFF) || mapElemOk c r.status))
    && pairwiseNot flowsMeet c.ingest && portCountsOk true (c.ingest.map (fun r => (r.port, r.kind, r.map.length)))
    && c.egress.all (fun r => r.elem.all (fun e => c.owns (elemOutSeat e)))
    && portCountsOk false (c.egress.map (fun r => (r.port, r.kind, r.elem.length)))

end Sys2Proof.Machine
end

