-- ==== Sys2Proof/Machine/Contract.lean ====
section
/-! DEFINITION. A contract's life: its resources, the banks written for it, its start, withdrawal and release, and the clearing
of its seats (R229, R274, R308, R321–R325, R336, R391). -/

namespace Sys2Proof.Machine
open Sys2Proof

/-! ### What a card holds -/

/-- Ports that a card names (R311). -/
def Card.ports (c : Card) : List Nat := (c.ingest.map (fun r => r.port) ++ c.egress.map (fun r => r.port)).eraseDups
/-- Lists that a card defines or that its elements and descriptors name (R274). -/
def Card.lists (c : Card) : List Nat :=
  (c.mcast.map (fun m => m.list) ++ c.streams.flatMap (fun r => (r.desc.filter descMc).map descList)).eraseDups

def Card.ingestOn (c : Card) (k : Nat) : List IngestRec := c.ingest.filter (fun r => decide (r.port = k))
def Card.egressOn (c : Card) (k : Nat) : List EgressRec := c.egress.filter (fun r => decide (r.port = k))

/-- The mode resource of port `k` is locked by a contract that names the port (R475). -/
def State.portLocked (s : State) (k : Nat) : Bool := s.con.any (fun c => c.card.ports.contains k)

/-- A table of the values of a list, from key 0. -/
def mkTab {α : Type} [DecidableEq α] (D : Nat → α) (l : List α) : Tab α :=
  l.zipIdx.foldl (fun t x => tput D t x.2 x.1) []

def h16 (h : Nat) : BitVec 16 := BitVec.ofNat 16 h

/-! ### Inactive banks (R229, R274, R279, R310, R322, R336) -/

/-- The inactive bank of an output is written with its owner. -/
def ROut.load (o : ROut) (h : BitVec 16) (r : RelayRec) : ROut :=
  let e := mkTab ent16 r.ent
  let d := mkTab ent64 r.dir
  if o.bank then { o with bank0 := e, dir0 := d, newOwner := h } else { o with bank1 := e, dir1 := d, newOwner := h }

def Engine.load (g : Engine) (h : BitVec 16) (r : StreamRec) : Engine :=
  let d := mkTab descDflt r.desc
  if g.bank then { g with bank0 := d, newOwner := h } else { g with bank1 := d, newOwner := h }

/-- The port's inactive banks are written: a card without a record of one direction leaves that direction empty. -/
def Port.load (t : Port) (h : BitVec 16) (i : List IngestRec) (e : List EgressRec) : Port :=
  let t := if t.ig.bank then { t with in0 := ingestBank i } else { t with in1 := ingestBank i }
  let t := if t.eg.bank then { t with out0 := egressBank e } else { t with out1 := egressBank e }
  { t with ig := { t.ig with newOwner := h }, eg := { t.eg with newOwner := h } }

/-- From gun G − 3 the firmware writes the inactive banks of a scheduled contract's outputs, engines and ports. -/
def State.writeBanks (s : State) (c : Contract) : State :=
  let h := h16 c.handle
  let s := c.card.relay.foldl (fun s r => s.setRout r.router r.output ((s.rout r.router r.output).load h r)) s
  let s := c.card.streams.foldl (fun s r => s.setEngine r.engine ((s.engine r.engine).load h r)) s
  let s := c.card.ports.foldl (fun s k => s.setPort k ((s.port k).load h (c.card.ingestOn k) (c.card.egressOn k))) s
  s.setContract { c with banksAt := c.startGun }

def mcastDflt : Nat → BitVec 128 := fun _ => 0
/-- A multicast list with its owner (R279, R310). -/
def mcOwned (b : BitVec 128) (h : BitVec 16) : BitVec 128 :=
  (b &&& ~~~((0xFFFF : BitVec 128) <<< 80)) ||| (h.zeroExtend 128 <<< 80)
def mcOwner (b : BitVec 128) : BitVec 16 := b.extractLsb' 80 16

/-- The inactive bank of lists takes over the active bank with the contract's lists in it. -/
def Mcast.load (m : Mcast) (first : Bool) (h : BitVec 16) (l : List McastRec) : Mcast :=
  let base := if first then (if m.bank then m.bank1 else m.bank0) else (if m.bank then m.bank0 else m.bank1)
  let t := l.foldl (fun t x => tput mcastDflt t x.list (mcOwned x.bits h)) base
  if m.bank then { m with bank0 := t, arm := true } else { m with bank1 := t, arm := true }

/-- In heat G − 1 the ARM bits are set, and the cycle in which the ingest records change is fixed (R229, R322, R336). -/
def State.armBanks (s : State) (c : Contract) : State :=
  let s := c.card.relay.foldl (fun s r => s.setRout r.router r.output { s.rout r.router r.output with arm := true }) s
  let s := c.card.streams.foldl (fun s r => s.setEngine r.engine { s.engine r.engine with arm := true }) s
  let s := { s with mc := if c.card.mcast.isEmpty then s.mc else s.mc.load (!s.mc.arm) (h16 c.handle) c.card.mcast }
  c.card.ports.foldl (fun s k =>
    let t := s.port k
    let x := match s.ownerOf t.ig.owner with
      | some d => if c.replaced = some d.handle ∧ !(d.card.ingestOn k).isEmpty then d.card.win.i else c.card.win.i
      | none => c.card.win.i
    s.setPort k { t with
      ig := { t.ig with arm := true }, eg := { t.eg with arm := true }, inAt := some (s.pacer.gunAt + x + 1) }) s

/-- The firmware's part at a gun for every scheduled contract. -/
def State.prepare (s : State) : State :=
  let n := s.heatN
  s.con.foldl (fun s c =>
    if c.state ≠ .scheduled then s
    else
      let s := if c.startGun ≤ n + 3 ∧ c.banksAt ≠ c.startGun then s.writeBanks c else s
      if c.startGun = n + 1 then s.armBanks c else s) s

/-! ### Seats that leave a contract (R324, R391) -/

/-- A seat's lane is reset and waits to be cleared; what its mailboxes hold is flushed. -/
def State.vacate (s : State) (bound n : Nat) : State :=
  let s := match s.seatLane n with | some p => s.clearLane p 0x7FE 0x0000FFFF | none => s
  let s := s.roleChange n
  { s with pair := { s.pair with clearing := s.pair.clearing ++ [(n, bound)] } }

/-- Zero data and tags 0 in every array; the remaps stay (R324). -/
def RodArr.blank (a : RodArr) : RodArr := { a with cells := [], tags := [] }
def LaneMem.blank (m : LaneMem) : LaneMem :=
  { m with h0 := m.h0.blank, h1 := m.h1.blank, is := m.is.blank, dirty := [], fresh := [] }
def State.blankLane (s : State) (p : Nat) : State := s.setLmem p (s.lmem p).blank

/-- An emission still has to read lane `p` (R323, R324). -/
def State.stillRead (s : State) (p : Nat) : Bool :=
  (List.range 16).any (fun k => (s.port k).runs.any (fun x =>
    x.srcs.zipIdx.any (fun y => decide (y.1.1 = some p) && (x.elem y.2).isNone)))

/-- The clearing of a seat ends: the seat is free. -/
def State.endClear (s : State) (n : Nat) : State :=
  let s := match s.seatLane n with | some p => s.blankLane p | none => s
  { s with pair := { s.pair with clearing := s.pair.clearing.filter (fun x => decide (x.1 ≠ n)) } }

/-- SEAT_CLEAR_DONE. -/
def seatClearDone (s : State) (n : Nat) : State :=
  if !s.pair.clearing.any (fun x => decide (x.1 = n)) then s
  else if (match s.seatLane n with | some p => s.stillRead p | none => false) then s
  else s.endClear n

/-- At a gun, clearings whose bound has come have ended (R324). -/
def State.clearDue (s : State) : State :=
  (s.pair.clearing.filter (fun x => decide (x.2 ≤ s.heatN))).foldl (fun s x => s.endClear x.1) s

/-! ### Resources that leave a contract -/

def ROut.drop (o : ROut) (h : BitVec 16) : ROut :=
  let o := if o.owner = h then { o with owner := 0xFFFF } else o
  if o.newOwner = h then { o with newOwner := o.owner, arm := false } else o
def Engine.drop (g : Engine) (h : BitVec 16) : Engine :=
  let g := if g.owner = h then { g with owner := 0xFFFF, ended := true, reads := [] } else g
  if g.newOwner = h then { g with newOwner := g.owner, arm := false } else g
def Pctrl.drop (c : Pctrl) (h : BitVec 16) : Pctrl :=
  let c := if c.owner = h then { c with owner := 0xFFFF } else c
  if c.newOwner = h then { c with newOwner := c.owner, arm := false } else c
def Port.drop (t : Port) (h : BitVec 16) : Port :=
  { t with ig := t.ig.drop h, eg := t.eg.drop h, inAt := if t.ig.newOwner = h then none else t.inAt }
def mcDrop (h : BitVec 16) (t : Tab (BitVec 128)) : Tab (BitVec 128) :=
  tmap mcastDflt (fun _ b => if mcOwner b = h ∧ b ≠ 0 then 0 else b) t

/-- Outputs, engines, lists and ports of a contract become unowned (R324). -/
def State.freeResources (s : State) (c : Contract) : State :=
  let h := h16 c.handle
  let s := c.card.relay.foldl (fun s r => s.setRout r.router r.output ((s.rout r.router r.output).drop h)) s
  let s := c.card.streams.foldl (fun s r => s.setEngine r.engine ((s.engine r.engine).drop h)) s
  let s := { s with mc := { s.mc with bank0 := mcDrop h s.mc.bank0, bank1 := mcDrop h s.mc.bank1 } }
  c.card.ports.foldl (fun s k => s.setPort k ((s.port k).drop h)) s

/-- A contract that was to replace `h`, which is gone, replaces none; at its own starting gun that is its swap (R323). -/
def Contract.unlink (c : Contract) (n h : Nat) : Contract :=
  if c.replaced = some h then
    { c with replaced := none, swapped := if c.state == .scheduled && decide (c.startGun = n) then n + 1 else c.swapped }
  else c

/-- A contract leaves the list, and its handle with it. -/
def State.dropContract (s : State) (h : Nat) : State :=
  { s with con := (s.con.filter (fun c => decide (c.handle ≠ h))).map (fun c => c.unlink s.heatN h) }

/-! ### Scratching (R325, R401, R402, R450) -/

/-- A seat whose lane is lost moves to the squad's reserve when that is free; else it holds no lane. The answer says
whether it moved. -/
def State.moveSeat (s : State) (n p : Nat) : Bool × State :=
  if isReserve p ∨ s.reserveFree (reserveOf p) = false then (false, (s.clearLane p 0x7FE 0x0000FFFF).setSeatLane n none)
  else (true, ((s.reroute p).setSeatLane n (some (reserveOf p))).clearLane p 0x7FE 0x0000FFFF |>.blankLane (reserveOf p))

/-- The seat that a lane stands for under the seat map. -/
def State.seatAt (s : State) (p : Nat) : Option Nat :=
  match s.pair.seatMap.find? (fun e => decide (e.2 = some p)) with
  | some e => some e.1
  | none => match slotSeat p with
    | some n => if s.seatLane n = some p then some n else none
    | none => none

/-- The partner's lane is copied into the lane of a seat: instruction store and home, with tags (R325). -/
def State.copyLane (s : State) (src dst : Nat) : State := (List.range 2560).foldl (fun s i => s.copyRod src dst i noHopErr) s

/-- A contract that holds a handle but is not in effect gives everything back (R321, R324, R325). -/
def State.release (s : State) (c : Contract) : State :=
  let s := s.freeResources c
  let s := c.card.seats.foldl (fun s r => s.vacate (s.heatN + 2) r.seat) s
  s.dropContract c.handle

/-- A lane of no running contract is scratched: its seat is reseated, or the contract that waits for it is lost (R325). -/
def State.scratchIdle (s : State) (p cause : Nat) : State :=
  let s := s.scratch p cause
  match s.seatAt p with
  | none => s
  | some n =>
    let x := s.moveSeat n p
    let s := x.2
    match s.con.find? (fun c => !c.running && c.card.owns n) with
    | none => s
    | some c =>
      match c.card.paired && x.1, s.seatLane n, s.seatLane (c.card.partner n) with
      | true, some d, some q => s.copyLane q d
      | _, _, _ => (s.release c).raise 0x0206 (srcW 5 c.handle) 0

/-! ### Withdrawal (R29 step 4, R323, R324) -/

/-- With E ≥ L, the emission of the heat that has ended begins from result rods that stay untouched (R323). -/
def State.lastRuns (s : State) (c : Contract) (prev : Nat) : State :=
  if c.card.win.e < c.card.heatLen ∨ prev < c.startGun then s
  else
    c.card.ports.foldl (fun s k =>
      let t := s.port k
      if t.eg.owner ≠ h16 c.handle ∨ t.ran = prev + 1 ∨ t.outRecs.isEmpty then s
      else s.startRun k c t.outRecs prev (s.pacer.gunAt + (c.card.win.e - c.card.heatLen)) true) s

/-- A contract in effect is withdrawn at the current gun. -/
def State.withdrawNow (s : State) (c : Contract) : State :=
  let s := s.lastRuns c (s.heatN - 1)
  let s := s.forgetPairs c
  let s := s.freeResources c
  let s := c.card.seats.foldl (fun s r => s.vacate (s.heatN + 2) r.seat) s
  let s := (s.dropContract c.handle).raise 0x0202 (srcW 5 c.handle) 0
  let mine := s.pair.deferred.filter (fun x => decide (x.1 = c.handle))
  let s := { s with pair := { s.pair with deferred := s.pair.deferred.filter (fun x => decide (x.1 ≠ c.handle)) } }
  mine.foldl (fun s x => if s.pair.scratched.contains x.2.1 then s else s.scratchIdle x.2.1 x.2.2) s

/-- Withdrawals of the current gun: those asked for, those of broken contracts, and contracts that a card starting here
replaces. -/
def State.withdrawals (s : State) : State :=
  let n := s.heatN
  let out := s.con.filter (fun c => c.running &&
    ((match c.pendW with | some w => decide (w ≤ n) | none => false)
      || s.con.any (fun d => d.state == .scheduled && decide (d.startGun = n) && decide (d.replaced = some c.handle))))
  out.foldl State.withdrawNow s

/-! ### Start (R29 step 4, R308) -/

/-- Every seed is written into its half with tag 1, marked where the other half was uncorrectable; each uses one cycle of its
bank (R169, R242, R248, R308). -/
def State.seedSeat (s : State) (c : Contract) (r : SeatRec) : State :=
  match s.seatLane r.seat, c.card.start[r.startIdx]? with
  | some p, some st => (st.seeds.foldl (fun s x =>
      let a := x.1 % 65536 / 32 * 32
      let hi := x.1 / 16 % 2 = 1
      let q := s.rodRead p a 3
      let d := if hi then q.1.data.take 16 ++ x.2.bytes else x.2.bytes ++ q.1.data.drop 16
      let t := q.1.tags ||| (if hi then 2 else 1)
      q.2.rodWrite p a d t q.1.bad) s).useRods p (st.seeds.map (fun x => x.1 % 65536))
  | _, _ => s

/-- The home banks of every lane of the contract are idle in this cycle (R248). -/
def State.seedFree (s : State) (c : Contract) : Bool :=
  c.card.seats.all (fun r => match s.seatLane r.seat with | some p => s.arrFree p 0 && s.arrFree p 1 | none => true)

def State.writeSeeds (s : State) (c : Contract) : State :=
  (c.card.seats.foldl (fun s r => s.seedSeat c r) s).setContract { c with seeded := true }

/-- SEED_WRITE: in the cool-down of heat G − 1, when the home banks are idle (R248, R308, R322). DESIGN CHOICE (log 77): all seeds
of the contract are written in one cycle, and the banks stay in use for one cycle a seed. -/
def seedWrite (s : State) (h : Nat) : State :=
  match s.contract h with
  | none => s
  | some c =>
    if c.state = .scheduled ∧ s.heatN + 1 = c.startGun ∧ c.seeded = false ∧ s.cooling = true ∧ s.seedFree c = true then s.writeSeeds c else s

/-- A seat starts its contract at the current gun (R70, R308). -/
def State.startSeat (s : State) (c : Contract) (r : SeatRec) : State :=
  match s.seatLane r.seat, c.card.start[r.startIdx]? with
  | some p, some st =>
    let s := s.roleChange r.seat
    let l := laneReset p
    let l := { l with
      mode := .run, fcap := st.fcap, c := mkTab capDflt st.c, tdt := st.tdt, cfg := st.laneCfg.truncate 2
      master := BitVec.ofNat 11 r.seat
      rly := { l.rly with team := c.card.teamInfo r.seat }
      ctl := { l.ctl with pc := st.fcap.pos, restart := true, exact := true, ready := s.now + 2 } }
    s.setLane p l
  | _, _ => s

/-- Activation of a scheduled contract at the current gun. -/
def State.startNow (s : State) (c : Contract) : State :=
  let s := if c.seeded then s else s.writeSeeds c
  let free := s.pacer.state == .freerun
  let c := { c with state := .active, seeded := true, sampled := [], sel := [], selPrev := [], unsync := free }
  let s := c.card.seats.foldl (fun s r => s.startSeat c r) (s.setContract c)
  let s := s.raise 0x0201 (srcW 5 c.handle) c.card.cardId
  if free then s.raise 0x0204 (srcW 5 c.handle) 0 else s

/-- Swaps and activations of the current gun. -/
def State.activations (s : State) : State :=
  (s.con.filter (fun c => c.state == .scheduled && decide (c.startGun = s.heatN))).foldl State.startNow s

/-! ### Bank switches (R29 step 4, R229, R274, R336) -/

def ROut.gun (o : ROut) : ROut := if o.arm then { o with bank := !o.bank, owner := o.newOwner, arm := false } else o

/-- A port at the gun: the output half switches with ARM set; an ingest switch that was due has taken place. -/
def Port.gun (t : Port) (now : Nat) : Port :=
  let t := if t.eg.arm then { t with eg := { t.eg with bank := !t.eg.bank, owner := t.eg.newOwner, arm := false } } else t
  match t.inAt with
  | some a => if a ≤ now then t.switchIn a else t
  | none => t

def State.bankSwitch (s : State) : State :=
  { s with
    relay := { s.relay with outs := tmap routDflt (fun _ o => o.gun) s.relay.outs }
    eng := tmap engDflt (fun _ g => g.gun) s.eng
    mc := s.mc.gun
    mems := tmap lmemDflt (fun _ m => m.dropStream) s.mems
    ports := tmap portDflt (fun _ t => t.gun s.now) s.ports }

def execSeatClearDone (seat : Nat) (s : State) : Answer := .next (s.live (seatClearDone s seat))
def execSeedWrite (h : Nat) (s : State) : Answer := .next (s.live (seedWrite s h))

end Sys2Proof.Machine
end

