-- ==== Sys2Proof/Machine/Admission.lean ====
section
/-! DEFINITION. LOAD_CARD and the admission of a race card (R25, R225, R228, R233–R236, R264, R276, R280, R302–R320, R339,
R395, R475). -/

namespace Sys2Proof.Machine
open Sys2Proof

/-! ### Step 2: the signature (R315) -/

def keyDflt : Nat → Option (List Byte) := fun _ => none
/-- The slot of the enrolled schedule key whose SHA-256 is KEY_HASH. -/
def State.keySlot (s : State) (b : List Byte) : Option Nat :=
  (List.range 8).find? (fun k => match tget keyDflt s.sec.lc.keys k with
    | some key => decide (sha256 key = cardKeyHash b)
    | none => false)

def State.signed (s : State) (b : List Byte) : Bool :=
  match s.keySlot b with
  | none => false
  | some k => match tget keyDflt s.sec.lc.keys k with
    | some key => verifies key (b.take (cardSigOff b)) (b.drop (cardSigOff b))
    | none => false

/-! ### Step 3: what depends on the device (R330, R317) -/

def claimDflt : Nat → Claim := fun _ => claimFree
def State.claim (s : State) (r : Nat) : Claim := tget claimDflt s.per.claim r

def State.kindFits (s : State) (r : IngestRec) : Bool :=
  !(s.claim (0x30 + r.port)).held || decide ((s.port r.port).mode = 0) || ((s.port r.port).isKaong == decide (r.kind = 1))

/-! ### Step 4: windows (R25, R339) -/

def Card.top (c : Card) : Nat := c.heatLen - coolLen c.heatLen - 1

def windowsOk (c : Card) : Bool :=
  let w := c.win
  let t := c.top
  decide (w.i ≤ t) && decide (w.i + 256 ≤ w.c) && decide (w.c ≤ t) && ascending (w.c :: w.k) && w.k.all (fun k => decide (k ≤ t))
    && (decide (w.c < w.e) && decide (w.e ≤ t) || decide (c.heatLen ≤ w.e) && decide (w.e ≤ c.heatLen + t))

/-- Wire bytes of an egress record (R320, R338). -/
def EgressRec.wire (r : EgressRec) : Nat :=
  if r.kind = 1 then 40 * r.elem.length else r.payload + (if r.vlan.getLsbD 15 then 70 else 66)
/-- The lc that a record's emission takes (R339). -/
def EgressRec.lc (r : EgressRec) : Nat := if r.kind = 1 then 16 * r.elem.length else wireLc r.wire

def spaced : List EgressRec → Bool
  | a :: b :: r => decide (a.ofs + a.lc ≤ b.ofs) && spaced (b :: r)
  | _ => true

def emissionsOk (c : Card) : Bool :=
  c.ports.all (fun k =>
    let l := c.egressOn k
    spaced l && (match l.head?, l.getLast? with
      | some a, some z => decide (z.ofs + z.lc ≤ c.heatLen + a.ofs)
      | _, _ => true))

/-! ### Step 5: capability specifications (R307) -/

/-- Both bounds lie in [lo, hi]. -/
def Cap.boundsIn (c : Cap) (lo hi : Nat) : Bool := within c.base.toNat lo hi && within c.top lo hi

def specOk (c : Cap) : Bool :=
  !c.tag ||
    (decide (c.rsv = 0) && !c.perms.getLsbD 0 &&
      (if c.perm permSEAL || c.perm permUNSEAL then
        decide (c.perms &&& ~~~(((1 : BitVec 12) <<< (permSEAL - 20)) ||| ((1 : BitVec 12) <<< (permUNSEAL - 20))) = 0)
          && c.boundsIn 1 256
      else
        (c.boundsIn 0 0x10000 || c.boundsIn 0x10000 0x14000 || c.boundsIn 0x18000 0x19000)
          && (!c.perm permEX || c.boundsIn 0x10000 0x14000)))

def startOk (r : StartRec) : Bool :=
  r.fcap.tag && !r.fcap.sealed && r.fcap.perm permEX && specOk r.fcap && r.c.all specOk && specOk r.tdt
    && (!r.tdt.tag || (!r.tdt.sealed && r.tdt.perm permLD && r.tdt.perm permLDC && r.tdt.boundsIn 0 0x10000
      && decide (r.tdt.base.toNat % 64 = 0)))
    && r.seeds.all (fun x => specOk x.2 && decide (x.1 % 16 = 0) && decide (x.1 + 16 ≤ 0x10000))

/-! ### Steps 6 to 8 (R317, R459, R475) -/

/-- A seat is free: of no contract, not being cleared, and on a lane of a field that is on. -/
def State.seatFree (s : State) (n : Nat) : Bool :=
  !s.con.any (fun c => c.card.owns n) && !s.pair.clearing.any (fun x => decide (x.1 = n))
    && (match s.seatLane n with | some p => s.laneOn p | none => false)

/-- The contract that REPLACES names. -/
def State.target (s : State) (c : Card) : Option Contract :=
  if c.replaces = 0 then none else s.con.find? (fun d => decide (d.card.cardId = c.replaces) && d.state == .active)

def cardsMeet (a b : Card) : Bool :=
  a.relay.any (fun r => b.relay.any (fun q => decide (q.router = r.router) && decide (q.output = r.output)))
    || a.streams.any (fun r => b.streams.any (fun q => decide (q.engine = r.engine)))
    || a.lists.any (fun k => b.lists.contains k) || a.ports.any (fun k => b.ports.contains k)

def State.resourcesOk (s : State) (c : Card) : Bool :=
  let x := (s.target c).map (fun d => d.handle)
  s.con.all (fun d => decide (some d.handle = x) || !cardsMeet c d.card)
    && c.ports.all (fun k => (s.claim (0x30 + k)).held && decide ((s.port k).mode ≠ 0))

def State.replaceOk (s : State) (c : Card) : Bool :=
  decide (c.replaces = 0) ||
    (match s.target c with
     | some x => !s.con.any (fun d => decide (d.replaced = some x.handle))
     | none => false)

/-! ### Step 9: certificate sums (R318–R320) -/

def windowsFit (t workEnd : Nat) : List CertWin → Option Nat → Bool
  | [], _ => true
  | w :: r, last =>
    (match last with | none => true | some e => decide (e < w.start)) && decide (w.start ≤ w.end_) && decide (w.end_ ≤ t)
      && (decide (w.lc = 0) || (decide (w.start + w.lc ≤ w.end_ + 1) && decide (w.start + w.lc ≤ workEnd + 1)))
      && decide (w.rods0 ≤ w.idle0) && decide (w.rods1 ≤ w.idle1) && windowsFit t workEnd r (some w.end_)

/-- A scheduled rod: seat, bank, the cycle it is counted in (none where it would lie before the gun), and the cycle from which
it is available when R319 bounds it. -/
structure CardRod where
  seat : Nat
  bank : Nat
  at_ : Option Nat
  from_ : Option Nat
  deriving DecidableEq, Repr

/-- The ingest latency Λ of port `k` (R333): n is the most rods that one frame or cell writes into one bank. -/
def State.latency (s : State) (c : Card) (k : Nat) : Nat :=
  let n := (c.ingestOn k).foldl (fun n r =>
    if r.kind = 1 then max n 1
    else
      let odd := (r.map.filter (fun e => decide (elemRod e % 2 = 1))).length
      max n (max odd (r.map.length - odd))) 1
  (if (s.port k).mode = 2 then 188 else 60) + 8 * (n - 1)

/-- The seats that a map element writes. -/
def Card.elemSeats (c : Card) (e : Word) : List Nat :=
  if elemMc e then (c.mcast.filter (fun m => decide (m.list = (e.extractLsb' 20 8).toNat))).flatMap (fun m => mcSeats m.bits)
  else [elemSeat e]

def State.ingestRods (s : State) (c : Card) : List CardRod :=
  c.ingest.flatMap (fun r =>
    let a := c.win.i + s.latency c r.port
    let one : Word → Nat → List CardRod := fun e d =>
      (c.elemSeats e).map (fun n => { seat := n, bank := elemRod e % 2, at_ := some (c.win.c - 1), from_ := some (a + d) })
    r.map.flatMap (fun e => one e 0) ++ (if r.status = 0xFFFFFFFF then [] else one r.status 8))

def Card.egressRods (c : Card) : List CardRod :=
  let t := if c.win.e < c.heatLen then c.win.e else c.win.e - c.heatLen
  c.egress.flatMap (fun r => r.elem.flatMap (fun e =>
    let n := elemOutSeat e
    let seats := if c.paired ∧ c.partner n < 1024 then [n, c.partner n] else [n]
    seats.map (fun n => { seat := n, bank := elemRod e % 2, at_ := some t, from_ := some t })))

def State.streamRods (s : State) (c : Card) : List CardRod :=
  c.streams.flatMap (fun r =>
    let f := (s.qch (r.engine / 2)).f
    r.desc.flatMap (fun d => (List.range (descCount d)).flatMap (fun n =>
      let t := descS d + rodTime f n
      let b := descHomeAt d n % 2
      if descDir d then [{ seat := descSeat d, bank := b, at_ := if t < 24 then none else some (t - 24), from_ := none }]
      else (c.descSeats d).map (fun m => { seat := m, bank := b, at_ := some (t + 48), from_ := some (t + 48) }))))

def State.cardRods (s : State) (c : Card) : List CardRod := s.ingestRods c ++ c.egressRods ++ s.streamRods c

def CertSeat.windowOf (r : CertSeat) (t : Nat) : Option CertWin := r.win.find? (fun w => within t w.start w.end_)

/-- Every rod lies in a window of its seat that opens no earlier than the rod is available. -/
def rodPlaced (c : Card) (x : CardRod) : Bool :=
  match c.seatRec x.seat with
  | none => false
  | some r => match c.cert.seats[r.certIdx]? with
    | none => false
    | some q => match x.at_.bind q.windowOf with
      | none => false
      | some w => match x.from_ with | some a => decide (a ≤ w.start) | none => true

def countRods (l : List CardRod) (n b lo hi : Nat) : Nat :=
  (l.filter (fun x => decide (x.seat = n) && decide (x.bank = b) && x.at_.any (fun t => within t lo hi))).length

/-- The sums of one seat record of the certificate (R318, R319). -/
def seatCertOk (c : Card) (rods : List CardRod) (routes : List Route) (q : CertSeat) : Bool :=
  let p := slotLane q.seat
  decide (q.workEnd ≤ c.top) && windowsFit c.top q.workEnd q.win none
    && q.win.all (fun w => decide (countRods rods q.seat 0 w.start w.end_ = w.rods0)
      && decide (countRods rods q.seat 1 w.start w.end_ = w.rods1))
    && decide (((routes.filter (fun x => decide (x.src = p))).map (fun x => x.sent)).eraseDups.length = q.sends)
    && decide ((routes.filter (fun x => decide (x.dst = p))).length = q.recvs)

/-- R276 for the descriptors of one engine. -/
def occupancyOk (f t : Nat) : List (BitVec 128) → Bool
  | [] => true
  | d :: r =>
    (match r with | [] => true | e :: _ => decide (descS d + rodTime f (descCount d) ≤ descS e))
      && (let last := descS d + rodTime f (descCount d - 1)
          if descDir d then decide (last ≤ t) else decide (last + 48 ≤ t))
      && occupancyOk f t r

/-- The QDR clock from the gun and the low index bits of each access of an engine (R264). -/
def State.accesses (s : State) (r : StreamRec) : List (Nat × Nat) :=
  let q := s.qch (r.engine / 2)
  r.desc.flatMap (fun d => (List.range (descCount d)).map (fun n =>
    (descClock q.f d + n, q.phys (descRodAt d n) % 8)))

/-- Engines of the two ports of one channel never access one bank in one clock (R264). -/
def State.portsApart (s : State) (a b : StreamRec) : Bool :=
  decide (a.engine = b.engine) || decide (a.engine / 2 ≠ b.engine / 2)
    || !(s.accesses a).any (fun x => (s.accesses b).contains x)

/-- The contracts that may be in effect beside the card: those with a handle that it does not replace. -/
def State.beside (s : State) (c : Card) : List Contract :=
  s.con.filter (fun x => decide ((s.target c).map (fun d => d.handle) ≠ some x.handle))

def State.enginesOk (s : State) (c : Card) : Bool :=
  c.streams.all (fun r => occupancyOk (s.qch (r.engine / 2)).f c.top r.desc)
    && c.streams.all (fun a => (c.streams ++ (s.beside c).flatMap (fun x => x.card.streams)).all (s.portsApart a))

/-- The seats that a descriptor serves are the partners of another's (R280). -/
def partnerSeats (c : Card) (a b : List Nat) : Bool :=
  decide (a.length = b.length) && (a.map c.partner).all (fun n => b.contains n) && b.all (fun n => (a.map c.partner).contains n)

/-- A descriptor's partner: equal START, DIR, COUNT, steps and first home rod, on an engine of another channel at the same
F, for the partner seats (R280). -/
def State.descMatched (s : State) (c : Card) (e : Nat) (d : BitVec 128) : Bool :=
  c.streams.any (fun r => decide (r.engine / 2 ≠ e / 2) && decide ((s.qch (r.engine / 2)).f = (s.qch (e / 2)).f)
    && r.desc.any (fun x => decide (descS x = descS d) && (descDir x == descDir d) && decide (descCount x = descCount d)
      && decide (descQstep x = descQstep d) && decide (descHstep x = descHstep d) && decide (descHome x = descHome d)
      && partnerSeats c (c.descSeats d) (c.descSeats x)))

def State.streamsPaired (s : State) (c : Card) : Bool :=
  !c.paired || c.streams.all (fun r => r.desc.all (fun d => s.descMatched c r.engine d))

def State.ingestWire (s : State) (r : IngestRec) : Nat :=
  if r.kind = 1 then 40 * r.map.length else 32 * r.map.length + (if (s.port r.port).vlan then 70 else 66)

def State.totalsOk (s : State) (c : Card) : Bool :=
  decide (c.cert.outputs = c.relay.length)
    && (List.range 8).all (fun e => decide (((c.streams.filter (fun r => decide (r.engine = e))).flatMap (fun r => r.desc.map descCount)).sum
      = c.cert.qrod.getD e 0))
    && (List.range 16).all (fun k =>
      let i := ((c.ingestOn k).map s.ingestWire).sum
      let o := ((c.egressOn k).map EgressRec.wire).sum
      decide (c.cert.inWire.getD k 0 = i) && decide (c.cert.outWire.getD k 0 = o) && decide (2 * i ≤ 5 * c.heatLen)
        && decide (2 * o ≤ 5 * c.heatLen))

def State.certOk (s : State) (c : Card) : Bool :=
  let rods := s.cardRods c
  let routes := c.routes
  c.cert.seats.all (seatCertOk c rods routes) && rods.all (rodPlaced c) && s.enginesOk c && s.streamsPaired c && s.totalsOk c

/-! ### Steps 10 to 12 -/

/-- Lead and partner of every pair (R304, R395). -/
def pairsOk (c : Card) : Bool :=
  c.seats.all (fun r =>
    match c.seatRec r.partner with
    | none => false
    | some q => decide ((r.role = 1 ∧ q.role = 2) ∨ (r.role = 2 ∧ q.role = 1)) && decide (q.partner = r.seat)
        && decide (q.seat / 16 ≠ r.seat / 16) && decide (q.image = r.image) && decide (q.homeImg = r.homeImg)
        && decide (q.startIdx = r.startIdx))

/-- Every route of one copy passes in the cycles of the matching route of the other (R228). -/
def routesPaired (c : Card) (l : List Route) : Bool :=
  l.all (fun r => match slotSeat r.src, slotSeat r.dst with
    | some a, some b => l.contains { src := slotLane (c.partner a), sent := r.sent, dst := slotLane (c.partner b), at_ := r.at_, port := r.port }
    | _, _ => true)

/-- Every element that writes a lead seat reaches its partner too (R395); egress elements name lead seats (R341). -/
def elementsPaired (c : Card) : Bool :=
  let all_ := c.ingest.flatMap (fun r => (r.map.zipIdx.map (fun x => (r, some x.2, x.1)))
    ++ (if r.status = 0xFFFFFFFF then [] else [(r, none, r.status)]))
  all_.all (fun x =>
    let e := x.2.2
    if elemMc e then (c.elemSeats e).all (fun n => (c.elemSeats e).contains (c.partner n))
    else if c.role (elemSeat e) ≠ 1 then true
    else all_.any (fun y =>
      let g := y.2.2
      !elemMc g && decide (elemSeat g = c.partner (elemSeat e)) && decide (elemRod g = elemRod e) && decide (y.2.1 = x.2.1)
        && decide (y.1.kind = x.1.kind) && decide (y.1.map.length = x.1.map.length)))
    && c.egress.all (fun r => r.elem.all (fun e => decide (c.role (elemOutSeat e) = 1)))

def State.reservesOk (s : State) (c : Card) : Bool :=
  c.seats.all (fun r => match s.seatLane r.seat with | some p => s.reserveFree (reserveOf p) | none => false)

/-- The seats of a team with those of the teams in it. -/
def Card.teamSeats (c : Card) : Nat → TeamRec → List Nat
  | 0, t => t.front :: t.seats
  | n + 1, t => t.front :: t.seats ++ (c.teams.filter (fun u => decide (u.parent = t.team))).flatMap (c.teamSeats n)

/-- How many teams enclose a team; none when its chain of parents does not end. -/
def Card.teamDepth (c : Card) : Nat → TeamRec → Option Nat
  | 0, _ => none
  | n + 1, t =>
    if t.parent = 0xFFFF then some 0
    else match c.teams.find? (fun u => decide (u.team = t.parent)) with
      | none => none
      | some u => (c.teamDepth n u).map (fun k => k + 1)

/-- The tier that seats span (R233): 1 squad, 2 field, 3 die. -/
def tierOf (l : List Nat) : Nat :=
  if (l.map (fun n => n / 16)).eraseDups.length ≤ 1 then 1 else if (l.map (fun n => n / 128)).eraseDups.length ≤ 1 then 2 else 3

/-- The trigger cycles that a team declares (R234, R313). -/
def TeamRec.triggers (t : TeamRec) : List Nat :=
  if t.trigPeriod = 0 then [t.trigFirst] else (List.range t.trigCount).map (fun i => t.trigFirst + i * t.trigPeriod)

/-- The least latency of a team with lanes beside its front: one fan-in hop of its tier (R212, R235). -/
def fanIn (tier : Nat) : Nat := if tier = 1 then 2 else if tier = 2 then 5 else 10

/-- λ covers a fan-in hop, and a word from outside the team that reaches a trigger port of it arrives in a trigger cycle (R234,
R235). DESIGN CHOICE (log 83): what of these two rules the firmware tests on the card's tables. -/
def teamTimesOk (c : Card) (routes : List Route) (t : TeamRec) : Bool :=
  let l := c.teamSeats (c.teams.length + 1) t
  (l.all (fun n => decide (n = t.front)) || decide (fanIn t.tier ≤ t.lambda))
    && routes.all (fun r => decide (r.dst ≠ slotLane t.front) || l.any (fun n => decide (slotLane n = r.src))
      || !(t.ports.take t.nIn).contains r.port || (trigUnit r.port).isNone || t.triggers.contains r.at_)

def teamsOk (c : Card) : Bool :=
  let n := c.teams.length + 1
  decide (c.teams.map (fun t => t.team)).Nodup
    && c.teams.all (fun t => c.owns t.front && t.seats.all c.owns && decide (t.tier = tierOf (c.teamSeats n t))
      && (t.ports.take t.nIn).all remoteDst && (t.ports.drop t.nIn).all srcOk && (c.teamDepth n t).isSome)
    && (c.teams.isEmpty || c.teams.all (teamTimesOk c c.routes))
    && c.teams.all (fun t => c.teams.all (fun u => decide (t.team = u.team) || decide (c.teamDepth n t ≠ c.teamDepth n u)
      || !(c.teamSeats n t).any (fun m => (c.teamSeats n u).contains m)))

/-! ### The checks in order (R317) -/

def codeUnless (ok : Bool) (code : Nat) (rest : Nat) : Nat := if ok then rest else code

/-- Steps 3 to 12 on a card that has been read. -/
def State.judgeCard (s : State) (b : List Byte) (discarded : Bool) (c : Card) : Nat :=
  codeUnless (dirOk b && headerOk b && c.formatOk && c.ingest.all s.kindFits && decide (s.con.length < 64)) 1 <|
  codeUnless (decide (c.heatLen = s.L) && windowsOk c && emissionsOk c) 3 <|
  codeUnless (c.start.all startOk) 4 <|
  codeUnless (!discarded && c.seats.all (fun r => s.seatFree r.seat)) 5 <|
  codeUnless (s.resourcesOk c) 6 <|
  codeUnless (s.replaceOk c) 7 <|
  codeUnless (s.certOk c) 8 <|
  codeUnless (!c.paired || (pairsOk c && routesPaired c c.routes && elementsPaired c)) 9 <|
  codeUnless (!c.paired || s.reservesOk c) 10 <|
  codeUnless (teamsOk c) 11 0

/-- The code of the first check that fails, or the card. -/
def State.judge (s : State) (b : List Byte) (discarded : Bool) : Nat ⊕ Card :=
  if !cardStep1 b then .inl 1
  else if !s.signed b then .inl 2
  else match parseCard b with
    | none => .inl 1
    | some c => match s.judgeCard b discarded c with
      | 0 => .inr c
      | k => .inl k

/-! ### Loading (R305, R316) -/

/-- The rods of an image are written from lane address `a`. -/
def State.writeImage (s : State) (p a : Nat) : List Byte → Nat → State
  | _, 0 => s
  | d, n + 1 => (s.rodWrite p a (d.take 32) 0 false).writeImage p (a + 32) (d.drop 32) n

def State.loadImage (s : State) (p base : Nat) (i : ImageRec) : State :=
  s.writeImage p (base + i.loadAt) i.bytes (i.bytes.length / 32)

/-- The home image of a seat; HOME_IMG 0xFFFF names none (R304). -/
def Card.homeOf (c : Card) (r : SeatRec) : Option ImageRec := if r.homeImg = 0xFFFF then none else c.images[r.homeImg]?

/-- A seat has image rods to load. -/
def Card.hasRods (c : Card) (r : SeatRec) : Bool :=
  (c.images[r.image]?).any (fun i => !i.bytes.isEmpty) || (c.homeOf r).any (fun i => !i.bytes.isEmpty)

/-- The images of a seat go into its lane when the seat is free, and are discarded when it is not. -/
def State.loadSeat (s : State) (c : Card) (r : SeatRec) : State × Option Nat :=
  match s.seatLane r.seat with
  | none => (s, none)
  | some p =>
    if !s.seatFree r.seat then (s, none)
    else
      let s := match c.images[r.image]? with | some i => s.loadImage p 0x10000 i | none => s
      let s := match c.homeOf r with | some i => s.loadImage p 0 i | none => s
      (s, some p)

/-- The images of every seat in record order: whether a rod was discarded, and the lanes written (R316). -/
def State.loadSeats (s : State) (c : Card) : List SeatRec → State × Bool × List Nat
  | [] => (s, false, [])
  | r :: l =>
    let x := s.loadSeat c r
    let y := x.1.loadSeats c l
    (y.1, (x.2.isNone && c.hasRods r) || y.2.1, x.2.toList ++ y.2.2)

/-- A LOAD_CARD completes: its time from taking is counted (R448). -/
def State.endLoad (s : State) (q : Nat) (cid : BitVec 16) (since status : Nat) (r0 : Word) : State :=
  (s.hist4 (0x0D00 + 4 * min ((s.now - since) / 1250000 / 64) 31)).finish q 3 cid status r0 0

/-- LOAD_CARD: the card is read in one pass, and image rods are written into the lanes of free seats as they pass. -/
def loadCard (s : State) (e : Sqe) : State :=
  if !s.canTake e.sq then s
  else
    let busy := s.runs 3
    let s := s.takeEntry e.sq
    if !sqeClean e ⟨false, true, 0x18⟩ then s.endLoad e.sq e.cid s.now stField 0
    else if !allowedIn 3 s.sec.lcState then s.endLoad e.sq e.cid s.now stNotAllowed 0
    else if busy then s.endLoad e.sq e.cid s.now stBusy 0
    else
      let s := s.readBuffer e
      match sqeInput e with
      | none => { s with load := some { sq := e.sq, cid := e.cid, bytes := none, discarded := false, written := [], takenAt := s.now } }
      | some b =>
        let x := match parseCard b with
          | some c => s.loadSeats c c.seats
          | none => (s, false, [])
        { x.1 with load := some { sq := e.sq, cid := e.cid, bytes := some b, discarded := x.2.1, written := x.2.2, takenAt := s.now } }

/-- The lowest handle that no contract holds (R321). -/
def State.freeHandle (s : State) : Nat :=
  ((List.range (s.con.length + 1)).find? (fun h => !s.con.any (fun c => decide (c.handle = h)))).getD 0

def addContract (c : Contract) : List Contract → List Contract
  | [] => [c]
  | d :: r => if c.handle < d.handle then c :: d :: r else d :: addContract c r

/-- The contract of an admitted card (R321). -/
def State.newContract (s : State) (b : List Byte) (c : Card) : Contract :=
  { handle := s.freeHandle, state := .admitted, card := c, startGun := 0, pendW := none,
    replaced := (s.target c).map (fun d => d.handle), swapped := 0, brkCause := 0, brkSeat := 0, flagged := 0, disputed := 0, overruns := 0,
    unsync := false, keySlot := (s.keySlot b).getD 0, sampled := [], sel := [], selPrev := [], seeded := false, banksAt := 0 }

/-- A refused card: every lane written is cleared before the completion (R316). -/
def State.refuseCard (s : State) (l : Loading) (status : Nat) : State :=
  ((l.written.foldl State.blankLane { s with load := none }).tally 12).endLoad l.sq l.cid l.takenAt status 0

/-- CARD_ADMISSION: the firmware judges the card that LOAD_CARD read. -/
def cardAdmission (s : State) : State :=
  match s.load with
  | none => s
  | some l =>
    match l.bytes with
    | none => s.refuseCard l stBuffer
    | some b =>
      match s.judge b l.discarded with
      | .inl k => s.refuseCard l (stAdm + k)
      | .inr c =>
        let k := s.newContract b c
        (({ s with load := none, con := addContract k s.con }).tally 11).endLoad l.sq l.cid l.takenAt stSuccess (BitVec.ofNat 32 k.handle)

def execLoadCard (e : Sqe) (s : State) : Answer := .next (s.live (loadCard s e))
def execCardAdmission (s : State) : Answer := .next (s.live (cardAdmission s))

end Sys2Proof.Machine
end

