-- ==== Sys2Proof/Machine/Alu.lean ====
section
/-! DEFINITION. The ALU commands: a move of `t` to a trigger port of ALU0 or ALU1 (R96, R97). -/

namespace Sys2Proof.Machine
open Sys2Proof

def execAluAdd (p : Nat) (n : Bool) (t : Word) (s : State) : Answer := .next (s.live (trigger s p ((if n then 0x30 else 0x20) + 1) t))
def execAluSub (p : Nat) (n : Bool) (t : Word) (s : State) : Answer := .next (s.live (trigger s p ((if n then 0x30 else 0x20) + 2) t))
def execAluAnd (p : Nat) (n : Bool) (t : Word) (s : State) : Answer := .next (s.live (trigger s p ((if n then 0x30 else 0x20) + 3) t))
def execAluOr (p : Nat) (n : Bool) (t : Word) (s : State) : Answer := .next (s.live (trigger s p ((if n then 0x30 else 0x20) + 4) t))
def execAluXor (p : Nat) (n : Bool) (t : Word) (s : State) : Answer := .next (s.live (trigger s p ((if n then 0x30 else 0x20) + 5) t))
def execAluAndn (p : Nat) (n : Bool) (t : Word) (s : State) : Answer := .next (s.live (trigger s p ((if n then 0x30 else 0x20) + 6) t))
def execAluShl (p : Nat) (n : Bool) (t : Word) (s : State) : Answer := .next (s.live (trigger s p ((if n then 0x30 else 0x20) + 7) t))
def execAluShr (p : Nat) (n : Bool) (t : Word) (s : State) : Answer := .next (s.live (trigger s p ((if n then 0x30 else 0x20) + 8) t))
def execAluSra (p : Nat) (n : Bool) (t : Word) (s : State) : Answer := .next (s.live (trigger s p ((if n then 0x30 else 0x20) + 9) t))
def execAluRotl (p : Nat) (n : Bool) (t : Word) (s : State) : Answer := .next (s.live (trigger s p ((if n then 0x30 else 0x20) + 10) t))
def execAluEq (p : Nat) (n : Bool) (t : Word) (s : State) : Answer := .next (s.live (trigger s p ((if n then 0x30 else 0x20) + 11) t))
def execAluLt (p : Nat) (n : Bool) (t : Word) (s : State) : Answer := .next (s.live (trigger s p ((if n then 0x30 else 0x20) + 12) t))
def execAluLtu (p : Nat) (n : Bool) (t : Word) (s : State) : Answer := .next (s.live (trigger s p ((if n then 0x30 else 0x20) + 13) t))
def execAluMin (p : Nat) (n : Bool) (t : Word) (s : State) : Answer := .next (s.live (trigger s p ((if n then 0x30 else 0x20) + 14) t))
def execAluMax (p : Nat) (n : Bool) (t : Word) (s : State) : Answer := .next (s.live (trigger s p ((if n then 0x30 else 0x20) + 15) t))

end Sys2Proof.Machine
end

