-- ==== Sys2Proof/Machine/CapRows.lean ====
section
/-! DEFINITION. The capability commands: a move of the operation code to `cap.op` (R171, R172). -/

namespace Sys2Proof.Machine
open Sys2Proof

def execGpos (p : Nat) (s : State) : Answer := .next (s.live (trigger s p 0x76 0x00))
def execGbase (p : Nat) (s : State) : Answer := .next (s.live (trigger s p 0x76 0x01))
def execGlim (p : Nat) (s : State) : Answer := .next (s.live (trigger s p 0x76 0x02))
def execGperm (p : Nat) (s : State) : Answer := .next (s.live (trigger s p 0x76 0x03))
def execGtag (p : Nat) (s : State) : Answer := .next (s.live (trigger s p 0x76 0x04))
def execGlen (p : Nat) (s : State) : Answer := .next (s.live (trigger s p 0x76 0x05))
def execMove (p : Nat) (s : State) : Answer := .next (s.live (trigger s p 0x76 0x08))
def execSpos (p : Nat) (s : State) : Answer := .next (s.live (trigger s p 0x76 0x09))
def execIpos (p : Nat) (s : State) : Answer := .next (s.live (trigger s p 0x76 0x0A))
def execSbnd (p : Nat) (s : State) : Answer := .next (s.live (trigger s p 0x76 0x0B))
def execAperm (p : Nat) (s : State) : Answer := .next (s.live (trigger s p 0x76 0x0C))
def execCltag (p : Nat) (s : State) : Answer := .next (s.live (trigger s p 0x76 0x0D))
def execSeal (p : Nat) (s : State) : Answer := .next (s.live (trigger s p 0x76 0x0E))
def execUnseal (p : Nat) (s : State) : Answer := .next (s.live (trigger s p 0x76 0x0F))
def execCmpb (p : Nat) (s : State) : Answer := .next (s.live (trigger s p 0x76 0x10))
def execRdsys (p : Nat) (s : State) : Answer := .next (s.live (trigger s p 0x76 0x11))
def execWrsys (p : Nat) (s : State) : Answer := .next (s.live (trigger s p 0x76 0x12))

end Sys2Proof.Machine
end

