-- ==== Sys2Proof/Machine/ContractCmd.lean ====
section
/-! DEFINITION. ACTIVATE, WITHDRAW and QUERY_CONTRACT (R322, R323, R363, R366). -/

namespace Sys2Proof.Machine
open Sys2Proof

/-! ### ACTIVATE -/

/-- The emission rule of R323 on one port. -/
def swapFits (y x : Card) (k : Nat) : Bool :=
  match (y.egressOn k).head? with
  | none => true
  | some a => (x.egressOn k).all (fun r => decide (x.win.e - x.heatLen + r.ofs + r.lc ≤ y.win.e + a.ofs))

/-- The card's start at gun `g` breaks the emission rule against the contract it replaces. -/
def State.swapConflict (s : State) (c : Contract) (g : Nat) : Bool :=
  match c.replaced.bind s.contract with
  | none => false
  | some x =>
    let plain := x.state ≠ .active || (match x.pendW with | some w => decide (w < g) | none => false)
    !plain && decide (x.card.heatLen ≤ x.card.win.e) && !x.card.ports.all (fun k => swapFits c.card x.card k)

/-- The status of ACTIVATE, tested in the order of R363. -/
def State.activateStatus (s : State) (h g : Nat) : Nat :=
  match s.contract h with
  | none => stNoContract
  | some c =>
    if c.state ≠ .admitted then stState
    else if s.pacer.state = .stopped then stStopped
    else if s.L ≠ c.card.heatLen then stHeatLen
    else if g < s.heatN + 4 ∨ s.heatN + 2147483648 < g then stGun
    else if s.swapConflict c g then stSwap
    else stSuccess

def State.schedule (s : State) (h g : Nat) : State :=
  match s.contract h with
  | none => s
  | some c => s.setContract { c with state := .scheduled, startGun := g, seeded := false, banksAt := 0 }

/-- A rephase heat is open: the firmware leaves an ACTIVATE that would schedule a contract until it has closed, since a rephase
heat occurs only while none is scheduled (R9, R20; log entry 20). -/
def State.activateWaits (s : State) (e : Sqe) : Bool :=
  s.pacer.rephase.isSome && sqeClean e ⟨true, false, 0x20⟩ && allowedIn 0x04 s.sec.lcState
    && decide (s.activateStatus e.handle.toNat (sqePar e 0x18 8) = stSuccess)

/-- ACTIVATE. -/
def activate (s : State) (e : Sqe) : State :=
  if s.activateWaits e then s else s.runCmd 0x04 ⟨true, false, 0x20⟩ e (fun s =>
    let h := e.handle.toNat
    let g := sqePar e 0x18 8
    let st := s.activateStatus h g
    if st = stSuccess then done 0 0 (s.schedule h g) else fail st s)

/-! ### WITHDRAW -/

def loW (n : Nat) : Word := BitVec.ofNat 32 n
def hiW (n : Nat) : Word := BitVec.ofNat 32 (n / 4294967296)

/-- WITHDRAW on a contract, by its state (R321, R363). -/
def State.withdraw (s : State) (c : Contract) (w : Nat) : Done :=
  let h := s.heatN
  match c.state with
  | .admitted => done 0 0 (s.release c)
  | .scheduled =>
    if h + 3 < c.startGun then done 0 0 (s.setContract { c with state := .admitted, startGun := 0, banksAt := 0 })
    else fail stState s
  | .active =>
    let w := if w = 0 then h + 2 else w
    if w < h + 2 then fail stGun s
    else
      let w := match c.pendW with | some x => min x w | none => w
      done (loW w) (hiW w) (s.setContract { c with pendW := some w })
  | .broken => fail stState s

def withdraw (s : State) (e : Sqe) : State :=
  s.runCmd 0x05 ⟨true, false, 0x20⟩ e (fun s =>
    match s.contract e.handle.toNat with
    | none => fail stNoContract s
    | some c => s.withdraw c (sqePar e 0x18 8))

/-! ### QUERY_CONTRACT -/

def CState.code : CState → Nat
  | .admitted => 0
  | .scheduled => 1
  | .active => 2
  | .broken => 3

/-- Pairs of a contract that run single now. -/
def State.singlePairs (s : State) (c : Contract) : Nat :=
  (c.card.seats.filter (fun r => decide (r.role = 1) && (decide (s.seatState r.seat ≠ 0) || decide (s.seatState r.partner ≠ 0)))).length

/-- A record of QUERY_CONTRACT (R366). -/
def State.contractRecord (s : State) (c : Contract) : List Byte :=
  let flags := (if c.card.paired then 1 else 0) + (if c.unsync then 2 else 0) + (if s.singlePairs c = 0 then 0 else 4)
    + (if c.card.replaces = 0 then 0 else 8)
  leBytes c.handle 2 ++ leBytes c.state.code 1 ++ leBytes flags 1 ++ leW (brokenWord c) ++ leBytes c.card.cardId.toNat 8
    ++ leBytes c.startGun 8 ++ leBytes (c.pendW.getD 0) 8 ++ leW c.flagged ++ leW c.disputed ++ leW c.overruns
    ++ leBytes (s.singlePairs c) 2 ++ leBytes c.card.seats.length 2 ++ List.replicate 16 0

def queryContract (s : State) (e : Sqe) : State :=
  s.runCmd 0x06 ⟨true, true, 0x18⟩ e (fun s =>
    if e.handle = 0xFFFF then
      s.output e (s.con.flatMap s.contractRecord) (BitVec.ofNat 32 s.con.length) 0
    else match s.contract e.handle.toNat with
      | none => fail stNoContract s
      | some c => s.output e (s.contractRecord c) 1 0)

def execActivate (e : Sqe) (s : State) : Answer := .next (s.live (activate s e))
def execWithdraw (e : Sqe) (s : State) : Answer := .next (s.live (withdraw s e))
def execQueryContract (e : Sqe) (s : State) : Answer := .next (s.live (queryContract s e))

end Sys2Proof.Machine
end

