-- ==== Sys2Proof/Machine/Ctl.lean ====
section
/-! DEFINITION. The control commands (R53–R58, R93, R152, R153). -/

namespace Sys2Proof.Machine
open Sys2Proof

def execCtlJump (p : Nat) (t : Word) (s : State) : Answer := .next (s.live (trigger s p 0x64 t))
def execCtlCall (p : Nat) (t : Word) (s : State) : Answer := .next (s.live (trigger s p 0x65 t))
def execCtlRet (p : Nat) (t : Word) (s : State) : Answer := .next (s.live (trigger s p 0x66 t))
def execCtlSync (p : Nat) (t : Word) (s : State) : Answer := .next (s.live (trigger s p 0x67 t))

end Sys2Proof.Machine
end

