-- ==== Sys2Proof/Machine/PeriphUnit.lean ====
section
/-! DEFINITION. The claim table and the peripherals: RESOURCE_CLAIM in its three actions, UART, I2C1, timers, TICK_OUT and the
PMBus poll (R435, R448, R471–R481). -/

namespace Sys2Proof.Machine
open Sys2Proof

/-! ### The claim table (R471–R476) -/

def State.setClaim (s : State) (r : Nat) (c : Claim) : State :=
  { s with per := { s.per with claim := tput claimDflt s.per.claim r c } }

def resourceOk (r : Nat) : Bool := decide (r < 0x24) || within r 0x28 0x2B || within r 0x30 0x41

/-- The pins that a resource takes beside its own number (R471). -/
def pinsOf (r : Nat) (cfg : Word) : List Nat :=
  if r = 0x20 then [0, 1] else if r = 0x21 then [2, 3] else if r = 0x22 then [4] else if r = 0x23 then [5]
  else if within r 0x28 0x2B ∧ cfg.getLsbD 0 then [r - 0x20] else []

/-- CONFIG lies in the range of R471. -/
def configOk (l r : Nat) (cfg : Word) : Bool :=
  if r = 0x20 then within cfg.toNat 2 65535
  else if r = 0x21 ∨ within r 0x28 0x2B then decide (cfg.toNat ≤ 1)
  else if r = 0x23 then decide (1 ≤ cfg.toNat / 16777216) && decide (cfg.toNat % 16777216 < l)
  else if within r 0x30 0x3F then
    decide (cfg.extractLsb' 20 12 = 0) && decide (cfg.extractLsb' 3 4 = 0) && decide ((cfg.extractLsb' 0 3).toNat ≤ 3)
  else decide (cfg = 0)

/-- CLAIM_CHANGE (R476, R481): kind 1 claimed, 2 released, 3 CONFIG changed. -/
def State.claimEvent (s : State) (r kind : Nat) (owner : BitVec 11) (cfg : Word) : State :=
  s.raise 0x0C01 0 (BitVec.ofNat 64 (r + 256 * kind + 65536 * owner.toNat + 4294967296 * cfg.toNat)) false

/-- CONFIG takes effect: a port's mode resource sets PORT_CFG; a nonzero MODE of a group that is off is ignored (R326, R460). -/
def State.applyConfig (s : State) (r : Nat) (cfg : Word) : State :=
  if within r 0x30 0x3F then
    let k := r - 0x30
    let m := cfg.extractLsb' 0 3
    let t := s.port k
    let t := if m ≠ 0 ∧ s.domOn (portDomain k) = false then t else t.setMode m
    s.setPort k { t with vid := cfg.extractLsb' 8 12, vlan := cfg.getLsbD 7 }
  else s

/-- A released feature is disabled and its pins become inputs (R474). -/
def State.disable (s : State) (r : Nat) : State :=
  if r < 32 then
    { s with per := { s.per with dir := s.per.dir &&& ~~~((1 : Word) <<< r), out := s.per.out &&& ~~~((1 : Word) <<< r) } }
  else if r = 0x20 then { s with per := { s.per with tx := [], rx := [] } }
  else if r = 0x21 then { s with per := { s.per with i2cBusy := false, i2cOpen := none } }
  else if within r 0x28 0x2B then
    { s with per := { s.per with tmr := tput (fun _ => tmrReset) s.per.tmr (r - 0x28) { tget (fun _ => tmrReset) s.per.tmr (r - 0x28) with en := false } } }
  else if within r 0x30 0x3F then s.applyConfig r 0
  else s

/-- The pins of a resource are taken or given back. -/
def State.takePins (s : State) (r : Nat) (owner : BitVec 11) (ps : List Nat) : State :=
  ps.foldl (fun s p => s.setClaim p { held := true, via := r, owner := owner, cfg := 0 }) s
def State.freePins (s : State) (ps : List Nat) : State := ps.foldl (fun s p => s.setClaim p claimFree) s

/-- The first resource or pin, in ascending number, that blocks a claim by `who` (R472). -/
def State.blocking (s : State) (r : Nat) (cfg : Word) (mine : Bool) : Option Nat :=
  let old := if mine then r :: pinsOf r (s.claim r).cfg else []
  let want := ((r :: pinsOf r cfg).filter (fun k => !old.contains k)).filter (fun k => (s.claim k).held)
  want.min?

/-- ACTION 1 by the host (R472–R475). -/
def State.claimRes (s : State) (r : Nat) (cfg : Word) : Done :=
  let who : BitVec 11 := 0x420
  if !configOk s.L r cfg then fail stField s
  else if r = 0x40 ∨ r = 0x41 then ⟨stClaimed, (s.claim r).owner.zeroExtend 32, BitVec.ofNat 32 r, s⟩
  else
    let c := s.claim r
    let mine := c.held && decide (c.owner = who) && decide (c.via = r)
    match s.blocking r cfg mine with
    | some k => ⟨stClaimed, (s.claim k).owner.zeroExtend 32, BitVec.ofNat 32 k, s⟩
    | none =>
      if mine && within r 0x30 0x3F && s.portLocked (r - 0x30) then fail stState s
      else
        let s := if mine then s.freePins (pinsOf r c.cfg) else s
        let s := (s.setClaim r { held := true, via := r, owner := who, cfg := cfg }).takePins r who (pinsOf r cfg)
        done (who.zeroExtend 32) 0 ((s.applyConfig r cfg).claimEvent r (if mine then 3 else 1) who cfg)

/-- ACTION 2 by the host (R474, R475). -/
def State.releaseRes (s : State) (r : Nat) : Done :=
  let who : BitVec 11 := 0x420
  let c := s.claim r
  if r = 0x40 ∨ r = 0x41 then ⟨stClaimed, c.owner.zeroExtend 32, BitVec.ofNat 32 r, s⟩
  else if !(c.held && decide (c.owner = who) && decide (c.via = r)) then fail stNotOwner s
  else if within r 0x30 0x3F && s.portLocked (r - 0x30) then fail stState s
  else done 0xFFFFFFFF 0 ((((s.freePins (pinsOf r c.cfg)).setClaim r claimFree).disable r).claimEvent r 2 who 0)

/-- ACTION 3 (R474). -/
def State.queryRes (s : State) (r : Nat) : Done :=
  let c := s.claim r
  if c.held then done (c.owner.zeroExtend 32) c.cfg s else done 0xFFFFFFFF 0 s

def sqeAction (e : Sqe) : Nat := sqePar e 0x1C 4

def State.resourceCmd (s : State) (e : Sqe) : State :=
  s.runCmd 0x0D ⟨false, false, 0x24⟩ e (fun s =>
    let r := sqePar e 0x18 4
    if !resourceOk r then fail stField s
    else match sqeAction e with
      | 1 => s.claimRes r (BitVec.ofNat 32 (sqePar e 0x20 4))
      | 2 => s.releaseRes r
      | 3 => s.queryRes r
      | _ => fail stField s)

/-- RESOURCE_CLAIM is the command with ACTION 1, or with an ACTION that names none. -/
def resourceClaim (s : State) (e : Sqe) : State := if sqeAction e = 2 ∨ sqeAction e = 3 then s else s.resourceCmd e
def resourceRelease (s : State) (e : Sqe) : State := if sqeAction e = 2 then s.resourceCmd e else s
def resourceQuery (s : State) (e : Sqe) : State := if sqeAction e = 3 then s.resourceCmd e else s

/-! ### Registers that a resource serves (R477) -/

/-- Master `m` owns resource `r`; a steward acts for 0x404 (R472, R477). -/
def State.mayWrite (s : State) (m : BitVec 11) (r : Nat) : Bool :=
  let c := s.claim r
  c.held && (decide (c.owner = m) || (decide (c.owner = 0x404) && isStwMaster m))

def State.perRefuse (s : State) : State := { s with per := { s.per with refused := true } }

/-- A write of UART_DATA. -/
def uartTxWrite (s : State) (m : BitVec 11) (v : Word) : State :=
  (if !s.mayWrite m 0x20 then s.perRefuse
   else if 16 ≤ s.per.tx.length then { s with per := { s.per with txovf := true } }
   else { s with per := { s.per with tx := s.per.tx ++ [v.truncate 8] } }).answer 0 0

/-- A read of UART_DATA takes a byte from the RX FIFO. -/
def uartRxRead (s : State) : State :=
  match s.per.rx with
  | [] => s.answer 0 0
  | b :: r => ({ s with per := { s.per with rx := r } }).answer 0 (b.zeroExtend 32)

/-- A byte arrives on the UART while the resource is held. -/
def uartRxByte (s : State) (b : Byte) (stopOk : Bool) : State :=
  if !(s.claim 0x20).held then s
  else
    let x := { s.per with framing := s.per.framing || !stopOk }
    { s with per := if 16 ≤ x.rx.length then { x with overrun := true } else { x with rx := x.rx ++ [b] } }

/-- The byte at the head of the TX FIFO has been sent. -/
def uartTxByteDone (s : State) : State :=
  match s.per.tx with
  | [] => s
  | b :: r => ({ s with per := { s.per with tx := r } }).emit (.uart b)

/-- A write of I2C1_XFER. -/
def i2c1Xfer (s : State) (m : BitVec 11) (v : Word) : State :=
  (if !s.mayWrite m 0x21 then s.perRefuse
   else if !v.getLsbD 31 || s.per.i2cBusy then s
   else { s with per := { s.per with i2cBusy := true, i2cCur := v } }).answer 0 0

/-- The byte of the transfer in progress ends: acknowledged or not, or arbitration lost; `b` is the byte read. -/
def i2c1ByteDone (s : State) (ack arb : Bool) (b : Byte) : State :=
  if !s.per.i2cBusy then s
  else
    let v := s.per.i2cCur
    let rd := v.getLsbD 30
    let ar : BitVec 8 := v.extractLsb' 16 7 ++ (if rd then (1 : BitVec 1) else 0)
    let start := decide (s.per.i2cOpen ≠ some ar)
    let stop := v.getLsbD 29 || !ack
    let s := if arb then s else s.emit (.i2c start stop ar (if rd then b else v.extractLsb' 0 8))
    { s with per := { s.per with
        i2cBusy := false
        i2cArb := s.per.i2cArb || arb
        i2cNack := s.per.i2cNack || (!arb && !ack)
        i2cRx := if rd && ack && !arb then b else s.per.i2cRx
        i2cOpen := if arb || stop then none else some ar } }

/-! ### Timers -/

def tmrDflt : Nat → Tmr := fun _ => tmrReset
def State.tmr (s : State) (k : Nat) : Tmr := tget tmrDflt s.per.tmr k
def State.setTmr (s : State) (k : Nat) (t : Tmr) : State := { s with per := { s.per with tmr := tput tmrDflt s.per.tmr k t } }
/-- CONFIG.PIN of a timer. -/
def State.tmrPin (s : State) (k : Nat) : Bool := (s.claim (0x28 + k)).held && (s.claim (0x28 + k)).cfg.getLsbD 0

/-- TMR_COMPARE: in modes 1 and 2 the count reaches CMP. -/
def tmrCompare (s : State) (k : Nat) : State :=
  let t := s.tmr k
  if t.en && (decide (t.mode = 1) || decide (t.mode = 2)) && decide (t.cnt = t.cmp) then
    let s := if s.tmrPin k then s.emit (.pin (8 + k) 8) else s
    s.setTmr k (if t.mode = 2 then { t with cnt := 0 } else { t with en := false })
  else s

/-- TMR_CAPTURE: in mode 3 a rising edge of the timer's pin. -/
def tmrCapture (s : State) (k : Nat) : State :=
  let t := s.tmr k
  if t.en && decide (t.mode = 3) && s.tmrPin k then s.setTmr k { t with cap := t.cnt } else s

/-- TICK_OUT_PULSE: gun + OFFSET + 10 lc, ± 1 lc, once in a heat (R478). -/
def tickOutPulse (s : State) : State :=
  let c := s.claim 0x23
  let o := c.cfg.toNat % 16777216
  let at_ := (o + 10) % s.L
  if c.held && decide (o < s.L) && s.pacer.open_ && decide (s.pacer.state ≠ .stopped) && !s.per.tickDone
      && decide (at_ ≤ s.pacer.elapsed + 1) && decide (s.pacer.elapsed ≤ at_ + 1) then
    ({ s with per := { s.per with tickDone := true } }).emit (.pin 5 (8 * (c.cfg.toNat / 16777216)))
  else s

/-! ### The poll of each second (R448, R468, R479) -/

/-- Bin of the junction temperature, in 1/8 °C. -/
def tempBin (t : Int) : Nat := if t < -320 then 0 else if 1168 ≤ t then 63 else ((t + 344) / 24).toNat
/-- Bin of the core supply deviation, in mV from 750. -/
def vddBin (mv : Nat) : Nat :=
  let d : Int := (mv : Int) - 750
  if d < -155 then 0 else if 155 ≤ d then 63 else ((d + 160) / 5).toNat

def State.pollRail (s : State) (i : Nat) (r : PmbRail) : State :=
  let fault : BitVec 16 → State → State := fun w s => s.raise 0x0C02 0 (BitVec.ofNat 64 (i + 65536 * w.toNat)) false
  if !(getW s.per.rail i).getLsbD 31 then s
  else if !r.answered then fault 0xFFFF s
  else if r.status ≠ 0 then fault r.status s else s

def tempDflt : Nat → BitVec 16 := fun _ => 0

/-- PMBUS_POLL: every valid rail is polled, the sensors are read and the histograms of the second are counted. -/
def pmbusPoll (s : State) (rails : List PmbRail) (x : Sensors) : State :=
  let valid := rails.zipIdx.filter (fun q => decide (q.2 < 16) && (getW s.per.rail q.2).getLsbD 31)
  let s := valid.foldl (fun s q => s.pollRail q.2 q.1) s
  let mw := ((valid.filter (fun q => q.1.answered)).map (fun q => q.1.pinMw)).sum
  let s := { s with per := { s.per with powerMw := mw }, pwr := { s.pwr with
    warned := s.pwr.warned && !x.temp.all (fun t => decide (t + 40 ≤ s.pwr.tjWarn.toInt))
    vddMv := BitVec.ofNat 16 x.vddMv, temp := mkTab tempDflt ((x.temp.take 12).map (fun t => BitVec.ofInt 16 t)) } }
  let s := match x.temp.max? with | some t => s.hist4 (0x0800 + 4 * tempBin t) | none => s
  let s := s.hist4 (0x0900 + 4 * vddBin x.vddMv)
  let s := if s.anyActive then s.hist4 (0x0A00 + 4 * min (s.log.utilMax / 16) 63) else s
  { s with log := { s.log with utilMax := 0 } }

/-- PHOTO_IN_EDGE in the trigger cycle t of a rising edge on the claimed pin (R435). -/
def photoInEdge (s : State) : State :=
  if (s.claim 0x22).held && s.snap.arm.getLsbD 1 then s.pfTrigger 1 0 (some 1) else s

def execResourceClaim (e : Sqe) (s : State) : Answer := .next (s.live (resourceClaim s e))
def execResourceRelease (e : Sqe) (s : State) : Answer := .next (s.live (resourceRelease s e))
def execResourceQuery (e : Sqe) (s : State) : Answer := .next (s.live (resourceQuery s e))
def execUartTxWrite (m : BitVec 11) (v : Word) (s : State) : Answer := .next (s.live (uartTxWrite s m v))
def execUartRxRead (_m : BitVec 11) (s : State) : Answer := .next (s.live (uartRxRead s))
def execUartRxByte (b : Byte) (stopOk : Bool) (s : State) : Answer := .next (s.live (uartRxByte s b stopOk))
def execUartTxByteDone (s : State) : Answer := .next (s.live (uartTxByteDone s))
def execI2c1Xfer (m : BitVec 11) (v : Word) (s : State) : Answer := .next (s.live (i2c1Xfer s m v))
def execI2c1ByteDone (ack arb : Bool) (b : Byte) (s : State) : Answer := .next (s.live (i2c1ByteDone s ack arb b))
def execTmrCompare (k : Nat) (s : State) : Answer := .next (s.live (tmrCompare s k))
def execTmrCapture (k : Nat) (s : State) : Answer := .next (s.live (tmrCapture s k))
def execTickOutPulse (s : State) : Answer := .next (s.live (tickOutPulse s))
def execPmbusPoll (rails : List PmbRail) (x : Sensors) (s : State) : Answer := .next (s.live (pmbusPoll s rails x))
def execPhotoInEdge (s : State) : Answer := .next (s.live (photoInEdge s))

end Sys2Proof.Machine
end

