-- ==== Sys2Proof/Machine/RegRead.lean ====
section
/-! DEFINITION. The words that the register blocks show, and the map from an address to a register (R34, R230, R231, R258,
R281, R287, R301, R351, R355, R394, R415, R434, R453, R469, R477). -/

namespace Sys2Proof.Machine
open Sys2Proof

/-- A field of value `v` at bit `k`. -/
def fw (v k : Nat) : Word := BitVec.ofNat 32 (v * 2 ^ k)
def loQ (v : BitVec 64) : Word := v.extractLsb' 0 32
def hiQ (v : BitVec 64) : Word := v.extractLsb' 32 32

/-- A W1C register: bits written with 1 among `mask` clear. -/
def w1c {n : Nat} (old : BitVec n) (mask v : Word) : BitVec n := old &&& ~~~((v &&& mask).truncate n)

/-! ### Steward memory as the firmware and the security block see it -/

/-- Data of `n` bytes of steward memory from offset `o`, corrected. -/
def State.smPeek (s : State) (o n : Nat) : List Byte :=
  (List.range n).map (fun i => byteAt (readRow s.sm.arr smRows ((o + i) / 32)).data ((o + i) % 32))

/-- The secure bank holds an identity (R423). -/
def State.idValid (s : State) : Bool := decide (leAt (s.smPeek 0xF0060 4) 0 4 = 0x49440001)

/-- The debug instructions are open (R432). -/
def State.debugOpen (s : State) : Bool := decide (s.sec.lcState ≠ 2) || s.sec.debugLeft.isSome

/-! ### Host interface (R355) -/

def Ring.cfg (r : Ring) : Word := fw r.vector.toNat 8 ||| fw r.size 4 ||| b2n r.en 0

def hifWord (h : Hif) (o : Nat) : Option Word :=
  if o = 0 then some 0x10880100
  else if o = 4 then some (fw h.errRing.toNat 12 ||| b2n h.resetSeen 3 ||| b2n h.refused 2 ||| b2n h.dberr 1 ||| b2n h.ready 0)
  else if within o 0x100 0x17F then
    let q := (o - 0x100) / 0x20
    let sq := tget ringDflt h.sq q
    let cq := tget ringDflt h.cq q
    match o % 0x20 with
    | 0x00 => some sq.lo
    | 0x04 => some sq.hi
    | 0x08 => some sq.cfg
    | 0x0C => some cq.lo
    | 0x10 => some cq.hi
    | 0x14 => some cq.cfg
    | _ => none
  else match o with
    | 0x200 => some h.evt.lo
    | 0x204 => some h.evt.hi
    | 0x208 => some h.evt.cfg
    | _ => none

/-! ### Pacer (R34) -/

def pacerWord (p : Pacer) (o : Nat) : Option Word :=
  match o with
  | 0x00 => some (fw p.src.toNat 2 ||| b2n p.run 0)
  | 0x04 => some (b2n p.single 17 ||| fw p.flyCnt 8 ||| b2n p.flag1 7 ||| b2n p.flag0 6 ||| b2n p.tickBOk 5 ||| b2n p.tickAOk 4
      ||| fw p.state.code 0)
  | 0x08 => some (fw p.heatLen 0)
  | 0x0C => some (fw (coolLen p.heatLen) 0)
  | 0x10 => some (loQ p.heatNum)
  | 0x14 => some (p.hiLatch.getD (hiQ p.heatNum))
  | 0x20 => some p.tickCfg
  | 0x24 => some p.ptpCfg
  | 0x28 => some (p.epochSec.extractLsb' 0 32)
  | 0x2C => some ((p.epochSec.extractLsb' 32 16).zeroExtend 32)
  | 0x30 => some (p.epochNs.zeroExtend 32)
  | 0x34 => some (fw p.flyLimit 0)
  | 0x38 => some (BitVec.ofInt 32 p.trim)
  | 0x3C => some (BitVec.ofInt 32 p.phaseErr)
  | 0x40 => some p.applyLo
  | 0x44 => some p.applyHi
  | 0x48 => some (p.events.zeroExtend 32)
  | _ => none

/-! ### Pairing (R415) -/

/-- Pairs that run single, over all contracts. -/
def State.allSingle (s : State) : Nat := (s.con.map s.singlePairs).sum

/-- REPAIR[f]: the copy in service, the copies behind it, or copies that await resumption. -/
def repairWord (p : Pairing) (f : Nat) : Word :=
  let cs := p.copies.filter (fun (c : Copy) => decide (c.field = f))
  match cs.filter (fun (c : Copy) => decide (c.pos < 2560)) with
  | c :: r => fw 1 30 ||| fw r.length 23 ||| fw c.lane 12 ||| fw c.pos 0
  | [] => match cs with
    | c :: _ => fw 2 30 ||| fw c.lane 12 ||| fw 2560 0
    | [] => 0

/-- SEAT_STATE[n]. -/
def State.seatStateWord (s : State) (n : Nat) : Word :=
  let lane := match s.seatLane n with | some p => p | none => 0x7FF
  match s.con.find? (fun c => c.running && c.card.owns n) with
  | none => fw lane 16
  | some c =>
    b2n true 31 ||| b2n c.card.paired 30 ||| b2n (decide (c.card.role n = 1)) 29 ||| fw (s.seatState n).toNat 27 ||| fw lane 16
      ||| fw (if c.card.role n = 0 then 0 else c.card.partner n % 1024) 0

def State.pairWord (s : State) (o : Nat) : Option Word :=
  let p := s.pair
  if o = 0 then some (b2n p.stbyOk 27 ||| b2n p.svc 26 ||| fw (p.copies.length % 1024) 16 ||| fw (s.allSingle % 1024) 0)
  else if within o 0x10 0x2F then some (getW p.cnt ((o - 0x10) / 4))
  else if within o 0x40 0x5F then some (repairWord p ((o - 0x40) / 4))
  else if within o 0x100 0x187 then
    some ((List.range 32).foldl (fun a j => if p.scratched.contains (8 * (o - 0x100) + j) then a ||| fw 1 j else a) 0)
  else if within o 0x1000 0x1FFF then some (s.seatStateWord ((o - 0x1000) / 4))
  else none

/-! ### Security (R434) -/

def measDflt : Nat → BitVec 256 := fun _ => 0

def State.secWord (s : State) (o : Nat) : Option Word :=
  let c := s.sec
  match o with
  | 0x00 => some (b2n c.bootFail 9 ||| b2n c.fallback 8 ||| b2n c.image 7 ||| b2n s.debugOpen 6 ||| b2n s.idValid 5
      ||| fw c.lcState 0)
  | 0x04 => some (c.tamper.zeroExtend 32)
  | 0x08 => some c.tamperCnt
  | 0x10 => some 0
  | _ => if within o 0x100 0x1FF then
      some ((tget measDflt c.meas ((o - 0x100) / 0x20)).extractLsb' (8 * (o % 0x20)) 32)
    else none

/-! ### Photo-finish and log (R453) -/

def State.pfWord (s : State) (o : Nat) : Option Word :=
  let x := s.snap
  match o with
  | 0x00 => some x.arm
  | 0x04 => some 0
  | 0x08 => some (b2n x.held.isSome 1 ||| b2n x.pend.isSome 0)
  | 0x0C => some (x.progCyc.zeroExtend 32)
  | 0x10 => some (loQ x.progHeat)
  | 0x14 => some (hiQ x.progHeat)
  | 0x18 => some x.count
  | 0x1C => some x.missed
  | 0x40 => some ((s.log.holdS.zeroExtend 32 <<< 16) ||| s.log.periodMs.zeroExtend 32)
  | 0x44 => some (fw s.log.slice 0)
  | _ => none

/-! ### Power (R469) -/

def pwrWord (x : Pwr) (o : Nat) : Option Word :=
  match o with
  | 0x00 => some (x.on.zeroExtend 32)
  | 0x04 => some (x.off.zeroExtend 32)
  | 0x08 => some (x.events.zeroExtend 32)
  | 0x0C => some (x.cause.zeroExtend 32)
  | 0x10 => some (x.clk.zeroExtend 32)
  | 0x14 => some (b2n x.wdtEn 31 ||| fw x.wdtPer 0)
  | 0x18 => some 0
  | 0x1C => some x.wdtExp
  | 0x20 => some 0
  | 0x24 => some 0
  | 0x28 => some (x.tjWarn.zeroExtend 32)
  | 0x2C => some (x.vddMv.zeroExtend 32)
  | 0x60 => some (loQ x.rtc)
  | 0x64 => some x.rtcHi
  | _ => if within o 0x30 0x5F then some ((tget tempDflt x.temp ((o - 0x30) / 4)).zeroExtend 32)
    else if within o 0x68 0x7F then some 0 else none

/-! ### Peripherals (R477) -/

/-- Levels of the pins: driven ones show OUT, the others what the board drives. -/
def State.pinWord (s : State) : Word := (s.per.out &&& s.per.dir) ||| (Config.pinLevels s.free &&& ~~~s.per.dir)

def State.claimWord (s : State) (r : Nat) : Word :=
  let c := s.claim r
  if !c.held then 0
  else b2n true 31 ||| b2n (within r 0x30 0x3F && s.portLocked (r - 0x30)) 30 ||| fw (if r < 32 then c.via else 0) 16
    ||| c.owner.zeroExtend 32

def State.perWord (s : State) (o : Nat) : Option Word :=
  let x := s.per
  if o < 0x108 then some (s.claimWord (o / 4))
  else if within o 0x200 0x307 then some (s.claim ((o - 0x200) / 4)).cfg
  else if within o 0x440 0x47F then
    let t := s.tmr ((o - 0x440) / 16)
    match o % 16 with
    | 0 => some (b2n t.en 31 ||| fw t.mode.toNat 29 ||| b2n t.gunsync 28 ||| t.rsv.zeroExtend 32)
    | 4 => some t.cmp
    | 8 => some t.cnt
    | _ => some t.cap
  else if within o 0x480 0x4BF then some (getW x.rail ((o - 0x480) / 4))
  else match o with
    | 0x400 => some (b2n x.refused 0)
    | 0x410 => some x.dir
    | 0x414 => some x.out
    | 0x418 => some s.pinWord
    | 0x424 => some (fw x.tx.length 16 ||| fw x.rx.length 8 ||| b2n x.txovf 2 ||| b2n x.overrun 1 ||| b2n x.framing 0)
    | 0x430 => some 0
    | 0x434 => some (b2n x.i2cBusy 31 ||| fw x.i2cRx.toNat 8 ||| b2n x.i2cArb 1 ||| b2n x.i2cNack 0)
    | _ => none

/-! ### Lane memory blocks and steward memory (R258) -/

def remapWord (e : Remap) : Word := b2n e.v 31 ||| b2n e.bad 30 ||| fw e.row 0

def memWord (m : LaneMem) (o : Nat) : Option Word :=
  if within o 0x10 0x1B then some (getW m.ceCnt ((o - 0x10) / 4))
  else if o = 0x1C then some m.tagCe
  else if within o 0x20 0x2B then some (getW m.ueCnt ((o - 0x20) / 4))
  else if within o 0x100 0x15F then some (remapWord (m.h0.spare ((o - 0x100) / 4)))
  else if within o 0x160 0x1BF then some (remapWord (m.h1.spare ((o - 0x160) / 4)))
  else if within o 0x1C0 0x21F then some (remapWord (m.is.spare ((o - 0x1C0) / 4)))
  else match o with
    | 0x00 => some (fw (m.is.used 24) 19 ||| fw (m.h1.used 24) 14 ||| fw (m.h0.used 24) 9 ||| b2n m.exhaust 3 ||| b2n m.marked 2
        ||| b2n m.ue 1 ||| b2n m.ce 0)
    | 0x04 => some (b2n m.remapAuto 1 ||| b2n m.scrubEn 0)
    | 0x08 => some 0
    | 0x2C => some m.late
    | 0x30 => some m.lastErr
    | 0x34 => some m.lastSyn
    | 0x38 => some (fw m.sweeps 11 ||| fw m.row 0)
    | _ => none

def smWord (m : StewMem) (o : Nat) : Option Word :=
  match o with
  | 0x00 => some (b2n m.busy 2 ||| b2n m.ue 1 ||| b2n m.ce 0)
  | 0x04 => some m.ceCnt
  | 0x08 => some m.ueCnt
  | 0x0C => some m.busyA
  | 0x10 => some m.busyB
  | 0x14 => some m.secRef
  | 0x18 => some m.lastErr
  | 0x1C => some (fw (m.arr.used 64) 0)
  | _ => none

/-! ### Routers (R230, R231) -/

def halfAt (f : Nat → BitVec 16) (o : Nat) : Word := ((f (o / 2 + 1)).zeroExtend 32 <<< 16) ||| (f (o / 2)).zeroExtend 32

def routWord (x : ROut) (o : Nat) : Option Word :=
  if o < 0x1000 then some (halfAt (tget ent16 x.bank0) o)
  else if o < 0x2000 then some (halfAt (tget ent16 x.bank1) (o - 0x1000))
  else if o < 0x2040 then some ((tget ent64 x.dir0 ((o - 0x2000) / 8)).extractLsb' (o % 8 * 8) 32)
  else if o < 0x2080 then some ((tget ent64 x.dir1 ((o - 0x2040) / 8)).extractLsb' (o % 8 * 8) 32)
  else if o = 0x2080 then some ((x.owner.zeroExtend 32 <<< 16) ||| b2n x.refused 2 ||| b2n x.arm 1 ||| b2n x.bank 0)
  else none

def rcntWord (c : RCnt) (o : Nat) : Option Word :=
  match o with
  | 0 => some c.ce
  | 4 => some c.ue
  | 8 => some c.drop
  | _ => none

/-- The router, and the offset within its block, of an address of R230. -/
def routerAt (a : Nat) : Option (RouterId × Nat × Nat) :=
  if within a 0x54000000 0x55FFFFFF then
    some (.squad ((a - 0x54000000) / 0x80000), (a - 0x54000000) % 0x80000, 0x7F000)
  else if within a 0x56000000 0x567FFFFF then
    some (.field ((a - 0x56000000) / 0x100000), (a - 0x56000000) % 0x100000, 0xFF000)
  else if within a 0x56800000 0x569FFFFF then
    some (.ring ((a - 0x56800000) / 0x40000), (a - 0x56800000) % 0x40000, 0x3F000)
  else none

def State.routerWord (s : State) (r : RouterId) (o cnt : Nat) : Option Word :=
  if cnt ≤ o then rcntWord (s.rcnt r) (o - cnt)
  else if o / 0x4000 < nOuts r then routWord (s.rout r (o / 0x4000)) (o % 0x4000)
  else none

/-! ### QDR controllers, stream engines, multicast lists (R281) -/

def qdrWord (q : Qdr) (o : Nat) : Option Word :=
  if within o 0x40 0x4F then some (getW q.train ((o - 0x40) / 4))
  else if within o 0x400 0x7FF then some (remapWord (tget remapDflt q.remap ((o - 0x400) / 4)))
  else match o with
    | 0x00 => some (fw q.failUe.toNat 24 ||| fw q.zq.toNat 20 ||| fw q.retrain.toNat 16 ||| fw q.freq.toNat 8 ||| b2n q.dens 4
        ||| b2n q.scrubEn 2 ||| b2n q.remapAuto 1 ||| b2n q.present 0)
    | 0x04 => some 0
    | 0x08 => some (fw q.spareUsed 16 ||| fw q.initStep 8 ||| fw q.state.toNat 0)
    | 0x0C => some (q.events.zeroExtend 32)
    | 0x10 => some q.ceCnt
    | 0x14 => some q.ueCnt
    | 0x18 => some q.aparCnt
    | 0x1C => some q.retrainCnt
    | 0x20 => some q.sweepCnt
    | 0x24 => some q.lastErr
    | _ => none

def bankWord128 (t : Tab (BitVec 128)) (o : Nat) : Word := (tget descDflt t (o / 16)).extractLsb' (8 * (o % 16)) 32

def State.engWord (s : State) (e o : Nat) : Option Word :=
  let g := s.engine e
  if o < 0x1000 then some (bankWord128 g.bank0 o)
  else if o < 0x2000 then some (bankWord128 g.bank1 (o - 0x1000))
  else match o with
    | 0x2000 => some ((g.owner.zeroExtend 32 <<< 16) ||| b2n g.refused 2 ||| b2n g.arm 1 ||| b2n g.bank 0)
    | 0x2004 => some (b2n g.baddesc 16 ||| fw (g.desc % 256) 8 ||| b2n (s.engActive e) 0)
    | 0x2008 => some g.lateCnt
    | _ => none

def mcWord (m : Mcast) (o : Nat) : Option Word :=
  if o < 0x1000 then some (bankWord128 m.bank0 o)
  else if o < 0x2000 then some (bankWord128 m.bank1 (o - 0x1000))
  else if o = 0x2000 then some (b2n m.refused 2 ||| b2n m.arm 1 ||| b2n m.bank 0)
  else none

/-! ### Ports and their engine slots (R351) -/

def portWord (t : Port) (o : Nat) : Option Word :=
  if within o 0x40 0x7B then some (getW t.cnt ((o - 0x40) / 4))
  else match o with
    | 0x00 => some (fw t.vid.toNat 8 ||| b2n t.vlan 7 ||| fw t.mode.toNat 0)
    | 0x04 => some (fw t.kstate.toNat 2 ||| b2n t.lock 1 ||| b2n t.cdr 0)
    | 0x08 => some t.macLo
    | 0x0C => some (t.macHi.zeroExtend 32)
    | 0x10 => some t.ip
    | 0x14 => some (t.ctrlUdp.zeroExtend 32)
    | 0x18 => some t.tsCorr
    | 0x20 => some t.kcfg
    | 0x24 => some t.krtt
    | 0x28 => some (t.events.zeroExtend 32)
    | _ => none

def pctrlWord (c : Pctrl) : Word := (c.owner.zeroExtend 32 <<< 16) ||| b2n c.refused 2 ||| b2n c.arm 1 ||| b2n c.bank 0

def slotWord (c : Pctrl) (b0 b1 : Mem) (o : Nat) : Option Word :=
  if o < 0x900 then some (leWordAt (mread b0 o 4) 0)
  else if within o 0x1000 0x18FF then some (leWordAt (mread b1 (o - 0x1000) 4) 0)
  else if o = 0x2000 then some (pctrlWord c)
  else none

/-- The port and slot offset of an engine address: (ingest, port, offset). -/
def slotAt (a : Nat) : Option (Bool × Nat × Nat) :=
  if within a 0x5A100000 0x5A13FFFF then
    let x := a - 0x5A100000
    some (true, x / 0x20000 * 8 + x % 0x20000 / 0x4000, x % 0x4000)
  else if within a 0x5A200000 0x5A23FFFF then
    let x := a - 0x5A200000
    some (false, x / 0x20000 * 8 + x % 0x20000 / 0x4000, x % 0x4000)
  else none

/-! ### Fabric registers (R301) -/

def fabWord (f : Fab) (o : Nat) : Option Word :=
  if within o 0x100 0x15B then
    let t := (o - 0x100) / 4
    some (fw (min (getN f.grants t) 65535) 16 ||| (tget ent16 f.rounds t).zeroExtend 32)
  else match o with
    | 0x00 => some (b2n f.abort 3 ||| b2n f.hopcrc 2 ||| b2n f.hdr 1 ||| b2n f.err 0)
    | 0x04 => some f.errCnt
    | 0x08 => some f.poisonCnt
    | 0x0C => some f.hopCnt
    | 0x10 => some f.hdrCnt
    | 0x14 => some f.abortCnt
    | 0x18 => some f.lastErr
    | 0x1C => some f.lastAddr
    | _ => none

/-! ### Mailbox channels (R394) -/

/-- A channel register outside the data words; LOCK stands in every page. -/
def State.chanWord (s : State) (c o : Nat) : Option Word :=
  let ch := s.chan c
  match o with
  | 0x040 => some (fw ch.epoch.toNat 24 ||| fw ch.msgEpoch.toNat 16 ||| fw ch.len 0)
  | 0x044 => some 0
  | 0x048 => some (b2n ch.dropped 3 ||| b2n ch.busy 2 ||| b2n ch.badlen 1 ||| b2n ch.full 0)
  | 0x04C => some (bindWord ch)
  | 0x050 => some ch.postCnt
  | 0x054 => some ch.busyCnt
  | 0x058 => some ch.dropCnt
  | 0x3FC => some (b2n s.mail.lock 0)
  | _ => none

/-! ### The map (R287) -/

/-- The register word at an aligned address, without the side effects of a read; none where no register exists. -/
def State.regWord (s : State) (a : Nat) : Option Word :=
  if within a 0x50000000 0x5000FFFF then hifWord s.hif (a - 0x50000000)
  else if within a 0x50010000 0x5001FFFF then pacerWord s.pacer (a - 0x50010000)
  else if within a 0x50020000 0x5002FFFF then s.pairWord (a - 0x50020000)
  else if within a 0x50030000 0x5003FFFF then s.secWord (a - 0x50030000)
  else if within a 0x50040000 0x5004FFFF then s.pfWord (a - 0x50040000)
  else if within a 0x50050000 0x5005FFFF then pwrWord s.pwr (a - 0x50050000)
  else if within a 0x50060000 0x5006FFFF then s.perWord (a - 0x50060000)
  else match routerAt a with
  | some (r, o, cnt) => s.routerWord r o cnt
  | none =>
    if within a 0x58000000 0x5810FFFF then memWord (s.lmem ((a - 0x58000000) / 0x400)) (a % 0x400)
    else if within a 0x58120000 0x5812FFFF then smWord s.sm (a - 0x58120000)
    else if within a 0x58200000 0x5823FFFF then qdrWord (s.qch ((a - 0x58200000) / 0x10000)) (a % 0x10000)
    else if within a 0x58400000 0x5847FFFF then s.engWord ((a - 0x58400000) / 0x10000) (a % 0x10000)
    else if within a 0x58480000 0x5848FFFF then mcWord s.mc (a - 0x58480000)
    else if within a 0x58500000 0x5850FFFF then fabWord s.fab (a - 0x58500000)
    else if within a 0x5A000000 0x5A00FFFF then portWord (s.port ((a - 0x5A000000) / 0x1000)) (a % 0x1000)
    else match slotAt a with
    | some (inp, k, o) =>
      let t := s.port k
      if inp then slotWord t.ig t.in0 t.in1 o else slotWord t.eg t.out0 t.out1 o
    | none => none

end Sys2Proof.Machine
end

