-- ==== Sys2Proof/Machine/Snapshot.lean ====
section
/-! DEFINITION. Photo-finish: triggers, capture, the sections of a snapshot, SNAPSHOT_ARM and SNAPSHOT_READ (R435–R444,
R453). -/

namespace Sys2Proof.Machine
open Sys2Proof

/-! ### Records (R442, R443) -/

/-- The registers of a block at the given offsets; a word without a register reads 0. -/
def regBytes (f : Nat → Option Word) (os : List Nat) : List Byte := os.flatMap (fun o => leW ((f o).getD 0))
/-- Offsets `lo`, `lo` + 4, …, `n` words. -/
def words (lo n : Nat) : List Nat := (List.range n).map (fun i => lo + 4 * i)

/-- A section: its records, zero-padded to a multiple of 32 bytes. -/
def section32 (b : List Byte) : List Byte := b ++ List.replicate ((32 - b.length % 32) % 32) 0

/-- A record of a block whose domain is off reads 0 (R444). -/
def recOr (on : Bool) (b : List Byte) : List Byte := if on then b else List.replicate b.length 0

/-- PC of a lane record: the handler's entry in trap entry, the repeated instruction in a repetition. -/
def State.recPc (s : State) (p : Nat) : Word :=
  let l := s.lane p
  match l.trap.due with
  | some r =>
    if r.b ≤ s.now then
      match (readDesc s p r.n).1.2 with
      | some d => d.code.pos
      | none => l.ctl.pc
    else l.ctl.pc
  | none => match l.ctl.rep with
    | some r => r.addr
    | none => l.ctl.pc

/-- STATE of a lane record. -/
def recState (now : Nat) (l : Lane) : Word :=
  fw (l.ctl.rc % 65536) 16 ||| b2n l.spl.flag 15 ||| b2n (l.mode == .idle || l.mode == .held) 14 ||| b2n (l.mode == .fenced) 13
    ||| b2n (decide (l.trap.curNum ≠ 0)) 12 ||| b2n (l.mode == .mbxWait) 11 ||| b2n (l.mode == .wait) 10
    ||| b2n (l.mode == .remote || decide (now < l.ctl.stallUntil) || decide (now < l.lsu.forceEnd)) 9
    ||| fw (l.ctl.depth % 32) 4 ||| l.g.zeroExtend 32

/-- The 256 bytes of lane `p` (R443), as moves of the next cycle would read it. -/
def State.laneRec (s : State) (p : Nat) : List Byte :=
  let l := (s.lane p).settle (s.now + 1)
  leW (laneId p l) ++ leW (s.recPc p) ++ leW (recState s.now l) ++ leW (trapCur l.trap) ++ leW l.trap.pend ++ leW l.trap.mask
    ++ leW l.spl.sig ++ leW (lsuStatus l.lsu) ++ (List.range 40).flatMap (fun i => leW (sysRead p l (0x100 + i)))
    ++ (List.range 6).flatMap (fun i => leW (sysRead p l (0xC4 + i)))
    ++ leW l.lsu.ovl ++ leW l.lsu.full ++ leW l.spl.schkCnt ++ leW l.trap.cnt ++ leW (qstat l.rly) ++ leW (splStatus l.spl)
    ++ leW (splSample l.spl) ++ leW l.spl.lastSig ++ leW (l.cfg.zeroExtend 32) ++ [0, 0, 0, 0]

def allRouters : List RouterId :=
  (List.range 64).map RouterId.squad ++ (List.range 8).map RouterId.field ++ (List.range 8).map RouterId.ring

/-- The domain of a router; ring stops lie in D2. -/
def routerDom : RouterId → Nat
  | .squad r => 3 + r / 8
  | .field f => 3 + f
  | .ring _ => 2

/-! ### Arbitration state (R296, R442) -/

/-- The rods of master `m` that its port holds outstanding: at most 32 at a time, without those it had sent before a reset
(R290, R299). -/
def Fab.window (f : Fab) (m : BitVec 11) : List FRod :=
  (f.reqs.filter (fun r => decide (r.master = m))).take
    (32 - ((f.bridge.filter (fun r => decide (r.master = m) && !r.drop)).length + (f.resps.filter (fun r => decide (r.master = m))).length))

/-- Masters with a request waiting. -/
def Fab.masters (f : Fab) : List (BitVec 11) := (f.reqs.map (fun r => r.master)).eraseDups

/-- The next rod of each master for target `t`. -/
def Fab.heads (f : Fab) (t : Nat) : List FRod :=
  f.masters.filterMap (fun m => (f.window m).find? (fun r => decide (r.target = t)))

/-- Leaves that have a request for target `t`. -/
def Fab.asking (f : Fab) (t : Nat) : List Nat := (f.heads t).filterMap (fun r => leafOf r.master)

def servedDflt : Nat → List Nat := fun _ => []
/-- Leaves that are eligible at target `t`. -/
def Fab.eligible (f : Fab) (t : Nat) : List Nat :=
  (f.asking t).filter (fun x => !(tget servedDflt f.served t).contains x)

/-- Key of arbiter `a` of target `t`: 0 the root, 1–4 its groups, 5 the seats' root, 6–13 field and 14–77 squad arbiters. -/
def arbKey (t a : Nat) : Nat := t * 128 + a

def arbWord (f : Fab) (t : Nat) : Word := fw (f.eligible t).length 16 ||| fw (getN f.ptr (arbKey t 0) % 8) 0

/-! ### The whole snapshot -/

/-- The thirteen sections (R442). -/
def State.sections (s : State) : List (List Byte) :=
  [ regBytes (pacerWord { s.pacer with hiLatch := none }) (words 0 20),
    (List.range 1092).flatMap (fun p => recOr (s.laneOn p) (s.laneRec p)),
    (List.range 1088).flatMap (fun p => recOr (s.laneOn p) (regBytes (memWord (s.lmem p)) (words 0 16))),
    regBytes (smWord s.sm) (words 0 8),
    allRouters.flatMap (fun r => recOr (s.domOn (routerDom r)) (regBytes (rcntWord (s.rcnt r)) (words 0 4))),
    (List.range 4).flatMap (fun k => recOr (s.domOn (11 + k)) (regBytes (qdrWord (s.qch k)) (words 0 20))),
    (List.range 8).flatMap (fun e => regBytes (s.engWord e) [0x2000, 0x2004, 0x2008, 0x200C]),
    (List.range 16).flatMap (fun k => recOr (s.domOn (portDomain k)) (regBytes (portWord (s.port k)) (words 0 32))),
    (List.range 4).flatMap (fun e => recOr (s.domOn (15 + e % 2))
      ((List.range 8).flatMap (fun q =>
        let t := s.port (8 * (e % 2) + q)
        leW (pctrlWord (if e < 2 then t.ig else t.eg))))),
    (regBytes (fabWord s.fab) (words 0 8 ++ words 0x100 23) ++ (List.range 23).flatMap (fun t => leW (arbWord s.fab t))
      ++ List.replicate 40 0),
    (List.range 64).flatMap (fun c => regBytes (s.chanWord c) [0x040, 0x048, 0x050, 0x054, 0x058] ++ List.replicate 12 0),
    regBytes s.pairWord (words 0 32 ++ words 0x100 34 ++ words 0x1000 1024),
    regBytes (pwrWord s.pwr) (words 0 32) ].map section32

/-- OFFSET and LENGTH of each section. -/
def dirBytes : Nat → List (List Byte) → List Byte
  | _, [] => []
  | at_, b :: r => leBytes at_ 4 ++ leBytes b.length 4 ++ dirBytes (at_ + b.length) r

/-- The bytes that SNAPSHOT_READ writes (R441). -/
def Shot.bytes (x : Shot) : List Byte :=
  leBytes 0x48534650 4 ++ leBytes 360288 4 ++ leBytes x.num 4 ++ leW x.cause ++ leBytes x.heat.toNat 8 ++ leW x.cyc ++ leW x.missed
    ++ leW x.domOff ++ List.replicate 28 0 ++ dirBytes 256 x.secs ++ List.replicate 88 0 ++ x.secs.flatten

/-- PF_CAPTURE: in capture cycle c every snapshot register latches, and the sources that took part are disarmed (R436,
R438). It is the last command of its cycle. -/
def pfCapture (s : State) : State :=
  match s.snap.pend with
  | none => s
  | some c =>
    if s.now < c then s
    else
      let n := s.snap.count.toNat + 1
      let cause : Word := fw s.snap.code 16 ||| fw (s.snap.primary % 8) 8 ||| s.snap.causes.zeroExtend 32
      let shot : Shot :=
        { num := n, cause := cause, heat := s.pacer.heatNum, cyc := fw s.cyc 0, missed := 0,
          domOff := ~~~(s.pwr.on.zeroExtend 32) &&& 0xFFFFF, secs := s.sections }
      let s := { s with snap := { s.snap with
          pend := none, held := some shot, heldAt := s.now, count := sat1 s.snap.count, arm := s.snap.arm &&& ~~~s.snap.took
          causes := 0, primary := 0, code := 0, took := 0 } }
      (s.raise 0x0A01 0 (BitVec.ofNat 64 (n + 4294967296 * (cause.toNat % 32)))).tally 16

/-- Release the held snapshot (R439). -/
def State.pfRelease (s : State) : State := { s with snap := { s.snap with held := none } }

/-! ### Triggers and releases -/

/-- PF_PROG_TRIGGER: the armed heat and cycle is the current one (R435). -/
def pfProgTrigger (s : State) : State :=
  if s.snap.arm.getLsbD 2 && s.pacer.open_ && decide (s.pacer.heatNum = s.snap.progHeat)
      && decide (s.cyc = s.snap.progCyc.toNat) && decide (s.pacer.elapsed < s.L) then
    s.pfTrigger 2 0 (some 2)
  else s

/-- A write of PF_CMD with TRIG; any master but the stewards is discarded. -/
def pfCmdTrig (s : State) (m : BitVec 11) : State :=
  (if isStwMaster m then s.pfTrigger 3 0 none else s).answer 0 0

/-- A write of PF_CMD with RELEASE. -/
def pfCmdRelease (s : State) (m : BitVec 11) : State := (if isStwMaster m then s.pfRelease else s).answer 0 0

/-- Lane cycles of a second at the nominal 1.25 GHz. -/
def lcPerSec : Nat := 1250000000

/-- SNAPSHOT_HOLD_EXPIRE: HOLD_S seconds have passed since the capture (R439). -/
def snapshotHoldExpire (s : State) : State :=
  if s.snap.held.isSome && decide (s.log.holdS ≠ 0) && decide (s.snap.heldAt + s.log.holdS.toNat * lcPerSec ≤ s.now) then
    s.pfRelease
  else s

/-! ### SNAPSHOT_ARM and SNAPSHOT_READ (R438, R440) -/

def snapshotArm (s : State) (e : Sqe) : State :=
  s.runCmd 0x08 ⟨false, false, 0x28⟩ e (fun s =>
    let src := BitVec.ofNat 32 (sqePar e 0x18 4)
    let cyc := sqePar e 0x1C 4
    let heat := sqePar e 0x20 8
    if src &&& 0x7E00FFF8 ≠ 0 then fail stField s
    else if src.getLsbD 2 && decide (heat < s.heatN + 2) then fail stGun s
    else if src.getLsbD 2 && decide (s.L ≤ cyc) then fail stField s
    else
      let s := if src.getLsbD 31 then s.pfRelease else s
      let s := { s with snap := { s.snap with arm := src &&& 0x01FF0006 } }
      let s := if src.getLsbD 2 then
          { s with snap := { s.snap with progCyc := BitVec.ofNat 24 cyc, progHeat := BitVec.ofNat 64 heat } } else s
      let n := fw (s.snap.count.toNat + 1) 0
      done n 0 (if src.getLsbD 0 then s.pfTrigger 0 0 none else s))

def snapshotRead (s : State) (e : Sqe) : State :=
  s.runCmd 0x09 ⟨false, true, 0x1C⟩ e (fun s =>
    match s.snap.held with
    | none => fail stNoSnap s
    | some x =>
      if sqePar e 0x18 4 ≠ x.num then fail stNoSnap s
      else if e.len.toNat < 360288 then fail stField s
      else
        let d := s.output e x.bytes 360288 0
        if d.status = stSuccess then { d with s := d.s.pfRelease } else d)

def execSnapshotArm (e : Sqe) (s : State) : Answer := .next (s.live (snapshotArm s e))
def execSnapshotRead (e : Sqe) (s : State) : Answer := .next (s.live (snapshotRead s e))
def execPfProgTrigger (s : State) : Answer := .next (s.live (pfProgTrigger s))
def execPfCmdTrig (m : BitVec 11) (s : State) : Answer := .next (s.live (pfCmdTrig s m))
def execPfCmdRelease (m : BitVec 11) (s : State) : Answer := .next (s.live (pfCmdRelease s m))
def execPfCapture (s : State) : Answer := .next (s.live (pfCapture s))
def execSnapshotHoldExpire (s : State) : Answer := .next (s.live (snapshotHoldExpire s))

end Sys2Proof.Machine
end

