-- ==== Sys2Proof/Machine/LogUnit.lean ====
section
/-! DEFINITION. The lifetime log: the pass over the source registers, frames and slices, the repair region, what a boot
restores, and READ_LOG (R417, R445–R452). -/

namespace Sys2Proof.Machine
open Sys2Proof

/-- `l` cut or zero-filled to `n` bytes. -/
def fit (n : Nat) (l : List Byte) : List Byte := (l ++ List.replicate n 0).take n

/-! ### Source counters by frame word (R447) -/

def State.laneSource (s : State) (p j : Nat) : Nat :=
  let m := s.lmem p
  let r := (s.lane p).rly
  (match j with
    | 0 => getW m.ceCnt 0
    | 1 => getW m.ceCnt 1
    | 2 => getW m.ceCnt 2
    | 3 => getW m.ueCnt 0
    | 4 => getW m.ueCnt 1
    | 5 => getW m.ueCnt 2
    | 6 => m.tagCe
    | 7 => m.late
    | 8 => r.clash
    | 9 => r.unslot
    | 10 => r.qovf
    | _ => r.rej).toNat

def State.chanSource (s : State) (k j : Nat) : Nat :=
  let q := s.qch k
  match j with
  | 0 => q.ceCnt.toNat
  | 1 => q.ueCnt.toNat
  | 2 => q.aparCnt.toNat
  | 3 => q.retrainCnt.toNat
  | 4 => q.sweepCnt.toNat
  | 5 => q.spareUsed
  | 6 => getN s.log.ev (128 + k)
  | _ => 0

/-- The source of the frame word at byte offset `o`. -/
def State.logSource (s : State) (o : Nat) : Nat :=
  if within o 0x100 0x17F then s.chanSource ((o - 0x100) / 32) (o % 32 / 4)
  else if within o 0x180 0x193 then ((smWord s.sm (o - 0x180 + 4)).getD 0).toNat
  else if o = 0x194 then s.sm.arr.used 64
  else if within o 0x1A0 0x1FB then getN s.log.ev ((o - 0x1A0) / 4)
  else if within o 0x200 0x23F then getN s.log.ev (64 + (o - 0x200) / 4)
  else if within o 0x240 0x63F then (getW (s.port ((o - 0x240) / 64)).cnt ((o - 0x240) % 64 / 4)).toNat
  else if within o 0x1000 0xDCBF then
    let p := (o - 0x1000) / 48
    let j := (o - 0x1000) % 48 / 4
    if isStw p && decide (j < 8) then 0 else s.laneSource p j
  else if within o 0xE000 0xE4FF then
    match allRouters[(o - 0xE000) / 16]? with
    | some r => ((rcntWord (s.rcnt r) (o % 16)).getD 0).toNat
    | none => 0
  else if within o 0xE500 0xE7FF then
    let c := s.chan ((o - 0xE500) / 12)
    (match (o - 0xE500) % 12 with
      | 0 => c.postCnt
      | 4 => c.busyCnt
      | _ => c.dropCnt).toNat
  else if within o 0xE800 0xE81F then (s.engine ((o - 0xE800) / 4)).lateCnt.toNat
  else if within o 0xE820 0xE833 then ((fabWord s.fab (o - 0xE820 + 4)).getD 0).toNat
  else 0

/-- Byte offsets of the words that hold totals of increases. -/
def totalWords : List Nat :=
  words 0x100 38 ++ words 0x1A0 23 ++ words 0x200 16 ++ words 0x240 256 ++ words 0x1000 13104 ++ words 0xE000 320
    ++ words 0xE500 192 ++ words 0xE800 8 ++ words 0xE820 5

/-- One word of the pass: its increase since the previous pass goes into its total; a source that was reset counts anew. -/
def State.foldWord (s : State) (o : Nat) : State :=
  let v := s.logSource o
  let old := getN s.log.prev (o / 4)
  { s with log := { s.log with
      prev := putN s.log.prev (o / 4) v
      tot := putN s.log.tot (o / 4) (min (getN s.log.tot (o / 4) + (if old ≤ v then v - old else v)) 4294967295) } }

/-- The pass of step 1, and the largest GRANTS per target. -/
def State.logPass (s : State) : State :=
  let s := totalWords.foldl State.foldWord s
  (List.range 23).foldl (fun s t =>
    { s with log := { s.log with tot := putN s.log.tot (0xE840 / 4 + t) (max (getN s.log.tot (0xE840 / 4 + t)) (min (getN s.fab.grants t) 65535)) } }) s

/-! ### Frames (R446, R447) -/

/-- Frame offsets whose values the firmware keeps directly: seconds powered and histogram bins. -/
def isHist (o : Nat) : Bool := within o 0x40 0x8F || within o 0x800 0xD7F
def isHist8 (o : Nat) : Bool := within o 0xB00 0xCFF

/-- The frame word at byte offset `o` ≥ 0x40. -/
def Log.frameWord (g : Log) (o : Nat) : Nat :=
  if isHist8 o then
    let v := getN g.hist (o / 8 * 2)
    if o % 8 = 0 then v % 4294967296 else v / 4294967296
  else if isHist o then getN g.hist (o / 4)
  else getN g.tot (o / 4)

/-- Bytes 0x0040–0xFFFF of the frame. -/
def Log.body (g : Log) : List Byte := (words 0x40 16368).flatMap (fun o => leBytes (g.frameWord o) 4)

/-- The 64-byte frame header, with the CRC of the body. -/
def State.frameHead (s : State) (body : List Byte) : List Byte :=
  let h := leBytes 0x4D524646 4 ++ leBytes 0 4 ++ leBytes s.log.seq 8 ++ leBytes s.log.heatStart.toNat 8
    ++ leBytes s.pacer.heatNum.toNat 8 ++ leBytes s.log.boot 4 ++ leBytes s.log.jNext 4
    ++ leBytes (s.pacer.ptpT / 5000000000 % 281474976710656) 8
  fit 60 h ++ leW (crc32cFinal body)

/-- A write of the log at offset `o`, whose verification and one retry succeed or fail (R445). -/
def State.logWrite (s : State) (o : Nat) (b : List Byte) (ok : Bool) : State :=
  if ok then { s with log := { s.log with mem := mwrite s.log.mem o b } }
  else
    ({ s.draw with log := { s.log with mem := mwrite s.log.mem o (fit b.length (Config.failedWrite s.free)) } }).raise
      0x0A04 0 (BitVec.ofNat 64 o) false

/-- LOG_SLICE_WRITE: one 1 KB slice; the first write of a frame makes the pass, slice 0 comes last (R446). -/
def logSliceWrite (s : State) (verify1 verify2 : Bool) : State :=
  if !s.sec.up then s
  else
    let new := s.log.frame.isEmpty
    let s := if new then
        let t := s.logPass
        { t with log := { t.log with frame := t.log.body, heatStart := t.pacer.heatNum, slice := 1 } }
      else s
    let k := s.log.slice
    let at_ := 0x80000 + 65536 * (s.log.seq % 32) + 1024 * k
    if k = 0 then
      let s := s.logWrite at_ (s.frameHead s.log.frame ++ s.log.frame.take 960) (verify1 || verify2)
      { s with log := { s.log with frame := [], seq := s.log.seq + 1, slice := 1 } }
    else
      let s := s.logWrite at_ ((s.log.frame.drop (1024 * k - 64)).take 1024) (verify1 || verify2)
      { s with log := { s.log with slice := (k + 1) % 64 } }

/-! ### The repair region (R450) -/

def remap16 (e : Remap) : Nat := (if e.v then 32768 else 0) + (if e.bad then 16384 else 0) + e.row % 1024

/-- Spare `i` (0–71) of a lane's record: home bank 0, home bank 1, instruction store. -/
def LaneMem.spareRec (m : LaneMem) (i : Nat) : Nat := if i < 72 then remap16 ((m.arr (i / 24)).spare (i % 24)) else 0

/-- The repair word at offset `o`, a multiple of 4. -/
def State.repairRec (s : State) (o : Nat) : Nat :=
  if within o 0x2000 0x45FFF then
    let m := s.lmem ((o - 0x2000) / 256)
    m.spareRec (o % 256 / 2) + 65536 * m.spareRec (o % 256 / 2 + 1)
  else if within o 0x46000 0x460FF then (remapWord (s.sm.arr.spare ((o - 0x46000) / 4))).toNat
  else if within o 0x47000 0x47FFF then
    (remapWord (tget remapDflt (s.qch ((o - 0x47000) / 1024)).remap (o % 1024 / 4))).toNat
  else if within o 0x48000 0x4A21F then
    let v := getN s.pair.lastRefresh ((o - 0x48000) / 8) - 1
    if o % 8 = 0 then v % 4294967296 else v / 4294967296
  else if within o 0x4B000 0x4B087 then
    ((List.range 32).filter (fun j => s.pair.scratched.contains (8 * (o - 0x4B000) + j))).foldl (fun a j => a + 2 ^ j) 0
  else 0

/-- A byte of the log window; reserved ranges read 0 (R445). -/
def State.logByte (s : State) (o : Nat) : Byte :=
  if within o 0x1000 0x1FFF || within o 0x380000 0x3FBFFF then 0
  else if within o 0x2000 0x7FFFF then byteAt (leBytes (s.repairRec (o / 4 * 4)) 4) (o % 4) else mget s.log.mem o

def State.logRead (s : State) (o n : Nat) : List Byte := (List.range n).map (fun i => s.logByte (o + i))

/-! ### Boot (R445, R446, R449) -/

def frameAt (m : Mem) (i : Nat) : List Byte := mread m (0x80000 + 65536 * i) 65536
def frameOk (b : List Byte) : Bool := decide (leAt b 0 4 = 0x4D524646) && decide (crc32cFinal (b.drop 64) = leWordAt b 60)
def frameSeq (b : List Byte) : Nat := leAt b 8 8

/-- The valid frame with the highest SEQ. -/
def newestFrame (m : Mem) : Option (List Byte) :=
  ((List.range 32).map (frameAt m)).foldl (fun best b =>
    if !frameOk b then best
    else match best with
      | none => some b
      | some x => if frameSeq x < frameSeq b then some b else best) none

/-- The journal position after the run of entries that carry boot tag `tag` and consecutive SEQ, from entry `i`. -/
def journalEnd (m : Mem) (tag : Byte) : Nat → Nat → Option Nat → Nat
  | 0, i, _ => i
  | n + 1, i, seq =>
    let e := mread m (0x280000 + 32 * i) 32
    let ok := (byteAt e 2).getLsbD 0 && decide (byteAt e 3 = tag) && (match seq with | none => true | some q => decide (leAt e 4 4 = q))
    if ok then journalEnd m tag n ((i + 1) % 32768) (some ((leAt e 4 4 + 1) % 4294967296)) else i

/-- What the firmware takes from the log at boot, and the header it rewrites. -/
def State.logBoot (s : State) : State :=
  let g := s.log
  let tag := BitVec.ofNat 8 g.boot
  let f := newestFrame g.mem
  let word : List Byte → Nat → Nat := fun b o => leAt b o 4
  let tot := match f with
    | none => []
    | some b => (totalWords ++ words 0xE840 23).foldl (fun t o => putN t (o / 4) (word b o)) []
  let hist := match f with
    | none => []
    | some b => (words 0x40 20 ++ words 0x800 352).foldl (fun t o =>
        if isHist8 o then (if o % 8 = 0 then putN t (o / 4) (leAt b o 8) else t) else putN t (o / 4) (word b o)) []
  let start := match f with | none => 0 | some b => leAt b 0x24 4 % 32768
  { s with log := { g with
      boot := g.boot + 1
      seq := match f with | none => 0 | some b => frameSeq b + 1
      tot := tot, hist := hist, frame := []
      jNext := journalEnd g.mem tag 32768 start none
      mem := mwrite g.mem 0 (fit 4096 (Config.logHeader s.sec.serial.toNat (g.boot + 1) g.periodMs.toNat)) } }

/-! ### READ_LOG (R452) -/

def readLog (s : State) (e : Sqe) : State :=
  s.runCmd 0x07 ⟨false, true, 0x1C⟩ e (fun s =>
    let o := sqePar e 0x18 4
    let n := e.len.toNat
    if o % 32 ≠ 0 ∨ n % 32 ≠ 0 then fail stField s
    else if 0x400000 < o + n then fail stLogRange s
    else s.output e (s.logRead o n) (BitVec.ofNat 32 n) 0)

def execReadLog (e : Sqe) (s : State) : Answer := .next (s.live (readLog s e))
def execLogSliceWrite (verify1 verify2 : Bool) (s : State) : Answer := .next (s.live (logSliceWrite s verify1 verify2))

end Sys2Proof.Machine
end

