-- ==== Sys2Proof/Machine/Security.lean ====
section
/-! DEFINITION. Security, identity and lifecycle: the secure bank, tamper, boot and measurement, firmware images and their
handover, attestation, tokens and lifecycle transitions, debug access (R411, R412, R416–R433). -/

namespace Sys2Proof.Machine
open Sys2Proof

/-! ### The lifecycle record (R417) -/

/-- The record is written: both copies carry a count one higher. -/
def State.writeRecord (s : State) (r : LcRec) : State :=
  let n := s.sec.lc.count + 1
  let keys := (List.range 8).map (fun k => tget keyDflt r.keys k)
  let b := fit 8188 (Config.lcRecord r.state.toNat r.tokenSeq (if r.active then 1 else 0) r.minSvn keys n)
  let c := b ++ leW (crc32cFinal b)
  { s with
    sec := { s.sec with lc := { r with count := n } }
    log := { s.log with mem := mwrite (mwrite s.log.mem 0x3FC000 c) 0x3FE000 c } }

/-- The bytes of the record in force. -/
def State.recordBytes (s : State) : List Byte := mread s.log.mem 0x3FC000 8192

/-! ### The secure bank (R422, R423, R431) -/

/-- Rows of steward memory that hold the secure bank. -/
def bankRows : Nat := 30720

/-- The secure bank reads zero everywhere, its spare rows included. -/
def RodArr.wipeBank (a : RodArr) : RodArr :=
  let gone : Nat → Bool := fun r => within r bankRows (smRows - 1) ||
    (decide (smRows ≤ r) && (a.spare (r - smRows)).v && decide (bankRows ≤ (a.spare (r - smRows)).row))
  { a with cells := a.cells.filter (fun e => !gone (e.1 / 36)), tags := a.tags.filter (fun e => !gone e.1) }

def State.wipeBank (s : State) : State := { s with sm := { s.sm with arr := s.sm.arr.wipeBank, undoB := none } }

/-- Write bytes of steward memory at offset `o`, within one rod. -/
def State.smPoke (s : State) (o : Nat) (d : List Byte) : State :=
  let x := spread (o % 32) d
  s.smWrite false (o / 32) x.1 x.2 false

def State.idKey (s : State) : List Byte := s.smPeek 0xF0000 64
def State.idPub (s : State) : List Byte := s.smPeek 0xF0040 32
def State.attestCount (s : State) : Nat := leAt (s.smPeek 0xF0068 8) 0 8

/-- ID_HASH of a token and ID_KEY_HASH of IDENTIFY: SHA-256 of ID_PK, or 0 without an identity. -/
def State.idHash (s : State) : List Byte := if s.idValid then sha256 s.idPub else List.replicate 32 0

/-- A new identity from the random number generator. -/
def State.makeIdentity (s : State) : State :=
  let sk := fit 64 (Config.identityKey s.sec.rng)
  let s := { s with sec := { s.sec with rng := s.sec.rng + 1, needId := false, tamperSince := false } }
  (((s.smPoke 0xF0000 (sk.take 32)).smPoke 0xF0020 (sk.drop 32)).smPoke 0xF0040 (sk.drop 32)).smPoke 0xF0060
    (leBytes 0x49440001 4 ++ List.replicate 12 0)

/-- SEC_IDENTITY_NEW (R433). -/
def State.identityNew (s : State) : State := s.raise 0x0902 0 (BitVec.ofNat 64 (leAt (sha256 s.idPub) 0 8)) false

/-- Opening and closing of the debug instructions raise their events (R432). -/
def State.debugEdge (s : State) (was : Bool) (heats : Nat) : State :=
  if !was && s.debugOpen then s.raise 0x0904 0 (BitVec.ofNat 64 (heats % 1099511627776)) false
  else if was && !s.debugOpen then s.raise 0x0905 0 0 false
  else s

/-! ### Attestation (R424, R425) -/

/-- The part of the message that is signed. -/
def State.attestBody (s : State) (nonce : List Byte) (count : Nat) : List Byte :=
  let cs := s.con.filter (fun c => c.state != .broken)
  let flags := (if s.sec.debugLeft.isSome then 1 else 0) + (if s.sec.tamperSince then 2 else 0) + (if s.sec.fallback then 4 else 0)
  let fw := tget (fun _ => fwReset) s.sec.fw (if s.sec.image then 1 else 0)
  leBytes 0x54415443 4 ++ leBytes (440 + 16 * cs.length + 7856) 4 ++ leBytes s.sec.serial.toNat 16 ++ leBytes 2 4
    ++ leBytes flags 4 ++ fit 32 nonce ++ leBytes s.pacer.heatNum.toNat 8 ++ leBytes count 8
    ++ (List.range 8).flatMap (fun k => rodBytes (tget measDflt s.sec.meas k)) ++ s.idPub ++ rodBytes s.sec.ownerHash
    ++ rodBytes s.sec.vendorHash ++ leBytes fw.version 4 ++ leBytes fw.svn 4
    ++ cs.flatMap (fun c => leBytes c.card.cardId.toNat 8 ++ leBytes c.handle 2 ++ leBytes c.state.code 1 ++ leBytes c.keySlot 1
        ++ [0, 0, 0, 0])

/-- ATTEST: the message leaves with the completion. -/
def attest (s : State) (e : Sqe) : State :=
  if !s.canTake e.sq then s
  else
    let busy := s.runs 2
    let s := s.takeEntry e.sq
    let stop : Nat → State := fun st => s.finish e.sq 2 e.cid st 0 0
    if !sqeClean e ⟨false, true, 0x38⟩ then stop stField
    else if !(allowedIn 2 s.sec.lcState && s.idValid) then stop stNotAllowed
    else if busy then stop stBusy
    else
      let n := s.attestCount + 1
      let body := s.attestBody (fit 32 (e.param.take 32)) n
      let msg := body ++ fit 7856 (Config.slhSign s.sec.rng s.idKey (preHash body))
      if e.len.toNat < msg.length then stop stField
      else
        let s := (s.emits (listReads e)).aer e.buf
        if !(e.buf.ok && sqeSglOk e) then s.finish e.sq 2 e.cid stBuffer 0 0
        else
        let s := { (s.smPoke 0xF0068 (leBytes n 8)) with sec := { s.sec with rng := s.sec.rng + 1 } }
        { s with hif := { s.hif with compl := s.hif.compl ++
          [{ sq := e.sq, op := 2, cid := e.cid, status := stSuccess, r0 := BitVec.ofNat 32 msg.length, r1 := 0,
             sqHead := (s.sqRing e.sq).head, dma := bufferOut e msg }] } }

/-- A wipe ends an ATTEST whose message has not left: INTERNAL, and nothing is written. -/
def State.cutAttest (s : State) : State :=
  { s with hif := { s.hif with compl := s.hif.compl.map (fun (c : Compl) =>
      if c.op = 2 ∧ c.status = stSuccess then { c with status := stInternal, r0 := 0, dma := [] } else c) } }

/-! ### Tamper (R431) -/

/-- SEC_TAMPER from source `src`, the bit of the SEC_TAMPER register; the clock and voltage sensors need main power. -/
def secTamper (s : State) (src : Nat) : State :=
  if 6 ≤ src ∨ (4 ≤ src ∧ s.pwr.mainOn = false) then s
  else
    let held := s.idValid
    let s := (s.wipeBank.cutAttest).tally 9
    let s := { s with sec := { s.sec with
        tamper := s.sec.tamper ||| ((1 : BitVec 6) <<< src), tamperCnt := sat1 s.sec.tamperCnt, tamperSince := true } }
    if s.pwr.mainOn && s.sec.up then
      let s := s.raise 0x0901 0 (s.sec.tamper.zeroExtend 64) false
      if held && decide (s.sec.lcState = 2) then { s with sec := { s.sec with needId := true } } else s
    else { s with sec := { s.sec with tamperLate := true } }

/-! ### Firmware images (R418, R419) -/

def imgBodyLen (b : List Byte) : Nat := leAt b 0x10 4
def imgSvn (b : List Byte) : Nat := leAt b 8 4
def imgEntry (b : List Byte) : Nat := leAt b 0x14 4
/-- MAGIC to the end of OWNER_SIG. -/
def imgWhole (b : List Byte) : List Byte := b.take (0x100 + imgBodyLen b + 15712)
def imgFw (b : List Byte) : Fw :=
  { version := leAt b 4 4, svn := imgSvn b, raise := (byteAt b 12).getLsbD 0, hash := digest (imgWhole b) }

/-- R418 and R419 of an image: layout, security version, and both signatures. -/
def State.imageValid (s : State) (b : List Byte) : Bool :=
  let n := 0x100 + imgBodyLen b
  let vend := slice b 0x18 32
  let own := slice b 0x38 32
  decide (leAt b 0 4 = 0x57465543) && decide (imgBodyLen b % 32 = 0) && decide (imgBodyLen b ≤ 524288)
    && decide (n + 15712 ≤ b.length) && decide (leAt b 12 4 ≤ 1) && decide (imgEntry b % 4 = 0)
    && decide (imgEntry b < imgBodyLen b) && allZero (slice b 0x58 168)
    && decide (s.sec.lc.minSvn ≤ imgSvn b) && decide (digest vend = s.sec.vendorHash)
    && verifies vend (b.take n) (slice b n 7856)
    && (decide (s.sec.lcState = 0)
      || (decide (digest own = s.sec.ownerHash) && verifies own (b.take (n + 7856)) (slice b (n + 7856) 7856)))

def fwDflt : Nat → Fw := fun _ => fwReset
def State.fwAt (s : State) (img : Bool) : Fw := tget fwDflt s.sec.fw (if img then 1 else 0)
def State.setFw (s : State) (img : Bool) (f : Fw) : State :=
  { s with sec := { s.sec with fw := tput fwDflt s.sec.fw (if img then 1 else 0) f } }

/-! ### Boot (R420, R421) -/

def bootRomBytes : List Byte := (List.range 32768).flatMap (fun i => leW (Config.bootRom i))

/-- The firmware body at steward memory offset 0. -/
def State.loadBody (s : State) : Nat → List Byte → Nat → State
  | _, _, 0 => s
  | r, d, n + 1 => (s.smWrite false r (d.take 32) (List.replicate 32 true) false).loadBody (r + 1) (d.drop 32) n

/-- All four stewards leave the boot ROM for ENTRY. -/
def State.jumpEntry (s : State) (entry : Nat) : State :=
  [1088, 1089, 1090, 1091].foldl (fun s p =>
    let l := s.lane p
    s.setLane p { l with ctl := { l.ctl with pc := BitVec.ofNat 32 (0x40000000 + entry), restart := true, ready := s.now } }) s

/-- Flags and pairs as the firmware of image `img` starts: READY, pair A in service, pair B its standby (R411, R420). -/
def State.bootFlags (s : State) (img fell : Bool) : State :=
  let s := { s with sec := { s.sec with image := img, fallback := fell, bootFail := false, up := true } }
  let s := { s with hif := { s.hif with ready := true } }
  { s with pair := { s.pair with svc := false, stbyOk := true, stbyImage := img } }

/-- SEC_TAMPER for bits latched while no firmware ran (R431). -/
def State.bootTamper (s : State) : State :=
  if s.sec.tamperLate then
    let s := { s with sec := { s.sec with tamperLate := false } }
    s.raise 0x0901 0 (s.sec.tamper.zeroExtend 64) false
  else s

/-- The firmware of image `img` takes service: READY, the boot counts, and what the log and the secure bank ask for. -/
def State.fwStart (s : State) (b : List Byte) (img fell : Bool) : State :=
  let s := (s.extend 2 (sha256 (imgWhole b))).loadBody 0 (slice b 0x100 (imgBodyLen b)) (imgBodyLen b / 32)
  let s := ((s.jumpEntry (imgEntry b)).logBoot.tally 21).bootFlags img fell
  let s := if fell then s.raise 0x0906 0 (if img then 1 else 0) false else s
  let s := s.bootTamper
  if decide (s.sec.lcState = 2) && !s.idValid then { s with sec := { s.sec with needId := true } } else s

/-- No image is valid: the stewards halt until device reset (R420). -/
def State.haltStewards (s : State) : State :=
  [1088, 1089, 1090, 1091].foldl (fun s p => s.setLane p { s.lane p with mode := .held }) s

/-- STEWARD_BOOT: the flashes hold images A and B. -/
def stewardBoot (s : State) (imgA imgB : List Byte) : State :=
  if s.sec.up || s.sec.bootFail then s
  else
    let s := { s with sec := { s.sec with meas := tput measDflt s.sec.meas 0 (digest bootRomBytes) } }
    let s := s.extend 1 (Config.fuseBytes s.sec.serial.toNat s.sec.vendorHash.toNat s.sec.ownerHash.toNat s.sec.lcFuse.toNat ++ s.recordBytes)
    let s := (s.setFw false (imgFw imgA)).setFw true (imgFw imgB)
    let act := s.sec.lc.active
    let one := if act then imgB else imgA
    let two := if act then imgA else imgB
    if s.imageValid one then s.fwStart one act false
    else if s.imageValid two then s.fwStart two (!act) true
    else ({ s with sec := { s.sec with bootFail := true } }).haltStewards

/-! ### Identity generation (R422, R427, R431) -/

/-- A transition to `new` ends: M1, SEC_LIFECYCLE and the completion (R427 steps 6 and 7). -/
def State.endTransition (s : State) (old new q : Nat) (cid : BitVec 16) : State :=
  let s := s.extend 1 s.recordBytes
  let s := s.raise 0x0903 0 (BitVec.ofNat 64 (old + 256 * new)) false
  s.finish q 0x0E cid stSuccess (BitVec.ofNat 32 new) 0

/-- IDENTITY_GENERATE: the key that is due, or a health test that fails. -/
def identityGenerate (s : State) (healthOk : Bool) : State :=
  if !s.sec.needId then s
  else match s.sec.pendTok with
  | some (old, q, cid) =>
    let t := { s with sec := { s.sec with pendTok := none } }
    if healthOk then t.makeIdentity.endTransition old 2 q cid
    else ({ t with sec := { t.sec with needId := false } }).finish q 0x0E cid stInternal 0 0
  | none =>
    if healthOk then s.makeIdentity.identityNew else { s with sec := { s.sec with needId := false } }

/-! ### Measurement by the firmware (R421, R434) -/

/-- A write of SEC_EXTEND. -/
def secExtend (s : State) (m : BitVec 11) (v : Word) : State :=
  let a := v.toNat / 32 * 32
  (if isStwMaster m && within a 0x40000000 0x400EFFE0 then
    let r := s.smRead false ((a - 0x40000000) / 32)
    r.2.extend (v.toNat % 8) r.1.data
  else s).answer 0 0

/-! ### Tokens (R426, R427, R429, R430, R432) -/

def tokKind (b : List Byte) : Nat := leAt b 4 2
def tokTarget (b : List Byte) : Nat := leAt b 6 2
def tokSeq (b : List Byte) : Nat := leAt b 0x38 8
def tokHeats (b : List Byte) : Nat := leAt b 0x40 8
def tokKey (b : List Byte) : List Byte := slice b 0x48 32

/-- A move from `old` to `new` that R426 lists. -/
def transitionOk (old new : Nat) : Bool :=
  match old, new with
  | 0, 1 => true
  | 1, 2 => true
  | 2, 3 => true
  | 3, 2 => true
  | 1, 4 => true
  | 2, 4 => true
  | 3, 4 => true
  | _, _ => false

/-- Every condition of R429 on a token, the command's TARGET being `target`. -/
def State.tokenOk (s : State) (b : List Byte) (target : Nat) : Bool :=
  let k := tokKind b
  let first := decide (k = 1) && decide (s.sec.lcState = 0) && decide (target = 1)
  let pub := slice b 0x68 32
  decide (leAt b 0 4 = 0x4E4B4F54) && within k 1 5
    && (if k = 1 then decide (tokTarget b = target) else if k = 2 ∨ k = 3 then decide (tokTarget b < 8) else decide (tokTarget b = 0))
    && decide (leAt b 8 16 = s.sec.serial.toNat) && decide (slice b 0x18 32 = s.idHash) && decide (s.sec.lc.tokenSeq < tokSeq b)
    && (if k = 4 then within (tokHeats b) 1 1099511627776 else decide (tokHeats b = 0))
    && (first || decide (k = 2) || allZero (tokKey b))
    && decide (digest pub = if first then s.sec.vendorHash else s.sec.ownerHash) && allZero (slice b 0x88 120)
    && verifies pub (b.take 256) (slice b 256 7856)

/-- The token's SEQ goes into TOKEN_SEQ, with the rest of the record as `r` gives it. -/
def State.acceptToken (s : State) (b : List Byte) (r : LcRec) : State := s.writeRecord { r with tokenSeq := tokSeq b }

/-- Bits of OWNER_KEY_HASH and LC_FUSE are blown: a fuse is never cleared (R416). -/
def State.blow (s : State) (owner : BitVec 256) (f : BitVec 2) : State :=
  { s with sec := { s.sec with ownerHash := s.sec.ownerHash ||| owner, lcFuse := s.sec.lcFuse ||| f } }

/-- A transition that its token allows: R427 from step 2 on. The identity of step 5 is
IDENTITY_GENERATE. -/
def State.transition (s : State) (b : List Byte) (new q : Nat) (cid : BitVec 16) : State :=
  let old := s.sec.lcState
  let was := s.debugOpen
  let s := s.wipeBank.tally 10
  let s := if old = 0 then s.blow (digest (tokKey b)) 1 else s
  let s := if new = 4 then s.blow 0 2 else s
  let s := s.acceptToken b { s.sec.lc with state := if new = 4 then s.sec.lc.state else BitVec.ofNat 3 new }
  let s := { s with sec := { s.sec with debugLeft := none } }
  let s := if s.pair.commit.isNone then { s with pair := { s.pair with staged := none, stbyImage := s.sec.image } } else s
  let s := s.debugEdge was 0
  if new = 2 then { s with sec := { s.sec with needId := true, pendTok := some (old, q, cid) } }
  else s.endTransition old new q cid

/-- LIFECYCLE up to its token: reserved fields, permission, the buffer; then `body` with the token and TARGET, or nothing when
the token is of another row's kind. -/
def State.tokenCmd (s : State) (e : Sqe) (kind : Nat → Bool) (body : State → List Byte → Nat → State) : State :=
  if !s.canTake e.sq || s.sec.pendTok.isSome then s
  else
    let stop : State → Nat → State := fun s st => s.finish e.sq 0x0E e.cid st 0 0
    match sqeInput e with
    | none => if !kind 1 then s
      else
        let s := s.takeEntry e.sq
        if !sqeClean e ⟨false, true, 0x1C⟩ then stop s stField
        else if !allowedIn 0x0E s.sec.lcState then stop s stNotAllowed
        else stop (s.readBuffer e) stBuffer
    | some b =>
      if !kind (tokKind b) then s
      else
        let s := s.takeEntry e.sq
        if !sqeClean e ⟨false, true, 0x1C⟩ then stop s stField
        else if !allowedIn 0x0E s.sec.lcState then stop s stNotAllowed
        else if b.length ≠ 8112 then stop s stField
        else body (s.readBuffer e) b (sqePar e 0x18 4)

/-- LIFECYCLE_TRANSITION: a token of kind 1, or of a kind that R429 does not list. -/
def lifecycleTransition (s : State) (e : Sqe) : State :=
  s.tokenCmd e (fun k => !within k 2 5) (fun s b target =>
    let stop : Nat → State := fun st => s.finish e.sq 0x0E e.cid st 0 0
    if tokKind b ≠ 1 then stop stToken
    else if !transitionOk s.sec.lcState target then stop stField
    else if !s.con.isEmpty then stop stNotAllowed
    else if s.runs 2 || s.runs 0x0A then stop stBusy
    else if !s.tokenOk b target then stop stToken
    else s.transition b target e.sq e.cid)

/-- A token of kinds 2–5: TOKEN when it is refused, else its effect; RESULT0 is the state. Keys are enrolled and revoked once
an owner is known (R430). -/
def State.otherToken (s : State) (e : Sqe) (k : Nat) (eff : State → List Byte → State) : State :=
  s.tokenCmd e (fun x => decide (x = k)) (fun s b target =>
    if !s.tokenOk b target || (decide (k < 4) && decide (s.sec.lcState = 0)) then s.finish e.sq 0x0E e.cid stToken 0 0
    else
      let s := eff s b
      s.finish e.sq 0x0E e.cid stSuccess (BitVec.ofNat 32 s.sec.lcState) 0)

/-- SEC_KEY_CHANGE and M4: the slot byte, then the key (R421, R430). -/
def State.keyChange (s : State) (slot : Nat) (key : List Byte) (on : Bool) : State :=
  (s.extend 4 (leBytes slot 1 ++ fit 32 key)).raise 0x0907 0 (BitVec.ofNat 64 (slot + if on then 256 else 0)) false

def keyEnrol (s : State) (e : Sqe) : State :=
  s.otherToken e 2 (fun s b =>
    let k := tokTarget b
    (s.acceptToken b { s.sec.lc with keys := tput keyDflt s.sec.lc.keys k (some (tokKey b)) }).keyChange k (tokKey b) true)

def keyRevoke (s : State) (e : Sqe) : State :=
  s.otherToken e 3 (fun s b =>
    let k := tokTarget b
    let old := (tget keyDflt s.sec.lc.keys k).getD []
    (s.acceptToken b { s.sec.lc with keys := tput keyDflt s.sec.lc.keys k none }).keyChange k old false)

def debugOpenCmd (s : State) (e : Sqe) : State :=
  s.otherToken e 4 (fun s b =>
    let s := s.acceptToken b s.sec.lc
    if s.sec.lcState ≠ 2 then s
    else
      ({ s with sec := { s.sec with debugLeft := some (max (s.sec.debugLeft.getD 0) (tokHeats b)) } }).raise 0x0904 0
        (BitVec.ofNat 64 (tokHeats b % 1099511627776)) false)

def debugCloseCmd (s : State) (e : Sqe) : State :=
  s.otherToken e 5 (fun s b =>
    let was := s.debugOpen
    let s := s.acceptToken b s.sec.lc
    ({ s with sec := { s.sec with debugLeft := none } }).debugEdge was 0)

/-- DEBUG_EXPIRE: DEBUG_HEATS guns have passed. -/
def debugExpire (s : State) : State :=
  if s.sec.debugLeft = some 0 then
    let was := s.debugOpen
    ({ s with sec := { s.sec with debugLeft := none } }).debugEdge was 0
  else s

/-! ### Firmware update and handover (R411, R412) -/

/-- FW_STAGE: the standby pair verifies the image, and it is written to the flash that is not in service. -/
def fwStage (s : State) (e : Sqe) : State :=
  let busy := s.runs 0x0A
  s.runCmd 0x0A ⟨false, true, 0x18⟩ e (fun s =>
    if busy then fail stBusy s
    else
    let s := s.readBuffer e
    match sqeInput e with
    | none => fail stBuffer s
    | some b =>
      if !s.imageValid b || decide (b.length ≠ 0x100 + imgBodyLen b + 15712) then fail stFwVerify s
      else if !s.pair.stbyOk then fail stInternal s
      else
        let img := !s.sec.image
        let s := (s.setFw img (imgFw b)).emit (.flash (if img then 1 else 0) b)
        done (BitVec.ofNat 32 (leAt b 4 4)) 0 { s with pair := { s.pair with staged := some b, stbyImage := img } })

/-- FW_COMMIT: the handover gun of the staged image. It completes after that gun. -/
def fwCommit (s : State) (e : Sqe) : State :=
  if !s.canTake e.sq then s
  else
    let s := s.takeEntry e.sq
    let stop : Nat → State := fun st => s.finish e.sq 0x0B e.cid st 0 0
    let g := sqePar e 0x18 8
    if !sqeClean e ⟨false, false, 0x20⟩ then stop stField
    else if !allowedIn 0x0B s.sec.lcState then stop stNotAllowed
    else if s.pair.staged.isNone || s.pair.commit.isSome then stop stNotStaged
    else if g ≠ 0 ∧ g < s.heatN + 8 then stop stGun
    else { s with pair := { s.pair with commit := some (if g = 0 then s.heatN + 8 else g, e.sq, e.cid) } }

/-- Image `img` takes service: ACTIVE follows it, RAISE_SVN applies, and it is measured (R412, R420). -/
def State.takeImage (s : State) (img : Bool) : State :=
  let f := s.fwAt img
  let s := { s with sec := { s.sec with image := img } }
  let s := s.writeRecord { s.sec.lc with
    active := img, minSvn := if f.raise && s.pair.staged.isSome then f.svn else s.sec.lc.minSvn }
  s.extend 2 (rodBytes f.hash)

/-- Identity 0x404 and every role pass to the other pair; the image that takes service is measured when it differs, ACTIVE
follows it, and RAISE_SVN applies. -/
def State.handover (s : State) : State :=
  let old := s.sec.image
  let img := s.pair.stbyImage
  let s := { s with pair := { s.pair with svc := !s.pair.svc, stbyImage := old } }
  let s := if img = old then s else s.takeImage img
  (s.raise 0x0805 (srcW 6 (if s.pair.svc then 2 else 0)) 0).tally 22

/-- A staged image has taken service: FW_COMMIT completes with the version in service. -/
def State.endCommit (s : State) : State :=
  let c := s.pair.commit
  let s := { s with pair := { s.pair with staged := none, commit := none } }
  match c with
  | some (_, q, cid) => s.finish q 0x0B cid stSuccess (BitVec.ofNat 32 (s.fwAt s.sec.image).version) 0
  | none => s

/-- Step 4 of R29 for the stewards: a takeover due, which also commits a staged image, or a FW_COMMIT whose gun this is. -/
def State.passService (s : State) : State :=
  if s.pair.takeover then
    let old := s.svcPair
    let s := { s with pair := { s.pair with takeover := false, stbyOk := false, selfTest := true } }
    let s := s.handover.endCommit.resetPair old
    { s with pair := { s.pair with stbyImage := s.sec.image } }
  else match s.pair.commit with
  | some (g, _, _) => if g ≤ s.heatN then s.handover.endCommit else s
  | none => s

def execAttest (e : Sqe) (s : State) : Answer := .next (s.live (attest s e))
def execFwStage (e : Sqe) (s : State) : Answer := .next (s.live (fwStage s e))
def execFwCommit (e : Sqe) (s : State) : Answer := .next (s.live (fwCommit s e))
def execLifecycleTransition (e : Sqe) (s : State) : Answer := .next (s.live (lifecycleTransition s e))
def execKeyEnrol (e : Sqe) (s : State) : Answer := .next (s.live (keyEnrol s e))
def execKeyRevoke (e : Sqe) (s : State) : Answer := .next (s.live (keyRevoke s e))
def execDebugOpen (e : Sqe) (s : State) : Answer := .next (s.live (debugOpenCmd s e))
def execDebugClose (e : Sqe) (s : State) : Answer := .next (s.live (debugCloseCmd s e))
def execDebugExpire (s : State) : Answer := .next (s.live (debugExpire s))
def execStewardBoot (imgA imgB : List Byte) (s : State) : Answer := .next (s.live (stewardBoot s imgA imgB))
def execIdentityGenerate (healthOk : Bool) (s : State) : Answer := .next (s.live (identityGenerate s healthOk))
def execSecExtend (m : BitVec 11) (v : Word) (s : State) : Answer := .next (s.live (secExtend s m v))
def execSecTamper (src : Nat) (s : State) : Answer := .next (secTamper s src)

end Sys2Proof.Machine
end

