-- ==== Sys2Proof/Machine/Rings.lean ====
section
/-! DEFINITION. The host interface: doorbells, ring registers, the event and telemetry rings, MSI-X, host resets and D3hot,
and the commands IDENTIFY, PACER_CFG and TELEMETRY_CFG (R355–R358, R364, R367–R369, R372–R375). -/

namespace Sys2Proof.Machine
open Sys2Proof

/-! ### Rings by number: 0–3 SQ, 4–7 CQ, 8 event, 9 telemetry (HIF_STATUS.ERR_RING) -/

def State.ring (s : State) (k : Nat) : Ring :=
  if k < 4 then s.sqRing k else if k < 8 then s.cqRing (k - 4) else if k = 8 then s.hif.evt else s.hif.tel
def State.setRing (s : State) (k : Nat) (r : Ring) : State :=
  if k < 4 then s.setSq k r else if k < 8 then s.setCq (k - 4) r
  else if k = 8 then { s with hif := { s.hif with evt := r } }
  else { s with hif := { s.hif with tel := r } }

/-- Interrupt 35 on the steward pair in service (R357). -/
def State.bellInt (s : State) : State := s.svcPair.foldl (fun s p => s.pendInt p 3) s

/-- A doorbell write: an index beyond the ring stops it, a disabled ring ignores it; else `put` takes the index (R357). -/
def State.doorbell (s : State) (k : Nat) (v : Word) (put : Ring → Nat → Ring) : State :=
  if s.hif.fatal then s else
  let r := s.ring k
  let i := v.toNat % 4096
  let s := (s.setRing k { r with bell := BitVec.ofNat 32 i }).bellInt
  let r := s.ring k
  if 2 ^ r.size ≤ i then
    let s := s.setRing k { r with stopped := true }
    ({ s with hif := { s.hif with dberr := true, errRing := BitVec.ofNat 4 k } }).raise 0x0803 0 (BitVec.ofNat 64 k) false
  else if !r.en then s
  else s.setRing k (put r i)

def putTail (r : Ring) (i : Nat) : Ring := { r with tail := i }
def putHead (r : Ring) (i : Nat) : Ring := { r with head := i }

def sqTail (s : State) (q : Nat) (v : Word) : State := if q < 4 then s.doorbell q v putTail else s
def cqHead (s : State) (q : Nat) (v : Word) : State := if q < 4 then s.doorbell (4 + q) v putHead else s
def evtHead (s : State) (v : Word) : State := s.doorbell 8 v putHead
def telemHead (s : State) (v : Word) : State := s.doorbell 9 v putHead

/-! ### Ring registers (R355, R358) -/

def State.hifRefuse (s : State) : State := { s with hif := { s.hif with refused := true } }

/-- Events that wait when the event ring closes carry HELD (R372). -/
def State.holdEvents (s : State) : State :=
  { s with ev := { s.ev with q := s.ev.q.map (fun (e : Event) => { e with held := true }) } }

/-- A write of a ring's CFG. Setting EN from 0 to 1 resets head, tail and phase; enabling the event ring ends the host's
absence, and a host that enables a ring has set Bus Master Enable. -/
def State.cfgWrite (s : State) (k : Nat) (v : Word) : State :=
  let r := s.ring k
  let size := (v.extractLsb' 4 4).toNat
  let bad := r.en && decide (size ≠ r.size)
  let en := v.getLsbD 0
  let s := if bad then s.hifRefuse else s
  let r := { r with vector := v.extractLsb' 8 6, size := if !bad && within size 4 12 then size else r.size }
  let r := if en && !r.en then { r with head := 0, tail := 0, phase := true, stopped := false } else r
  let s := s.setRing k { r with en := en }
  let s := if en then { s with hif := { s.hif with busMaster := true } } else s
  if k = 8 then (if en then { s with hif := { s.hif with absent := false } } else s.holdEvents) else s

/-- A write of BASE_LO or BASE_HI. -/
def State.baseWrite (s : State) (k : Nat) (hi : Bool) (v : Word) : State :=
  let r := s.ring k
  if r.en then s.hifRefuse
  else s.setRing k (if hi then { r with hi := v } else { r with lo := v &&& 0xFFFFF000 })

def ringEnable (s : State) (k : Nat) (v : Word) : State := if k ≤ 8 && !s.hif.fatal then s.cfgWrite k v else s

/-! ### The event ring (R370, R372, R373) -/

/-- The oldest entry of the steward event queue; an open EVENT_LOST closes as it leaves. -/
def State.popEvent (s : State) : Option (Event × State) :=
  match s.ev.q with
  | e :: q => some (e, { s with ev := { s.ev with q := q } })
  | [] => match s.ev.lost with
    | none => none
    | some (n, first) =>
      let e := evq s 0x0804 0 (BitVec.ofNat 64 (n % 4294967296 + first % 4294967296 * 4294967296)) false s.ev.seq true
      some (e, ({ s with ev := { s.ev with seq := s.ev.seq + 1, lost := none } }).journal e)

/-- At most `n` entries move to the event ring; the count that moved. -/
def State.moveEvents (s : State) : Nat → Nat × State
  | 0 => (0, s)
  | n + 1 =>
    if !s.evtOpen then (0, s)
    else match s.popEvent with
    | none => (0, s)
    | some (e, s) =>
      let r := s.hif.evt
      let s := (s.emit (.dma (r.base + 32 * r.tail) (eventBytes e r.phase 0))).setRing 8 r.push
      let x := s.moveEvents n
      (x.1 + 1, x.2)

/-- EVENT_DELIVER: one batch of at most 32 entries, then the vector's message. -/
def eventDeliver (s : State) : State :=
  let x := s.moveEvents 32
  if x.1 = 0 then x.2
  else
    let s := if ringFull x.2.hif.evt then x.2.holdEvents else x.2
    s.message s.hif.evt.vector.toNat

/-- MSIX_UNMASK: a masked vector's pending message is sent once. -/
def msixUnmask (s : State) (v : Nat) : State :=
  if 64 ≤ v || s.hif.fatal then s
  else
    let x := tget msixDflt s.hif.msix v
    let s := { s with hif := { s.hif with msix := tput msixDflt s.hif.msix v { x with mask := false, pend := false } } }
    if x.pend then s.message v else s

/-- A host write of word `w` of MSI-X table entry `v` (R356, R373). -/
def State.msixWrite (s : State) (v w : Nat) (d : Word) : State :=
  let x := tget msixDflt s.hif.msix v
  let put : Msix → State := fun y => { s with hif := { s.hif with msix := tput msixDflt s.hif.msix v y } }
  match w with
  | 0 => put { x with addr := hiQ x.addr ++ d }
  | 1 => put { x with addr := d ++ loQ x.addr }
  | 2 => put { x with data := d }
  | _ => if d.getLsbD 0 then put { x with mask := true } else msixUnmask s v

/-! ### Telemetry (R368, R369) -/

/-- Counter sums: corrected errors, uncorrectable rods, FLAGGED, DISPUTED, RX_OK, RX_DROP, TX_BAD. -/
def State.teleSum (s : State) (i : Nat) : Nat :=
  let three : Tab Word → Nat := fun t => (getW t 0).toNat + (getW t 1).toNat + (getW t 2).toNat
  let mem : (LaneMem → Tab Word) → Nat := fun f => (s.mems.map (fun e => three (f e.2))).sum
  let qdr : (Qdr → Word) → Nat := fun f => (s.qdr.map (fun e => (f e.2).toNat)).sum
  let port : List Nat → Nat := fun l => (s.ports.map (fun e => (l.map (fun k => (getW e.2.cnt k).toNat)).sum)).sum
  match i with
  | 0 => mem LaneMem.ceCnt + s.sm.ceCnt.toNat + qdr Qdr.ceCnt
  | 1 => mem LaneMem.ueCnt + s.sm.ueCnt.toNat + qdr Qdr.ueCnt
  | 2 => (getW s.pair.cnt 2).toNat
  | 3 => (getW s.pair.cnt 1).toNat
  | 4 => port [cRxOk]
  | 5 => port [cRxFcs, cRxFilter, cRxLen, cRxDup, cRxStwDrop, cKCrc]
  | _ => port [cTxBad]

/-- Increase of sum `i` since the previous record. -/
def State.teleInc (s : State) (i : Nat) : List Byte := leBytes (s.teleSum i - getN s.hif.telem.base i) 4

def State.reservesFree (s : State) : Nat := ((List.range 64).filter (fun n => s.reserveFree (17 * n + 16))).length

/-- The temperatures the sensors last showed, in 1/8 °C. -/
def State.tjs (s : State) : List Int := (List.range 12).map (fun i => (tget tempDflt s.pwr.temp i).toInt)
def le16i (v : Int) : List Byte := leBytes (BitVec.ofInt 16 v).toNat 2

def State.teleRecord (s : State) : List Byte :=
  let t := s.hif.telem
  leBytes (if s.hif.tel.phase then 1 else 0) 4 ++ leBytes t.seq 4 ++ leBytes s.pacer.heatNum.toNat 8
    ++ leBytes (s.pacer.ptpT / 5000000000 % 281474976710656) 8 ++ leBytes (s.pacer.ptpT / 5 % 1000000000) 4
    ++ leBytes (s.pacer.state.code + if s.pacer.single then 8 else 0) 4 ++ leW (BitVec.ofInt 32 s.pacer.trim)
    ++ leBytes t.phaseMax 4 ++ le16i (s.tjs.max?.getD 0) ++ le16i (s.tjs.min?.getD 0) ++ leBytes s.per.powerMw 4
    ++ leBytes t.utilMax 2 ++ leBytes (s.con.filter (fun c => c.state == .active)).length 2
    ++ leBytes s.pair.scratched.length 2 ++ leBytes s.reservesFree 2 ++ s.teleInc 0 ++ s.teleInc 1 ++ s.teleInc 2 ++ s.teleInc 3
    ++ leBytes (s.ev.q.length + if s.ev.lost.isSome then 1 else 0) 4 ++ leBytes t.skipped 4 ++ s.teleInc 4 ++ s.teleInc 5
    ++ s.teleInc 6 ++ List.replicate 36 0

def State.setTelem (s : State) (t : Telem) : State := { s with hif := { s.hif with telem := t } }
def State.teleBase (s : State) : Tab Nat := mkTab zeroN ((List.range 7).map s.teleSum)

/-- TELEMETRY_RECORD: a record is written, or skipped while the ring is full. -/
def telemetryRecord (s : State) : State :=
  let t := s.hif.telem
  if !t.on || !s.hif.tel.en || !s.hostHere then s
  else if ringFull s.hif.tel || s.hif.tel.stopped then s.setTelem { t with skipped := t.skipped + 1 }
  else
    let r := s.hif.tel
    let b := s.teleBase
    let s := (s.emit (.dma (r.base + 128 * r.tail) s.teleRecord)).setRing 9 r.push
    let s := s.setTelem { t with seq := t.seq + 1, skipped := 0, phaseMax := 0, utilMax := 0, base := b }
    if t.irq then s.message r.vector.toNat else s

/-- TELEMETRY_CFG; SIZE is the exponent of R358. -/
def telemetryCfg (s : State) (e : Sqe) : State :=
  s.runCmd 0x0F ⟨false, false, 0x2C⟩ e (fun s =>
    let base := sqePar e 0x18 8
    let size := sqePar e 0x20 4
    let ms := sqePar e 0x24 4
    let vec := sqePar e 0x28 4
    if base = 0 then done 0 0 ((s.setRing 9 ringReset).setTelem telemReset)
    else if base % 4096 ≠ 0 ∨ within size 4 12 = false ∨ within ms 10 60000 = false ∨ 256 ≤ vec ∨ 64 ≤ vec % 128 then fail stField s
    else
      let r : Ring := { ringReset with
        lo := BitVec.ofNat 32 base, hi := hiW base, vector := BitVec.ofNat 6 vec, size := size, en := true }
      done 0 0 ((s.setRing 9 r).setTelem { telemReset with
        on := true, irq := decide (128 ≤ vec), periodMs := ms, base := s.teleBase }))

/-! ### IDENTIFY (R364) -/

def State.identity (s : State) : List Byte :=
  let q : Nat → List Byte := fun k =>
    let c := s.qch k
    leW (fw c.state.toNat 0 ||| b2n c.densF 4 ||| fw c.freqF.toNat 8)
  fit 4096 (
    [0x43, 0x55, 0x31, 0x30, 0x38, 0x38, 0, 0] ++ leW Config.siliconRev ++ leBytes 1 4 ++ leBytes s.sec.serial.toNat 16
    ++ (List.range 8).flatMap (fun i => leW (sysRead 0 laneReset0 i)) ++ leBytes (if s.sec.image then 1 else 0) 4
    ++ leBytes (s.fwAt false).version 4 ++ leBytes (s.fwAt true).version 4 ++ leBytes s.sec.lcState 4
    ++ q 0 ++ q 1 ++ q 2 ++ q 3 ++ leBytes s.pair.scratched.length 2 ++ leBytes s.reservesFree 2
    ++ leBytes (s.con.filter (fun c => c.state != .broken)).length 2 ++ [0, 0] ++ leBytes s.L 4 ++ [0, 0, 0, 0] ++ s.idHash)

def identify (s : State) (e : Sqe) : State :=
  s.runCmd 0x01 ⟨false, true, 0x18⟩ e (fun s => s.output e s.identity 0 0)

/-! ### The configuration space (R352, R353) -/

/-- What the configuration space shows and the host does not set itself: its identity and the sizes of BAR0/1 and BAR2/3. -/
structure ConfigSpace where
  deviceId : BitVec 16
  classCode : BitVec 24
  vendorId : BitVec 16
  serial : BitVec 128
  busMaster : Bool
  d3hot : Bool
  cor : Bool
  advisory : Bool
  fatal : Bool
  bar0 : Nat
  bar2 : Nat
  deriving DecidableEq, Repr

def State.configSpace (s : State) : ConfigSpace :=
  { deviceId := 0x1088, classCode := 0x120000, vendorId := Config.vendorId, serial := s.sec.serial,
    busMaster := s.hif.busMaster, d3hot := s.hif.d3, cor := s.hif.cor, advisory := s.hif.advisory, fatal := s.hif.fatal,
    bar0 := 16777216, bar2 := 65536 }

/-! ### PACER_CFG (R367) -/

/-- The PARAM fields of PACER_CFG. -/
structure PacerArgs where
  apply : Nat
  fields : Nat
  ctrl : Word
  heatLen : Nat
  tick : Word
  ptp : Word
  ns : Nat
  sec : Nat
  fly : Nat
  deriving DecidableEq, Repr

def pacerArgs (e : Sqe) : PacerArgs :=
  { apply := sqePar e 0x18 8, fields := sqePar e 0x20 4, ctrl := BitVec.ofNat 32 (sqePar e 0x24 4), heatLen := sqePar e 0x28 4,
    tick := BitVec.ofNat 32 (sqePar e 0x2C 4), ptp := BitVec.ofNat 32 (sqePar e 0x30 4), ns := sqePar e 0x34 4,
    sec := sqePar e 0x38 6, fly := sqePar e 0x3E 2 }

/-- Values that R34 ignores: they stand in no field that is written. -/
def tickCfgOk (v : Word) : Bool := decide (v.extractLsb' 24 2 ≠ 3) && decide (v.extractLsb' 16 6 ≠ 0)
def ptpCfgOk (v : Word) : Bool := decide (v.extractLsb' 4 4 ≠ 0)
def heatLenOk (n : Nat) : Bool := within n 12500 12500000

def PacerArgs.has (a : PacerArgs) (k : Nat) : Bool := a.fields.testBit k

def PacerArgs.ok (a : PacerArgs) : Bool :=
  decide (a.fields < 64)
    && (!a.has 0 || (decide (a.ctrl.toNat < 16) && decide (a.ctrl.extractLsb' 2 2 ≠ 3)))
    && (!a.has 1 || heatLenOk a.heatLen)
    && (!a.has 2 || (tickCfgOk a.tick && decide (a.tick &&& 0xFCC00000 = 0)))
    && (!a.has 3 || (ptpCfgOk a.ptp && decide (a.ptp &&& 0xFFFF0000 = 0)))
    && (!a.has 4 || decide (a.ns ≤ 999999999))
    && (!a.has 5 || within a.fly 1 256)

/-- Some field of the command waits for gun APPLY. -/
def PacerArgs.waits (a : PacerArgs) (src : BitVec 2) : Bool :=
  a.has 1 || a.has 2 || a.has 3 || a.has 4 || (a.has 0 && decide (a.ctrl.extractLsb' 2 2 ≠ src))

/-- A change that R23, R32 or R321 forbids. -/
def State.pacerForbids (s : State) (a : PacerArgs) : Bool :=
  (a.has 0 && !a.ctrl.getLsbD 0 && s.pacer.run && s.anyRunning)
    || (a.has 1 && decide (a.heatLen ≠ s.L) && (s.anyLive || s.anyRunning))
    || (a.has 4 && (decide (a.sec ≠ s.pacer.epochSec.toNat) || decide (a.ns ≠ s.pacer.epochNs.toNat)) && s.anyRunning)

/-- The pending changes of the command. -/
def Pacer.await (p : Pacer) (a : PacerArgs) : Pacer :=
  let q := p.pend
  if !a.waits p.src then p
  else
    { p with
      applyLo := loW a.apply, applyHi := hiW a.apply, applyArmed := true
      pend := { heatLen := if a.has 1 then some a.heatLen else q.heatLen
                tick := if a.has 2 then some a.tick else q.tick
                ptp := if a.has 3 then some a.ptp else q.ptp
                epochSec := if a.has 4 then some (BitVec.ofNat 48 a.sec) else q.epochSec
                epochNs := if a.has 4 then some (BitVec.ofNat 30 a.ns) else q.epochNs
                src := if a.has 0 then some (a.ctrl.extractLsb' 2 2) else q.src } }

/-- A write of PACER.CTRL's RUN and REPHASE by the steward firmware. -/
def State.pacerCtrl (s : State) (v : Word) : State :=
  let s := if v.getLsbD 0 then pacerRun s 0x404 else pacerStop s 0x404
  if v.getLsbD 1 then (rephaseOp s 0x404 (Config.refPhase s.free)).draw else s

def pacerCfg (s : State) (e : Sqe) : State :=
  s.runCmd 0x0C ⟨false, false, 0x40⟩ e (fun s =>
    let a := pacerArgs e
    if !a.ok then fail stField s
    else if a.waits s.pacer.src && decide (a.apply < s.heatN + 2) then fail stGun s
    else if s.pacerForbids a then fail stPacer s
    else
      let s := { s with pacer := s.pacer.await a }
      let s := if a.has 5 then { s with pacer := { s.pacer with flyLimit := a.fly } } else s
      done 0 0 (if a.has 0 then s.pacerCtrl a.ctrl else s))

/-! ### Host resets and D3hot (R374, R375) -/

def HostReset.code : HostReset → Nat
  | .perst => 0
  | .hot => 1
  | .flr => 2
  | .linkDown => 3

/-- HOST_RESET: the PCI Express engine with its reports, the configuration space, the MSI-X table and the host interface
registers. Commands taken run on. -/
def hostReset (s : State) (k : HostReset) : State :=
  let h := s.hif
  let s := { s with hif := { hifReset with
      busy := h.busy, compl := h.compl
      cut := (List.range 4).filter (fun q => tget flagDflt h.busy q) } }
  let s := ((s.holdEvents).abortMaster 0x420).mbxReset 0x420
  (s.raise 0x0801 0 (BitVec.ofNat 64 (HostReset.code k)) false).tally 8

/-- D3HOT_ENTRY: DMA and messages stop; no register is reset. -/
def d3hotEntry (s : State) : State :=
  if s.hif.d3 then s else ({ s with hif := { s.hif with d3 := true } }).abortMaster 0x420
def d3hotExit (s : State) : State := { s with hif := { s.hif with d3 := false } }

def execSqTail (q : Nat) (v : Word) (s : State) : Answer := .next (s.live (sqTail s q v))
def execCqHead (q : Nat) (v : Word) (s : State) : Answer := .next (s.live (cqHead s q v))
def execEvtHead (v : Word) (s : State) : Answer := .next (s.live (evtHead s v))
def execTelemHead (v : Word) (s : State) : Answer := .next (s.live (telemHead s v))
def execRingEnable (ring : Nat) (cfg : Word) (s : State) : Answer := .next (s.live (ringEnable s ring cfg))
def execEventDeliver (s : State) : Answer := .next (s.live (eventDeliver s))
def execMsixUnmask (vec : Nat) (s : State) : Answer := .next (s.live (msixUnmask s vec))
def execTelemetryRecord (s : State) : Answer := .next (s.live (telemetryRecord s))
def execTelemetryCfg (e : Sqe) (s : State) : Answer := .next (s.live (telemetryCfg s e))
def execIdentify (e : Sqe) (s : State) : Answer := .next (s.live (identify s e))
def execPacerCfg (e : Sqe) (s : State) : Answer := .next (s.live (pacerCfg s e))
def execHostReset (k : HostReset) (s : State) : Answer := .next (s.live (hostReset s k))
def execD3hotEntry (s : State) : Answer := .next (s.live (d3hotEntry s))
def execD3hotExit (s : State) : Answer := .next (s.live (d3hotExit s))

end Sys2Proof.Machine
end

