-- ==== Sys2Proof/Machine/Power.lean ====
section
/-! DEFINITION. Power domains, clocks and every reset (R450, R455–R470). -/

namespace Sys2Proof.Machine
open Sys2Proof

def State.setPwr (s : State) (p : Pwr) : State := { s with pwr := p }

/-- Set bit `k` of PWR_EVENTS. -/
def State.pwrEvent (s : State) (k : Nat) : State :=
  { s with pwr := { s.pwr with events := s.pwr.events ||| ((1 : BitVec 5) <<< k) } }

/-! ### Switched domains (R455, R457–R460) -/

/-- The bit of CLK_STATUS that domain `d`'s own PLL drives. -/
def domClk (d : Nat) : Option Nat := if within d 11 14 then some (d - 9) else if within d 15 16 then some (d - 9) else none

/-- The power controller closes one switch at a time, that of the lowest domain requested on. -/
def State.pickDomain (s : State) : State :=
  if s.pwr.closing.isSome then s
  else { s with pwr := { s.pwr with
    closing := (List.range 20).find? (fun d => within d 3 16 && !s.pwr.on.getLsbD d && !s.pwr.off.getLsbD d) } }

/-- PWR_REQ: the host and the steward firmware write it. -/
def pwrReq (s : State) (m : BitVec 11) (v : Word) : State :=
  (if isStwMaster m || decide (m = 0x420) then
    ({ s with pwr := { s.pwr with off := (v &&& 0x0001FFF8).truncate 20 } }).pickDomain
  else s).answer 0 0

/-- A memory block whose registers are reset; its arrays and remaps stay (R457, R459). -/
def LaneMem.regReset (m : LaneMem) : LaneMem := { laneMemReset with h0 := m.h0, h1 := m.h1, is := m.is }

/-- Routers of field `f` leave reset. -/
def State.resetRouters (s : State) (f : Nat) : State :=
  let mine : RouterId → Bool := fun r => match r with
    | .squad q => decide (q / 8 = f)
    | .field g => decide (g = f)
    | .ring _ => false
  let s := (allRouters.filter mine).foldl (fun s r =>
    (List.range (nOuts r)).foldl (fun s n => s.setRout r n routReset) (s.setRcnt r rcntReset)) s
  { s with relay := { s.relay with words := s.relay.words.filter (fun w => match w.loc with
      | .atRouter r _ => !mine r
      | .atLane p _ _ => decide (fieldOf p ≠ f)) } }

def fieldLanes (f : Nat) : List Nat := (List.range 136).map (fun i => 136 * f + i)

/-- The blocks of a field leave reset: lanes, routers and the registers of the memory blocks; the arrays keep their
contents, and scrub starts at row 0. -/
def State.fieldOn (s : State) (f : Nat) : State :=
  (fieldLanes f).foldl (fun s p => (s.setLane p laneReset0).setLmem p (s.lmem p).regReset) (s.resetRouters f)

/-- The blocks of domain `d` leave reset (R458). A channel waits for R266; its remaps stand in the log. -/
def State.domReset (s : State) (d : Nat) : State :=
  if within d 3 10 then s.fieldOn (d - 3)
  else if within d 11 14 then s.setQch (d - 11) { qdrReset with remap := (s.qch (d - 11)).remap, cells := (s.qch (d - 11)).cells }
  else if within d 15 16 then
    { (List.range 8).foldl (fun s q => s.setPort (8 * (d - 15) + q) portReset) s with stw := tput stwDflt s.stw (d - 15) [] }
  else s

def State.setClk (s : State) (k : Nat) (b : Bool) : State :=
  let m : BitVec 11 := (1 : BitVec 11) <<< k
  { s with pwr := { s.pwr with clk := if b then s.pwr.clk ||| m else s.pwr.clk &&& ~~~m } }

/-- PWR_DOMAIN_ON: the domain whose switch is closed becomes ready. -/
def pwrDomainOn (s : State) (d : Nat) : State :=
  if s.pwr.closing ≠ some d then s
  else
    let s := { s with pwr := { s.pwr with closing := none, on := s.pwr.on ||| ((1 : BitVec 20) <<< d) } }
    let s := match domClk d with | some k => s.setClk k true | none => s
    (((s.domReset d).pwrEvent 0).raise 0x0B01 0 (BitVec.ofNat 64 d) false).pickDomain

/-- The lane holds a seat of a contract in any state (R455, R465). -/
def State.inContract (s : State) (p : Nat) : Bool :=
  s.con.any (fun c => c.card.seats.any (fun r => decide (s.seatLane r.seat = some p)))

/-- Domain `d` may be off (R455). -/
def State.mayOff (s : State) (d : Nat) : Bool :=
  if within d 3 10 then
    let f := d - 3
    !(fieldLanes f).any s.inContract && !s.pair.copies.any (fun (c : Copy) => decide (fieldOf c.lane = f) || decide (fieldOf c.src = f))
  else if within d 11 14 then !s.chanUsed (d - 11)
  else if within d 15 16 then (List.range 8).all (fun q => decide ((s.port (8 * (d - 15) + q)).mode = 0))
  else false

/-- A domain is isolated and its switch opened. A channel without its circuits is absent (R460). -/
def State.domOff (s : State) (d : Nat) : State :=
  let s := { s with pwr := { s.pwr with on := s.pwr.on &&& ~~~((1 : BitVec 20) <<< d) } }
  let s := match domClk d with | some k => s.setClk k false | none => s
  ((s.domReset d).pwrEvent 0).raise 0x0B02 0 (BitVec.ofNat 64 d) false

/-- Step 4 of R29 for the power controller: requests off whose condition holds take effect, in ascending order (R458). -/
def State.powerGun (s : State) : State :=
  (List.range 20).foldl (fun s d =>
    if within d 3 16 && s.pwr.off.getLsbD d && s.pwr.on.getLsbD d && s.mayOff d then s.domOff d else s) s

/-! ### Device reset (R461, R465, R466) -/

def ResetCause.bit : ResetCause → Nat
  | .por => 0
  | .resetN => 1
  | .corePll => 2
  | .thermal => 3
  | .wdt => 4

/-- The seat map after a device reset: in ascending slot order the squad's reserve takes the first seat whose slot lane is
scratched; any other such seat holds no lane (R450). -/
def placeSeats (scratched : List Nat) : Tab (Option Nat) :=
  ((List.range 64).foldl (fun (t : Tab (Option Nat)) n =>
    ((List.range 16).foldl (fun (a : Tab (Option Nat) × Bool) i =>
      let p := 17 * n + i
      let seat := 16 * n + i
      if !scratched.contains p then a
      else if a.2 then (tput seatDflt a.1 seat (some (17 * n + 16)), false)
      else (tput seatDflt a.1 seat none, false)) (t, !scratched.contains (17 * n + 16))).1) [])

/-- What fuses, the secure area of D0 and the MRAM keep through a device reset. -/
def Sec.kept (c : Sec) : Sec :=
  { c with
    meas := [], bootFail := false, fallback := false, image := false, debugLeft := none, needId := false, up := false,
    pendTok := none }

/-- Only the secure bank of steward memory is left (R461 step 3). -/
def RodArr.onlyBank (a : RodArr) : RodArr :=
  let keep : Nat → Bool := fun r => within r bankRows (smRows - 1) ||
    (decide (smRows ≤ r) && (a.spare (r - smRows)).v && decide (bankRows ≤ (a.spare (r - smRows)).row))
  { a with cells := a.cells.filter (fun e => keep (e.1 / 36)), tags := a.tags.filter (fun e => keep e.1) }

/-- Every block of D1–D19 at its reset value. D0, the fuses and the MRAM stay, and with them the scratched marks, the heats
of the last refreshes and the remaps of every array (R450). Causes that overlap add up. -/
def deviceReset (s : State) (c : ResetCause) : State :=
  let bit : BitVec 5 := (1 : BitVec 5) <<< ResetCause.bit c
  let s0 := State.reset
  { s0 with
    mems := tmap lmemDflt (fun _ m => m.regReset) s.mems
    sm := { smReset with arr := s.sm.arr }
    qdr := tmap qdrDflt (fun _ q => { qdrReset with remap := q.remap, cells := q.cells }) s.qdr
    pair := { pairReset with
      scratched := s.pair.scratched, lastRefresh := s.pair.lastRefresh, seatMap := placeSeats s.pair.scratched }
    sec := s.sec.kept
    log := { logReset with mem := s.log.mem, boot := s.log.boot }
    pwr := { pwrReset with
      cause := (if s.pwr.inReset then s.pwr.cause else 0) ||| bit
      rtc := s.pwr.rtc, rtcHi := s.pwr.rtcHi, rtcAcc := s.pwr.rtcAcc, mainOn := s.pwr.mainOn, vbat := s.pwr.vbat }
    resp := s.resp, out := s.out, free := s.free, pending := s.pending }

/-- RESET_RELEASE: the power-up of R461. Lanes start with cycle 0; D11–D16 stay off. -/
def resetRelease (s : State) : State :=
  if !s.pwr.inReset then s
  else
    { s with
      mems := tmap lmemDflt (fun _ m => m.blank) s.mems
      sm := { s.sm with arr := s.sm.arr.onlyBank }
      pwr := { s.pwr with mainOn := true, inReset := false, clk := 0x703 } }

/-- MAIN_POWER_FAIL: power-on reset; D0 continues from VBAT, and without VBAT the secure bank is lost (R456, R462). -/
def mainPowerFail (s : State) : State :=
  let s := deviceReset s .por
  let s := { s with pwr := { s.pwr with mainOn := false } }
  if s.pwr.vbat then s else s.wipeBank

/-- VBAT_APPLICATION to a D0 that VBAT has not supplied before (R434, R463). -/
def vbatApplication (s : State) : State :=
  if s.pwr.vbat then s
  else { s with
    pwr := { s.pwr with vbat := true, rtc := 0, rtcHi := 0, rtcAcc := 0 }
    sec := { s.sec with tamper := 0, tamperCnt := 0 } }

/-! ### Clocks (R464) -/

def Clock.bit : Clock → Nat
  | .core => 0
  | .periph => 1
  | .qdr k => 2 + k % 4
  | .serdes g => 6 + g % 2
  | .pcie => 8
  | .refclk => 9
  | .pcieRef => 10

/-- Every port of group `g` that has lock loses it. -/
def State.groupDown (s : State) (g : Nat) : State :=
  (List.range 8).foldl (fun s q => if (s.port (8 * g + q)).lock then s.portDown (8 * g + q) else s) s

/-- CLK_FAIL of a clock that was within limits; the core PLL has a command of its own. -/
def clkFail (s : State) (c : Clock) : State :=
  let k := Clock.bit c
  if !s.pwr.clk.getLsbD k then s
  else
    let fail : State → State := fun s => ((s.setClk k false).pwrEvent 1).raise 0x0B03 0 (BitVec.ofNat 64 (2 ^ k)) false
    match c with
    | .core => s
    | .pcie => hostReset (s.setClk k false) .linkDown
    | .pcieRef => hostReset (s.setClk k false) .linkDown
    | .qdr n => (fail s).qFail (n % 4)
    | .serdes g => (fail s).groupDown (g % 2)
    | .periph => fail s
    | .refclk => fail s

/-- CLK_LOCK_RETURN of a clock whose domain is on. -/
def clkLockReturn (s : State) (c : Clock) : State :=
  let k := Clock.bit c
  let on := match c with
    | .core => false
    | .qdr n => s.domOn (11 + n % 4)
    | .serdes g => s.domOn (15 + g % 2)
    | _ => true
  if on then s.setClk k true else s

def corePllLockLoss (s : State) : State := deviceReset s .corePll

/-! ### Watchdogs (R467) -/

/-- A write of WDT_CFG: EN, which is set only once the firmware runs, and a PERIOD_US in its range. Setting EN starts every
watchdog. -/
def State.wdtCfg (s : State) (v : Word) : State :=
  let n := v.toNat % 1048576
  let en := v.getLsbD 31 && (s.sec.up || s.pwr.wdtEn)
  { s with pwr := { s.pwr with
      wdtEn := en, wdtPer := if within n 100 1000000 then n else s.pwr.wdtPer
      kick := if en && !s.pwr.wdtEn then (List.range 4).foldl (fun t i => putN t i s.now) [] else s.pwr.kick } }

/-- WDT_KICK by the steward whose number is written. -/
def wdtKick (s : State) (m : BitVec 11) (v : Word) : State :=
  let i := v.toNat % 4
  (if m.toNat = 0x400 + i then { s with pwr := { s.pwr with kick := putN s.pwr.kick i s.now } } else s).answer 0 0

/-- WDT_EXPIRED of steward `st`, whose period has passed. -/
def wdtExpired (s : State) (st : Nat) : State :=
  if 4 ≤ st ∨ s.pwr.wdtEn = false ∨ s.now < getN s.pwr.kick st + 1250 * s.pwr.wdtPer then s
  else
    let s := { s with pwr := { s.pwr with wdtExp := sat1 s.pwr.wdtExp, kick := putN s.pwr.kick st s.now } }
    let s := (s.pwrEvent 3).raise 0x0B05 0 (BitVec.ofNat 64 st) false
    if s.svcPair.contains (1088 + st) then
      if s.pair.stbyOk then { s with pair := { s.pair with takeover := true } } else deviceReset s .wdt
    else
      let s := s.resetPair s.stbyPair
      { s with pair := { s.pair with stbyOk := false, selfTest := true } }

/-! ### Temperature (R468) -/

/-- PWR_TJ_WARN: sensor `i` rises to WARN; once until every sensor has fallen 5 °C below it. -/
def pwrTjWarn (s : State) (i : Nat) (tj : BitVec 16) : State :=
  if 12 ≤ i ∨ s.pwr.warned = true ∨ tj.toInt < s.pwr.tjWarn.toInt then s
  else
    let s := { s with pwr := { s.pwr with warned := true, temp := tput tempDflt s.pwr.temp i tj } }
    (s.pwrEvent 2).raise 0x0B04 0 (BitVec.ofNat 64 (i + 65536 * tj.toNat)) false

def thermalTrip (s : State) (i : Nat) : State := if i < 12 then deviceReset s .thermal else s

/-! ### Lane and field resets (R465) -/

/-- A lane that a reset must not touch: it holds a seat of a contract and is neither held nor fenced. -/
def State.guarded (s : State) (p : Nat) : Bool :=
  s.inContract p && (s.lane p).mode != .held && (s.lane p).mode != .fenced

/-- A lane reset; a held lane stays held. -/
def State.pwrReset1 (s : State) (p : Nat) : State :=
  let held := (s.lane p).mode == .held
  let s := s.resetLane p
  if held then s.setLane p { s.lane p with mode := .held } else s

/-- PWR_LANE_RST. -/
def pwrLaneRst (s : State) (m : BitVec 11) (v : Word) : State :=
  let p := v.toNat % 2048
  (if !isStwMaster m || !v.getLsbD 31 || decide (1088 ≤ p) then s
  else if s.guarded p then s.pwrEvent 4
  else if !s.laneOn p then s
  else s.pwrReset1 p).answer 0 0

/-- PWR_FIELD_RST: lanes, routers and field mover of one field. -/
def pwrFieldRst (s : State) (m : BitVec 11) (v : Word) : State :=
  let f := v.toNat % 2048
  (if !isStwMaster m || !v.getLsbD 31 || decide (8 ≤ f) then s
  else if (fieldLanes f).any s.guarded then s.pwrEvent 4
  else if !s.domOn (3 + f) then s
  else ((fieldLanes f).foldl State.pwrReset1 (s.resetRouters f)).abortMaster (BitVec.ofNat 11 (0x410 + f))).answer 0 0

/-- A read of RTC_LO latches RTC_HI (R469). -/
def rtcLoRead (s : State) : State :=
  ({ s with pwr := { s.pwr with rtcHi := hiQ s.pwr.rtc } }).answer 0 (loQ s.pwr.rtc)

def execPwrReq (m : BitVec 11) (v : Word) (s : State) : Answer := .next (s.live (pwrReq s m v))
def execPwrDomainOn (d : Nat) (s : State) : Answer := .next (s.live (pwrDomainOn s d))
def execDeviceReset (c : ResetCause) (s : State) : Answer := .next (deviceReset s c)
def execResetRelease (s : State) : Answer := .next (resetRelease s)
def execMainPowerFail (s : State) : Answer := .next (mainPowerFail s)
def execVbatApplication (s : State) : Answer := .next (vbatApplication s)
def execClkFail (c : Clock) (s : State) : Answer := .next (s.live (clkFail s c))
def execClkLockReturn (c : Clock) (s : State) : Answer := .next (s.live (clkLockReturn s c))
def execCorePllLockLoss (s : State) : Answer := .next (s.live (corePllLockLoss s))
def execWdtKick (m : BitVec 11) (v : Word) (s : State) : Answer := .next (s.live (wdtKick s m v))
def execWdtExpired (st : Nat) (s : State) : Answer := .next (s.live (wdtExpired s st))
def execPwrTjWarn (sensor : Nat) (tj : BitVec 16) (s : State) : Answer := .next (s.live (pwrTjWarn s sensor tj))
def execThermalTrip (sensor : Nat) (s : State) : Answer := .next (s.live (thermalTrip s sensor))
def execPwrLaneRst (m : BitVec 11) (v : Word) (s : State) : Answer := .next (s.live (pwrLaneRst s m v))
def execPwrFieldRst (m : BitVec 11) (v : Word) (s : State) : Answer := .next (s.live (pwrFieldRst s m v))
def execRtcLoRead (_m : BitVec 11) (s : State) : Answer := .next (s.live (rtcLoRead s))

end Sys2Proof.Machine
end

