-- ==== Sys2Proof/Machine/RegWrite.lean ====
section
/-! DEFINITION. The target filter, reads of registers with their effects, and writes of every register block by the master that
owns it (R33, R34, R230, R231, R258, R281, R286, R301, R351, R355, R356, R392, R394, R415, R434, R453, R469, R477). -/

namespace Sys2Proof.Machine
open Sys2Proof

/-! ### The target filter (R286, R289) -/

def isMover (m : BitVec 11) : Bool := within m.toNat 0x410 0x417
def isLinkEngine (m : BitVec 11) : Bool := within m.toNat 0x418 0x41B

/-- Master `m` may reach target `t` at address `a`. -/
def State.admits (s : State) (m : BitVec 11) (t a : Nat) (write : Bool) : Bool :=
  if m.toNat < 0x400 then decide (t ≠ 22) && (decide (t ≠ 20) || !write)
  else if isStwMaster m then true
  else if isMover m then decide (t < 17) || decide (t = 22)
  else if isLinkEngine m then decide (t = 16)
  else if m = 0x420 then
    (decide (t = 19) && within a 0x50000000 0x50FFFFFF) || decide (t = 17) || decide (t = 16) || (decide (t = 20) && !write)
  else decide (m = 0x7FF) && s.debugOpen && (decide (t ≠ 20) || !write)

/-! ### Reads -/

/-- A read of a register, with the effect that some reads have (R34, R469, R477). -/
def State.regRead (s : State) (a : Nat) : Option Word × State :=
  if a = 0x50010010 then (some (loQ s.pacer.heatNum), heatNumLoRead s)
  else if a = 0x50010014 then (s.regWord a, { s with pacer := { s.pacer with hiLatch := none } })
  else if a = 0x50050060 then (some (loQ s.pwr.rtc), rtcLoRead s)
  else if a = 0x50060420 then (some ((s.per.rx.headD 0).zeroExtend 32), uartRxRead s)
  else (s.regWord a, s)

/-- The switched domain of a register block. -/
def regDom (a : Nat) : Option Nat :=
  match routerAt a with
  | some (r, _, _) => some (routerDom r)
  | none =>
    if within a 0x58000000 0x5810FFFF then some (3 + fieldOf ((a - 0x58000000) / 0x400))
    else if within a 0x58200000 0x5823FFFF then some (11 + (a - 0x58200000) / 0x10000)
    else if within a 0x5A000000 0x5A00FFFF then some (portDomain ((a - 0x5A000000) / 0x1000))
    else match slotAt a with
      | some (_, k, _) => some (portDomain k)
      | none => none

/-- The block of a register is in reset, since its domain is off. -/
def State.regOff (s : State) (a : Nat) : Bool := match regDom a with | some d => !s.domOn d | none => false

/-! ### Host interface (R355) -/

def hifWrite (s : State) (o : Nat) (v : Word) : State :=
  if o = 4 then
    { s with hif := { s.hif with
      resetSeen := s.hif.resetSeen && !v.getLsbD 3, refused := s.hif.refused && !v.getLsbD 2, dberr := s.hif.dberr && !v.getLsbD 1 } }
  else if within o 0x100 0x17F then
    let q := (o - 0x100) / 0x20
    match o % 0x20 with
    | 0x00 => s.baseWrite q false v
    | 0x04 => s.baseWrite q true v
    | 0x08 => s.cfgWrite q v
    | 0x0C => s.baseWrite (4 + q) false v
    | 0x10 => s.baseWrite (4 + q) true v
    | 0x14 => s.cfgWrite (4 + q) v
    | _ => s
  else match o with
    | 0x200 => s.baseWrite 8 false v
    | 0x204 => s.baseWrite 8 true v
    | 0x208 => s.cfgWrite 8 v
    | _ => s

/-! ### Pacer (R33, R34) -/

def State.setPend (s : State) (f : PacerPend → PacerPend) : State :=
  { s with pacer := { s.pacer with pend := f s.pacer.pend } }

/-- A write of CTRL: SRC waits for APPLY, SRC 3 is ignored, then REPHASE and RUN. -/
def State.pacerCtrlWrite (s : State) (v : Word) : State :=
  let src := v.extractLsb' 2 2
  let s := if src = 3 then s.pRefuse
    else s.setPend (fun q => { q with src := if src = s.pacer.src then none else some src })
  s.pacerCtrl v

def tickMerge (old v : Word) : Word :=
  (if v.extractLsb' 24 2 = 3 then old &&& 0x03000000 else v &&& 0x03000000)
    ||| (if v.extractLsb' 16 6 = 0 then old &&& 0x003F0000 else v &&& 0x003F0000) ||| (v &&& 0xFFFF)
def ptpMerge (old v : Word) : Word := (v &&& 0xFF0F) ||| (if v.extractLsb' 4 4 = 0 then old &&& 0xF0 else v &&& 0xF0)

/-- A write of a pacer register by the steward firmware. -/
def pacerWrite (s : State) (o : Nat) (v : Word) : State :=
  let p := s.pacer
  let sec := p.pend.epochSec.getD p.epochSec
  match o with
  | 0x00 => s.pacerCtrlWrite v
  | 0x08 =>
    let n := v.toNat % 16777216
    if heatLenOk n then s.setPend (fun q => { q with heatLen := some n }) else s.pRefuse
  | 0x20 =>
    (if tickCfgOk v then s else s.pRefuse).setPend (fun q => { q with tick := some (tickMerge (q.tick.getD p.tickCfg) v) })
  | 0x24 =>
    (if ptpCfgOk v then s else s.pRefuse).setPend (fun q => { q with ptp := some (ptpMerge (q.ptp.getD p.ptpCfg) v) })
  | 0x28 => s.setPend (fun q => { q with epochSec := some (sec.extractLsb' 32 16 ++ v) })
  | 0x2C => s.setPend (fun q => { q with epochSec := some (v.extractLsb' 0 16 ++ sec.extractLsb' 0 32) })
  | 0x30 =>
    if v.toNat % 1073741824 ≤ 999999999 then s.setPend (fun q => { q with epochNs := some (v.extractLsb' 0 30) }) else s.pRefuse
  | 0x34 =>
    let n := v.toNat % 512
    if within n 1 256 then { s with pacer := { p with flyLimit := n } } else s.pRefuse
  | 0x40 => { s with pacer := { p with applyLo := v } }
  | 0x44 => applyHiWrite s 0x404 v
  | 0x48 => { s with pacer := { p with events := w1c p.events 0x3FF v } }
  | _ => s

/-! ### Security, photo-finish, power (R434, R453, R469) -/

def secWrite (s : State) (m : BitVec 11) (o : Nat) (v : Word) : State :=
  match o with
  | 0x04 => { s with sec := { s.sec with tamper := w1c s.sec.tamper 0x3F v } }
  | 0x10 => secExtend s m v
  | _ => s

def pfWrite (s : State) (o : Nat) (v : Word) : State :=
  let x := s.snap
  match o with
  | 0x00 => { s with snap := { x with arm := v &&& 0x01FF0006 } }
  | 0x04 =>
    let s := if v.getLsbD 1 then s.pfRelease else s
    if v.getLsbD 0 then s.pfTrigger 3 0 none else s
  | 0x0C => { s with snap := { x with progCyc := v.extractLsb' 0 24 } }
  | 0x10 => { s with snap := { x with progHeat := hiQ x.progHeat ++ v } }
  | 0x14 => { s with snap := { x with progHeat := v ++ loQ x.progHeat } }
  | 0x40 =>
    let n := v.extractLsb' 0 16
    { s with log := { s.log with
      holdS := v.extractLsb' 16 16, periodMs := if within n.toNat 100 10000 then n else s.log.periodMs } }
  | _ => s

/-- A write of a power register other than PWR_REQ by the steward firmware. -/
def pwrWrite (s : State) (m : BitVec 11) (o : Nat) (v : Word) : State :=
  match o with
  | 0x08 => { s with pwr := { s.pwr with events := w1c s.pwr.events 0x1F v } }
  | 0x14 => s.wdtCfg v
  | 0x18 => wdtKick s m v
  | 0x20 => pwrLaneRst s m v
  | 0x24 => pwrFieldRst s m v
  | 0x28 => { s with pwr := { s.pwr with tjWarn := v.extractLsb' 0 16 } }
  | _ => s

/-! ### Peripherals (R477) -/

/-- Pins that master `m` holds as plain GPIO. -/
def State.ownPins (s : State) (m : BitVec 11) : Word :=
  (List.range 32).foldl (fun a n => if (s.claim n).via = n ∧ s.mayWrite m n = true then a ||| fw 1 n else a) 0

/-- A write of GPIO_DIR or GPIO_OUT reaches the pins that the writer holds. -/
def State.gpioWrite (s : State) (m : BitVec 11) (dir : Bool) (v : Word) : State :=
  let k := s.ownPins m
  if k = 0 then s.perRefuse
  else if dir then { s with per := { s.per with dir := (s.per.dir &&& ~~~k) ||| (v &&& k) } }
  else { s with per := { s.per with out := (s.per.out &&& ~~~k) ||| (v &&& k) } }

/-- A write of a timer's register. DESIGN CHOICE (log 76): TMR_CFG [27:0], reserved and typed RW, read back as written. -/
def tmrWrite (s : State) (m : BitVec 11) (k o : Nat) (v : Word) : State :=
  let t := s.tmr k
  if !s.mayWrite m (0x28 + k) then s.perRefuse
  else match o with
    | 0 => s.setTmr k { t with en := v.getLsbD 31, mode := v.extractLsb' 29 2, gunsync := v.getLsbD 28, rsv := v.extractLsb' 0 28 }
    | 4 => s.setTmr k { t with cmp := v }
    | _ => s

def perWrite (s : State) (m : BitVec 11) (o : Nat) (v : Word) : State :=
  let x := s.per
  if within o 0x440 0x47F then tmrWrite s m ((o - 0x440) / 16) (o % 16) v
  else if within o 0x480 0x4BF then
    if s.mayWrite m 0x40 then { s with per := { x with rail := putW x.rail ((o - 0x480) / 4) v } } else s.perRefuse
  else match o with
    | 0x400 => { s with per := { x with refused := x.refused && !v.getLsbD 0 } }
    | 0x410 => s.gpioWrite m true v
    | 0x414 => s.gpioWrite m false v
    | 0x420 => uartTxWrite s m v
    | 0x424 =>
      if s.mayWrite m 0x20 then
        { s with per := { x with
          txovf := x.txovf && !v.getLsbD 2, overrun := x.overrun && !v.getLsbD 1, framing := x.framing && !v.getLsbD 0 } }
      else s.perRefuse
    | 0x430 => i2c1Xfer s m v
    | 0x434 =>
      if s.mayWrite m 0x21 then
        { s with per := { x with i2cArb := x.i2cArb && !v.getLsbD 1, i2cNack := x.i2cNack && !v.getLsbD 0 } }
      else s.perRefuse
    | _ => s.perRefuse

/-! ### Memory blocks (R258) -/

def memWrite (s : State) (m : BitVec 11) (p o : Nat) (v : Word) : State :=
  let x := s.lmem p
  match o with
  | 0x00 => s.setLmem p { x with
      exhaust := x.exhaust && !v.getLsbD 3, marked := x.marked && !v.getLsbD 2, ue := x.ue && !v.getLsbD 1, ce := x.ce && !v.getLsbD 0 }
  | 0x04 => s.setLmem p { x with remapAuto := v.getLsbD 1, scrubEn := v.getLsbD 0 }
  | 0x08 => memCmd s m p v
  | 0x30 => s.setLmem p { x with lastErr := w1c x.lastErr 0x80000000 v }
  | _ => s

def smWriteReg (s : State) (o : Nat) (v : Word) : State :=
  if o = 0 then
    { s with sm := { s.sm with busy := s.sm.busy && !v.getLsbD 2, ue := s.sm.ue && !v.getLsbD 1, ce := s.sm.ce && !v.getLsbD 0 } }
  else s

/-! ### Routers (R230, R231) -/

/-- The bits of an entry of output `n` that are not reserved (R219). -/
def entryMask : RouterId → Nat → BitVec 16
  | .squad _, n => if n ≤ 16 then 0xFF9F else 0x801F
  | .field _, _ => 0x803F
  | .ring _, _ => 0x8001

/-- Two entries of a bank; their reserved bits stay 0 (R8, R219). -/
def putHalf (m : BitVec 16) (t : Tab (BitVec 16)) (o : Nat) (v : Word) : Tab (BitVec 16) :=
  tput ent16 (tput ent16 t (o / 2) (v.extractLsb' 0 16 &&& m)) (o / 2 + 1) (v.extractLsb' 16 16 &&& m)

/-- One word of a phase directory. DESIGN CHOICE (log 76): its reserved bits, typed RW, read back as written. -/
def putDir (t : Tab (BitVec 64)) (o : Nat) (v : Word) : Tab (BitVec 64) :=
  let e := tget ent64 t (o / 8)
  tput ent64 t (o / 8) (if o % 8 = 0 then hiQ e ++ v else v ++ loQ e)

/-- The offset lies in the active bank or its directory. -/
def ROut.isActive (x : ROut) (o : Nat) : Bool :=
  if o < 0x1000 then !x.bank else if o < 0x2000 then x.bank else if o < 0x2040 then !x.bank
  else if o < 0x2080 then x.bank else false

/-- A write of an OWNER field takes effect at once; an owner that the firmware has scheduled for a switch stays so. -/
def ownerWrite (v : Word) (owner new : BitVec 16) : BitVec 16 × BitVec 16 :=
  let w := v.extractLsb' 16 16
  (w, if new = owner then w else new)

def ROut.write (x : ROut) (m : BitVec 16) (o : Nat) (v : Word) : ROut :=
  if x.isActive o then { x with refused := true }
  else if o < 0x1000 then { x with bank0 := putHalf m x.bank0 o v }
  else if o < 0x2000 then { x with bank1 := putHalf m x.bank1 (o - 0x1000) v }
  else if o < 0x2040 then { x with dir0 := putDir x.dir0 (o - 0x2000) v }
  else if o < 0x2080 then { x with dir1 := putDir x.dir1 (o - 0x2040) v }
  else if o = 0x2080 then
    let w := ownerWrite v x.owner x.newOwner
    { x with owner := w.1, newOwner := w.2, refused := x.refused && !v.getLsbD 2, arm := v.getLsbD 1 }
  else x

def routerWrite (s : State) (stw : Bool) (r : RouterId) (o cnt : Nat) (v : Word) : State :=
  if cnt ≤ o ∨ nOuts r ≤ o / 0x4000 then s
  else
    let x := s.rout r (o / 0x4000)
    s.setRout r (o / 0x4000) (if stw then x.write (entryMask r (o / 0x4000)) (o % 0x4000) v else { x with refused := true })

/-! ### QDR, streams, multicast (R281) -/

def put128 (t : Tab (BitVec 128)) (o : Nat) (v : Word) : Tab (BitVec 128) :=
  let k := 8 * (o % 16)
  tput descDflt t (o / 16) ((tget descDflt t (o / 16) &&& ~~~((0xFFFFFFFF : BitVec 128) <<< k)) ||| (v.zeroExtend 128 <<< k))

def qdrWrite (s : State) (m : BitVec 11) (k o : Nat) (v : Word) : State :=
  let q := s.qch k
  match o with
  | 0x00 => s.setQch k { q with
      failUe := v.extractLsb' 24 8
      zq := if 8 ≤ (v.extractLsb' 20 4).toNat then v.extractLsb' 20 4 else q.zq
      retrain := if 8 ≤ (v.extractLsb' 16 4).toNat then v.extractLsb' 16 4 else q.retrain
      freq := v.extractLsb' 8 2, dens := v.getLsbD 4, scrubEn := v.getLsbD 2, remapAuto := v.getLsbD 1, present := v.getLsbD 0 }
  | 0x04 =>
    let s := if v.getLsbD 1 then qdrCtrlFail s m k else s
    if v.getLsbD 0 then qdrInit s m k else s
  | 0x0C => s.setQch k { q with events := w1c q.events 0x7F v }
  | 0x24 => s.setQch k { q with lastErr := w1c q.lastErr 0x80000000 v }
  | _ => s

def Engine.write (g : Engine) (o : Nat) (v : Word) : Engine :=
  if o < 0x1000 then (if g.bank then { g with bank0 := put128 g.bank0 o v } else { g with refused := true })
  else if o < 0x2000 then (if g.bank then { g with refused := true } else { g with bank1 := put128 g.bank1 (o - 0x1000) v })
  else match o with
    | 0x2000 =>
      let w := ownerWrite v g.owner g.newOwner
      { g with owner := w.1, newOwner := w.2, refused := g.refused && !v.getLsbD 2, arm := v.getLsbD 1 }
    | 0x2004 => { g with baddesc := g.baddesc && !v.getLsbD 16 }
    | _ => g

def Mcast.write (g : Mcast) (o : Nat) (v : Word) : Mcast :=
  if o < 0x1000 then (if g.bank then { g with bank0 := put128 g.bank0 o v } else { g with refused := true })
  else if o < 0x2000 then (if g.bank then { g with refused := true } else { g with bank1 := put128 g.bank1 (o - 0x1000) v })
  else if o = 0x2000 then { g with refused := g.refused && !v.getLsbD 2, arm := v.getLsbD 1 }
  else g

/-! ### Ports and engine slots (R351) -/

def portWrite (s : State) (k o : Nat) (v : Word) : State :=
  let t := s.port k
  match o with
  | 0x00 =>
    let m := v.extractLsb' 0 3
    let u := if m ≠ 0 ∧ s.domOn (portDomain k) = false then t else t.setMode m
    s.setPort k { u with vid := v.extractLsb' 8 12, vlan := v.getLsbD 7 }
  | 0x08 => s.setPort k { t with macLo := v }
  | 0x0C => s.setPort k { t with macHi := v.extractLsb' 0 16 }
  | 0x10 => s.setPort k { t with ip := v }
  | 0x14 => s.setPort k { t with ctrlUdp := v.extractLsb' 0 16 }
  | 0x18 => s.setPort k { t with tsCorr := v }
  | 0x20 => s.setPort k { t with kcfg := v }
  | 0x28 => s.setPort k { t with events := w1c t.events 0x1F v }
  | _ => s

def Pctrl.write (c : Pctrl) (v : Word) : Pctrl :=
  let w := ownerWrite v c.owner c.newOwner
  { c with owner := w.1, newOwner := w.2, refused := c.refused && !v.getLsbD 2, arm := v.getLsbD 1 }
def Pctrl.refuse (c : Pctrl) : Pctrl := { c with refused := true }

/-- A write of one half of a slot: control, bank 0, bank 1. -/
def slotWrite (x : Pctrl × Mem × Mem) (o : Nat) (v : Word) : Pctrl × Mem × Mem :=
  if o < 0x900 then (if x.1.bank then (x.1, mwrite x.2.1 o (leW v), x.2.2) else (x.1.refuse, x.2))
  else if within o 0x1000 0x18FF then
    (if x.1.bank then (x.1.refuse, x.2) else (x.1, x.2.1, mwrite x.2.2 (o - 0x1000) (leW v)))
  else if o = 0x2000 then (x.1.write v, x.2)
  else x

def slotWriteAt (s : State) (stw inp : Bool) (k o : Nat) (v : Word) : State :=
  let t := s.port k
  let x := if inp then (t.ig, t.in0, t.in1) else (t.eg, t.out0, t.out1)
  let y := if stw then slotWrite x o v else (x.1.refuse, x.2)
  s.setPort k (if inp then { t with ig := y.1, in0 := y.2.1, in1 := y.2.2 } else { t with eg := y.1, out0 := y.2.1, out1 := y.2.2 })

/-! ### Fabric registers (R301) -/

/-- FAB_WAIT_MAX_CLEAR. -/
def fabWaitMaxClear (s : State) (m : BitVec 11) (t : Nat) : State :=
  (if isStwMaster m && decide (t < 23) then
    { s with fab := { s.fab with grants := putN s.fab.grants t 0, rounds := tput ent16 s.fab.rounds t 0 } }
  else s).answer 0 0

def fabWrite (s : State) (m : BitVec 11) (o : Nat) (v : Word) : State :=
  let f := s.fab
  if within o 0x100 0x15B then fabWaitMaxClear s m ((o - 0x100) / 4)
  else match o with
    | 0x00 => { s with fab := { f with
        abort := f.abort && !v.getLsbD 3, hopcrc := f.hopcrc && !v.getLsbD 2, hdr := f.hdr && !v.getLsbD 1, err := f.err && !v.getLsbD 0 } }
    | 0x18 => { s with fab := { f with lastErr := w1c f.lastErr 0x80000000 v } }
    | _ => s

/-! ### Mailbox block (R392, R394) -/

/-- Register offsets of a channel that its sender, its receiver and any steward may read. -/
def mbxOpen (o : Nat) : Bool :=
  decide (o = 0x040) || decide (o = 0x048) || decide (o = 0x04C) || decide (o = 0x050) || decide (o = 0x054) || decide (o = 0x058)

/-- A read of a word of the mailbox block; the answer stands in `resp`. -/
def mbxRead (s : State) (m : BitVec 11) (c o : Nat) (be : BitVec 4) : State :=
  let ch := s.chan c
  if o < 0x40 then fabricDataRead s m c (o / 4) be
  else if mbxOpen o && (isStwMaster m || (ch.bindV && (s.masterIs m ch.sender.toNat || s.masterIs m ch.receiver.toNat))) then
    s.answer 0 ((s.chanWord c o).getD 0)
  else if o = 0x3FC then s.answer 0 ((s.chanWord c o).getD 0)
  else s.answer 2 0

def mbxWrite (s : State) (m : BitVec 11) (c o : Nat) (be : BitVec 4) (v : Word) : State :=
  if o < 0x40 then fabricDataWrite s m c (o / 4) be v
  else if o = 0x044 then fabricGo s m c be v
  else if o = 0x04C then bindOp s m c v
  else if o = 0x3FC then mbxLockOp s m v
  else s.answer 2 0

/-! ### A write of a register -/

/-- Master `m` writes the register word at aligned address `a`, outside the mailbox block: `v` is the word with the bytes that
the write does not enable as the register shows them, `w` the word with those bytes 0. -/
def State.regPut (s : State) (m : BitVec 11) (a : Nat) (v w : Word) : State :=
  let stw := isStwMaster m
  if within a 0x50000000 0x5000FFFF then (if m = 0x420 then hifWrite s (a - 0x50000000) (if a % 0x10000 = 4 then w else v) else s)
  else if within a 0x50010000 0x5001FFFF then
    (if stw then pacerWrite s (a - 0x50010000) (if a % 0x10000 = 0x48 then w else v) else s.pRefuse)
  else if within a 0x50020000 0x5002FFFF then s
  else if within a 0x50030000 0x5003FFFF then (if stw then secWrite s m (a - 0x50030000) w else s)
  else if within a 0x50040000 0x5004FFFF then (if stw then pfWrite s (a - 0x50040000) v else s)
  else if within a 0x50050000 0x5005FFFF then
    if a = 0x50050004 then pwrReq s m v
    else if stw then pwrWrite s m (a - 0x50050000) (if a = 0x50050008 then w else v) else s
  else if within a 0x50060000 0x5006FFFF then
    perWrite s m (a - 0x50060000) (if a = 0x50060400 ∨ a = 0x50060424 ∨ a = 0x50060434 then w else v)
  else match routerAt a with
  | some (r, o, cnt) => routerWrite s stw r o cnt (if o % 0x4000 = 0x2080 then (v &&& 0xFFFFFFFB) ||| (w &&& 4) else v)
  | none =>
    if within a 0x58000000 0x5810FFFF then
      (if stw then memWrite s m ((a - 0x58000000) / 0x400) (a % 0x400) (if a % 0x400 = 4 then v else w) else s)
    else if within a 0x58120000 0x5812FFFF then (if stw then smWriteReg s (a - 0x58120000) w else s)
    else if within a 0x58200000 0x5823FFFF then
      let k := (a - 0x58200000) / 0x10000
      (if stw then qdrWrite s m k (a % 0x10000) (if a % 0x10000 = 0 then v else w) else s.setQch k ((s.qch k).event 6))
    else if within a 0x58400000 0x5847FFFF then
      let e := (a - 0x58400000) / 0x10000
      let x := if a % 0x10000 = 0x2004 then w else if a % 0x10000 = 0x2000 then (v &&& 0xFFFFFFFB) ||| (w &&& 4) else v
      s.setEngine e (if stw then (s.engine e).write (a % 0x10000) x else { s.engine e with refused := true })
    else if within a 0x58480000 0x5848FFFF then
      let x := if a % 0x10000 = 0x2000 then (v &&& 0xFFFFFFFB) ||| (w &&& 4) else v
      { s with mc := if stw then s.mc.write (a - 0x58480000) x else { s.mc with refused := true } }
    else if within a 0x58500000 0x5850FFFF then (if stw then fabWrite s m (a - 0x58500000) w else s)
    else if within a 0x5A000000 0x5A00FFFF then
      (if stw then portWrite s ((a - 0x5A000000) / 0x1000) (a % 0x1000) (if a % 0x1000 = 0x28 then w else v) else s)
    else match slotAt a with
    | some (inp, k, o) => slotWriteAt s stw inp k o (if o = 0x2000 then (v &&& 0xFFFFFFFB) ||| (w &&& 4) else v)
    | none => s

/-- A register stands at `a`. -/
def State.isReg (s : State) (a : Nat) : Bool := (s.regWord a).isSome || decide (a = 0x50060420)

/-- A write of bytes `be` of the word at `a` by master `m` that the filter has admitted: the response code and the state. -/
def State.regWrite (s : State) (m : BitVec 11) (a : Nat) (be : BitVec 4) (v : Word) : BitVec 2 × State :=
  if !s.isReg a then (2, s)
  else if s.regOff a then (3, s)
  else
    let k : Word := (List.range 4).foldl (fun x i => if be.getLsbD i then x ||| (0xFF <<< (8 * i)) else x) 0
    (0, s.regPut m a (((s.regWord a).getD 0 &&& ~~~k) ||| (v &&& k)) (v &&& k))

/-! ### BAR2 (R356) -/

/-- A host write at an offset of BAR2; the mailbox window reaches channels 32–63. -/
def bar2Write (s : State) (o : Nat) (v : Word) : State :=
  if o < 0x20 then (if o % 8 = 0 then sqTail s (o / 8) v else cqHead s (o / 8) v).answer 0 0
  else if o = 0x40 then (evtHead s v).answer 0 0
  else if o = 0x48 then (telemHead s v).answer 0 0
  else if within o 0x1000 0x13FF then (s.msixWrite ((o - 0x1000) / 16) (o % 16 / 4) v).answer 0 0
  else if within o 0x8000 0xFFFF then mbxWrite s 0x420 (32 + (o - 0x8000) / 0x400) (o % 0x400) 0xF v
  else s.answer 2 0

/-- What a BAR2 word below the mailbox window reads: the doorbells' last values, the MSI-X table and its pending bits. -/
def State.bar2Word (s : State) (o : Nat) : Option Word :=
  if o < 0x20 then some ((if o % 8 = 0 then s.sqRing (o / 8) else s.cqRing (o / 8)).bell)
  else if o = 0x40 then some s.hif.evt.bell
  else if o = 0x48 then some s.hif.tel.bell
  else if within o 0x1000 0x13FF then
    let x := tget msixDflt s.hif.msix ((o - 0x1000) / 16)
    some (if o % 16 = 0 then loQ x.addr else if o % 16 = 4 then hiQ x.addr else if o % 16 = 8 then x.data else b2n x.mask 0)
  else if o = 0x1800 ∨ o = 0x1804 then
    some ((List.range 32).foldl (fun (w : Word) i =>
      if (tget msixDflt s.hif.msix (8 * (o - 0x1800) + i)).pend then w ||| ((1 : Word) <<< i) else w) 0)
  else none

/-- The PCI Express engine reports an Unsupported Request of the host's write (R354, R376). -/
def State.advise (s : State) (m : BitVec 11) (code : BitVec 2) : State :=
  if m = 0x420 ∧ code = 2 then { s with hif := { s.hif with advisory := true } } else s

/-- A write of word `v` at address `a` of target `t` (R286, R287, R300). -/
def State.targetWrite (s : State) (m : BitVec 11) (n : Nat) (v : Word) : Option Nat → State
  | none => s.answer 2 0
  | some t =>
    if n % 4 ≠ 0 || !s.admits m t n true || (decide (t = 19) && !s.pwr.clk.getLsbD 1) then s.answer 2 0
    else if t = 17 then mbxWrite s m ((n - 0x48000000) / 0x400) (n % 0x400) 0xF v
    else
      let x := s.regWrite m n 0xF v
      x.2.answer x.1 0

/-- A write of master `m`: an address of the host below 0x1_0000 is an offset of BAR2. -/
def State.writeAt (s : State) (m : BitVec 11) (n : Nat) (v : Word) : State :=
  if m = 0x420 ∧ n < 0x10000 then
    if n % 4 ≠ 0 then s.answer 2 0
    else if n < 0x8000 then bar2Write s n v
    else (bar2Write s n v).reported m 17 (0x48000000 + n)
  else (s.targetWrite m n v (targetOf n)).reported m ((targetOf n).getD 31) n

/-- REGISTER_WRITE: master `m` writes word `v` at address `a`. A write that finds no register, or that the target filter
refuses, answers ERR; what the fabric answers is reported (R301), and the engine reports ERR of the host's write (R354). After
a fatal error the engine waits for a host reset (R376). -/
def registerWrite (s : State) (m : BitVec 11) (a v : Word) : State :=
  if m = 0x420 ∧ s.hif.fatal then s
  else
    let s := s.writeAt m a.toNat v
    s.advise m s.resp.code

def execFabWaitMaxClear (m : BitVec 11) (t : Nat) (s : State) : Answer := .next (s.live (fabWaitMaxClear s m t))
def execRegisterWrite (m : BitVec 11) (a v : Word) (s : State) : Answer := .next (s.live (registerWrite s m a v))

end Sys2Proof.Machine
end

