-- ==== Sys2Proof/Machine/Fabric.lean ====
section
/-! DEFINITION. The best-effort plane of the fabric: requests, arbitration, the targets, responses and the peripheral bridge
(R287–R300). -/

namespace Sys2Proof.Machine
open Sys2Proof

/-! ### Requests (R290, R294) -/

/-- The rods of a request: (address, length) from `a` on, `n` bytes. -/
def cutRods : Nat → Nat → Nat → List (Nat × Nat)
  | 0, _, _ => []
  | fuel + 1, a, n =>
    if n = 0 then []
    else
      let k := min n (32 - a % 32)
      (a, k) :: cutRods fuel (a + k) (n - k)

/-- The request obeys R290, and R295 for the peripheral bridge. -/
def reqOk (r : FabReq) : Bool :=
  let a := r.addr.toNat
  within r.len 1 4096 && decide (a / 4096 = (a + r.len - 1) / 4096)
    && (!r.write || decide (r.data.length = r.len))
    && (decide (targetOf a ≠ some 19) || (decide (r.len = 4) && decide (a % 4 = 0)))

/-- The data of a write that an ingest engine sends to steward memory: the next bytes of its oldest waiting frame, which leaves
its place with its last byte. DESIGN CHOICE (log 81): R329 gives neither the addresses nor the form. -/
def State.stwData (s : State) (r : FabReq) : FabReq × State :=
  let e := r.master.toNat - 0x418
  if within r.master.toNat 0x418 0x419 && r.write && decide (targetOf r.addr.toNat = some 16) then
    match tget stwDflt s.stw e with
    | [] => (r, s)
    | f :: l =>
      let rest := f.left.drop r.len
      ({ r with data := (f.left ++ r.data.drop f.left.length).take r.len },
       { s with stw := tput stwDflt s.stw e (if rest.isEmpty then l else { f with left := rest } :: l) })
  else (r, s)

/-- The request as the fabric carries it: the host's mailbox window in BAR2 is the channels from 32 on (R356). -/
def inWindow (q : FabReq) : FabReq :=
  if q.master = 0x420 ∧ within q.addr.toNat 0x8000 0xFFFF then { q with addr := q.addr + 0x48000000 } else q

/-- A host access that the PCI Express engine itself refuses (R354). -/
def State.hostRefused (s : State) (write : Bool) : State :=
  if write then s.advise 0x420 2 else s.emit (.completion true false [])

/-- A host access to BAR2 below the mailbox window: words, and pairs of words in the MSI-X table (R356). -/
def State.bar2Access (s : State) (q : FabReq) : State :=
  let o := q.addr.toNat
  let os := if q.len = 4 then [o] else [o, o + 4]
  let fits := (decide (q.len = 4) || (decide (q.len = 8) && within o 0x1000 0x13FC && decide (o % 8 = 0))) && decide (o % 4 = 0)
    && os.all (fun x => (s.bar2Word x).isSome)
  if q.write then
    if fits then
      let s := os.zipIdx.foldl (fun s x => bar2Write s x.1 (leWordAt q.data (4 * x.2))) s
      s.advise 0x420 s.resp.code
    else s.hostRefused true
  else if fits then s.emit (.completion false false (os.flatMap (fun x => leW ((s.bar2Word x).getD 0))))
  else s.hostRefused false

/-- A fabric request: its rods join those of its master. One that breaks R290 or whose header fails its parity
answers ERR for every rod. A write of an ingest engine to steward memory carries what comes next of its oldest steward frame
(R329). -/
def State.fabRequest (s : State) (q : FabReq) : State :=
  let s := if q.hdrOk then s
    else { s with fab := { s.fab with hdr := true, hdrCnt := sat1 s.fab.hdrCnt } }
  let bad := !(q.hdrOk && reqOk q)
  let x := if bad then (q, s) else s.stwData q
  let r := x.1
  let s := x.2
  let parts := cutRods (r.len / 32 + 2) r.addr.toNat r.len
  let rods := parts.zipIdx.map (fun q =>
    ({ id := s.fab.nextId + q.2, master := r.master, target := (targetOf q.1.1).getD 31, addr := q.1.1, len := q.1.2,
       write := r.write, data := if r.write then (r.data.drop (q.1.1 - r.addr.toNat)).take q.1.2 else [], waited := 0,
       bad := bad, drop := false } : FRod))
  s.fabSubmit rods

/-- FABRIC_REQUEST. An address of the host below 0x1_0000 is an offset of BAR2; its accesses to registers and mailboxes are
single words, and after a fatal error the engine waits for a host reset (R354, R356, R376). -/
def fabricRequest (s : State) (q : FabReq) : State :=
  if q.master = 0x420 ∧ s.hif.fatal then s
  else if q.master = 0x420 ∧ q.addr.toNat < 0x8000 then s.bar2Access q
  else
    let r := inWindow q
    if r.master = 0x420 ∧ (targetOf r.addr.toNat = some 17 ∨ targetOf r.addr.toNat = some 19)
        ∧ (r.len ≠ 4 ∨ r.addr.toNat % 4 ≠ 0) then s.hostRefused r.write
    else s.fabRequest r

/-! ### Arbitration (R296) -/

/-- One arbiter with inputs of the given weights: the input it grants, and its pointer and credit afterwards. `credit` 0
stands for a credit that is not loaded yet, c + 1 for a credit of c. -/
def arbStep (w : List Nat) : Nat → Nat → Nat → Option Nat × Nat × Nat
  | 0, p, c => (none, p, c)
  | fuel + 1, p, c =>
    let c := if c = 0 then w.getD p 0 + 1 else c
    if 1 < c ∧ 0 < w.getD p 0 then (some p, p, c - 1)
    else
      let q := (p + 1) % w.length
      arbStep w fuel q (w.getD q 0 + 1)

def State.arbitrate (s : State) (key : Nat) (w : List Nat) : Option Nat × State :=
  let x := arbStep w (w.length + 1) (getN s.fab.ptr key % w.length) (getN s.fab.credit key)
  (x.1, { s with fab := { s.fab with ptr := putN s.fab.ptr key x.2.1, credit := putN s.fab.credit key x.2.2 } })

def countIn (l : List Nat) (lo n : Nat) : Nat := (l.filter (fun x => within x lo (lo + n - 1))).length

/-- The leaf that the tree of target `t` grants among the eligible leaves `l`. -/
def State.grantLeaf (s : State) (t : Nat) (l : List Nat) : Option Nat × State :=
  let group : Nat → Nat → State → Option Nat × State := fun a lo s =>
    let n := if a = 1 ∨ a = 3 then 4 else if a = 2 then 8 else 2
    let x := s.arbitrate (arbKey t a) ((List.range n).map (fun i => countIn l (lo + i) 1))
    (x.1.map (fun i => lo + i), x.2)
  let root := s.arbitrate (arbKey t 0) [countIn l 0 4, countIn l 4 8, countIn l 12 4, countIn l 16 2, countIn l 18 1024]
  match root.1 with
  | some 0 => group 1 0 root.2
  | some 1 => group 2 4 root.2
  | some 2 => group 3 12 root.2
  | some 3 => group 4 16 root.2
  | some _ =>
    let f := root.2.arbitrate (arbKey t 5) ((List.range 8).map (fun i => countIn l (18 + 128 * i) 128))
    match f.1 with
    | none => (none, f.2)
    | some i =>
      let q := f.2.arbitrate (arbKey t (6 + i)) ((List.range 8).map (fun j => countIn l (18 + 128 * i + 16 * j) 16))
      match q.1 with
      | none => (none, q.2)
      | some j =>
        let b := 18 + 128 * i + 16 * j
        let x := q.2.arbitrate (arbKey t (14 + 8 * i + j)) ((List.range 16).map (fun k => countIn l (b + k) 1))
        (x.1.map (fun k => b + k), x.2)
  | none => (none, root.2)

/-! ### Targets -/

/-- Data of a read that answers ERR or POISON. -/
def FRod.zeros (r : FRod) : List Byte := if r.write then [] else List.replicate r.len 0

/-- The lane and sharing port of a rod of targets 8–15 and 22, and its rod there; none where R287–R289 answer ERR. -/
def State.windowAt (s : State) (a : Nat) : Option (Nat × Nat × Nat) :=
  let on : Nat → Nat → Nat → Option (Nat × Nat × Nat) := fun p k r => if s.laneOn p then some (p, k, r) else none
  if within a 0x10000000 0x13FFFFFF then
    match s.seatLane ((a - 0x10000000) / 0x10000) with
    | some p => on p (a % 0x10000 / 32 % 2) (a % 0x10000 / 32)
    | none => none
  else if within a 0x5C000000 0x5D0FFFFF then on ((a - 0x5C000000) / 0x4000) 2 (a % 0x4000 / 32)
  else
    let p := 17 * ((a - 0x5E000000) / 0x10000) + 16
    if s.holdsSeat p then none else on p (a % 0x10000 / 32 % 2) (a % 0x10000 / 32)

/-- The bytes a rod writes, in place in its 32 bytes. -/
def FRod.placed (r : FRod) : List Byte × List Bool := spread (r.addr % 32) r.data
def FRod.rod (r : FRod) : Rod := bytesRod r.placed.1
def FRod.mask (r : FRod) : BitVec 32 := byteMask (r.addr % 32) r.len

/-- A rod of a QDR channel through port A (R263, R271, R273). -/
def State.qdrRod (s : State) (r : FRod) (poison : Bool) : State :=
  let k := r.target / 2
  let i := (r.addr - 0x20000000) % 0x08000000 / 32
  let q := s.qch k
  if q.state = 0 ∨ q.limit ≤ i then s.fabAnswer r.id 2 r.zeros
  else if q.state ≠ 2 then s.fabAnswer r.id 3 r.zeros
  else if !r.write then
    let x := s.qRead k (s.qclock k s.now) i false 1 (some r.id)
    if x.1.2 then x.2.fabAnswer r.id 3 r.zeros else x.2.fabAnswer r.id 0 ((x.1.1.drop (r.addr % 32)).take r.len)
  else if r.len = 32 then (s.qWrite k (s.qclock k s.now) i false r.data poison none).fabAnswer r.id 0 []
  else
    let c := s.qclock k s.now
    let x := s.qRead k c i false 1 (some r.id)
    if x.1.2 then x.2.fabAnswer r.id 3 []
    else (x.2.qWrite k (c + 2) i false (mergeBytes x.1.1 r.placed.1 r.placed.2) poison (some c)).fabAnswer r.id 0 []

/-- A rod of steward memory through port B (R251, R253). -/
def State.smRod (s : State) (r : FRod) (poison : Bool) : State :=
  if 0x400F0000 ≤ r.addr then
    ({ s with sm := { s.sm with secRef := sat1 s.sm.secRef } }).fabAnswer r.id 2 r.zeros
  else if collides s.sm.lastA s.now ((r.addr - 0x40000000) / 32) r.write then
    { s with sm := { s.sm.refuse true with
        retry := s.sm.retry ++ [{ portA := false, addr := r.addr, write := r.write, data := r.data,
                                  be := List.replicate r.len true, who := r.id, poison := poison, at_ := s.now }] } }
  else
    let u : SmUndo :=
      { req := { portA := false, addr := r.addr, write := r.write, data := r.data, be := List.replicate r.len true, who := r.id,
                 poison := poison, at_ := s.now }
        rod := r, arr := s.sm.arr }
    let s := s.portBDo r.id r.addr r.write r.data r.len poison 0
    { s with sm := { s.sm with undoB := some u } }

/-- The words that a rod touches: address, byte enables, and the word written. -/
def FRod.words (r : FRod) : List (Nat × BitVec 4 × Word) :=
  let b := r.placed
  ((List.range 8).map (fun i =>
    (r.addr / 32 * 32 + 4 * i,
     (List.range 4).foldl (fun (x : BitVec 4) j => if (FRod.mask r).getLsbD (4 * i + j) then x ||| ((1 : BitVec 4) <<< j) else x) 0,
     leWordAt b.1 (4 * i)))).filter (fun q => decide (q.2.1 ≠ 0))

/-- One word of the mailbox block or of a register block: response code, data, state. -/
def State.wordAccess (s : State) (m : BitVec 11) (write : Bool) (a : Nat) (be : BitVec 4) (v : Word) : BitVec 2 × Word × State :=
  if within a 0x48000000 0x4800FFFF then
    let c := (a - 0x48000000) / 0x400
    let x := if write then mbxWrite s m c (a % 0x400) be v else mbxRead s m c (a % 0x400) be
    (x.resp.code, x.resp.data, x)
  else if write then
    let x := s.regWrite m a be v
    (x.1, 0, x.2)
  else if !s.isReg a then (2, 0, s)
  else if s.regOff a then (3, 0, s)
  else
    let x := s.regRead a
    (0, x.1.getD 0, x.2)

/-- The words of a rod in ascending order; the worst code, ERR before POISON, and the bytes read. -/
def State.wordsAccess (s : State) (m : BitVec 11) (write : Bool) : List (Nat × BitVec 4 × Word) → BitVec 2 × List Byte × State
  | [] => (0, [], s)
  | q :: r =>
    let x := s.wordAccess m write q.1 q.2.1 q.2.2
    let y := x.2.2.wordsAccess m write r
    (if x.1 = 2 ∨ y.1 = 2 then 2 else if x.1 = 3 ∨ y.1 = 3 then 3 else 0, leW x.2.1 ++ y.2.1, y.2.2)

/-- A rod of words: when one of them is refused, nothing is performed. -/
def State.wordRod (s : State) (r : FRod) (poison : Bool) : State :=
  let x := s.wordsAccess r.master r.write r.words
  if r.write && poison then s.fabAnswer r.id 3 []
  else if x.1 = 2 then s.fabAnswer r.id 2 r.zeros
  else if x.1 = 3 then s.fabAnswer r.id 3 r.zeros
  else x.2.2.fabAnswer r.id 0 (if r.write then [] else (x.2.1.drop (r.addr % 4)).take r.len)

/-- A rod that its target has accepted stands in the bridge while it is performed. Only the security block writes the
lifecycle record: another write there answers ERR (R417; DESIGN CHOICE, log 86). -/
def State.perform (s : State) (r : FRod) (poison : Bool) : State :=
  let s := { s with fab := { s.fab with
    reqs := s.fab.reqs.filter (fun (x : FRod) => decide (x.id ≠ r.id)), bridge := s.fab.bridge ++ [r] } }
  let err : State := s.fabAnswer r.id 2 r.zeros
  let t := r.target
  if r.bad || !s.admits r.master t r.addr r.write then err
  else if t < 8 then s.qdrRod r poison
  else if t < 16 ∨ t = 22 then
    match s.windowAt r.addr with
    | none => err
    | some (p, k, i) =>
      s.shAdd p k { cls := 5, rod := i, deadline := none, fab := some r.id,
                    kind := if r.write then .write r.rod r.mask none poison else .readFab r.id }
  else if t = 16 then s.smRod r poison
  else if t = 17 ∨ t = 18 then s.wordRod r poison
  else if t = 19 then (if s.pwr.clk.getLsbD 1 then (if poison then s.fabAnswer r.id 3 r.zeros else s) else err)
  else if t = 20 then
    if r.write then
      if 0x603FC000 ≤ r.addr then err
      else if poison then s.fabAnswer r.id 3 [] else
      ({ s with log := { s.log with mem := mwrite s.log.mem (r.addr - 0x60000000) r.data } }).fabAnswer r.id 0 []
    else s.fabAnswer r.id 0 (s.logRead (r.addr - 0x60000000) r.len)
  else if r.write then err
  else s.fabAnswer r.id 0 ((List.range r.len).map (fun i =>
    byteAt (leW (Config.bootRom ((r.addr - 0xF0000000 + i) / 4))) ((r.addr + i) % 4)))

/-- The target can accept rod `r` in this cycle: a free port of its memory (R249, R251, R264). -/
def State.accepts (s : State) (r : FRod) : Bool :=
  let t := r.target
  if r.bad || !s.admits r.master t r.addr r.write then true
  else if t < 8 then
    let q := s.qch (t / 2)
    decide (q.state ≠ 2)
      || s.qFree (t / 2) (q.phys ((r.addr - 0x20000000) % 0x08000000 / 32)) (r.write && decide (r.len ≠ 32))
  else if t < 16 ∨ t = 22 then
    match s.windowAt r.addr with
    | none => true
    | some (p, k, _) => ((s.lmem p).sp k).room r.write
  else if t = 16 then
    s.sm.retry.all (fun q => q.portA) && !usedAt s.sm.lastB s.now && !s.sm.scrubNow s.now
  else true

/-- Every other waiting leaf has seen one more grant. -/
def Fab.waitMore (f : Fab) (t id : Nat) : Fab :=
  let ids := ((f.heads t).map (fun r => r.id)).filter (fun i => decide (i ≠ id))
  { f with reqs := f.reqs.map (fun (r : FRod) => if ids.contains r.id then { r with waited := r.waited + 1 } else r) }

/-- A write's rod with the bytes that have arrived. -/
def FRod.with (r : FRod) (d : Rod) : FRod :=
  if r.write then { r with data := ((rodBytes d).drop (r.addr % 32)).take r.data.length } else r

/-- A granted rod reaches its target, which checks its header and the hop CRC of a write (R294). -/
def State.deliver (s : State) (r : FRod) (e : RodErr) : State :=
  if e.hdr then
    { s with fab := { s.fab with hdr := true, hdrCnt := sat1 s.fab.hdrCnt } }.perform { r with bad := true } false
  else
    let x := hopPass r.rod e.hop
    if r.write && x.2 then s.hopFail.perform r true else s.perform (r.with x.1) false

/-- FABRIC_GRANT: the tree of target `t` grants the next rod of an eligible leaf, when the target can accept it. `err` is what
the rod undergoes on its way (R294). -/
def fabricGrant (s : State) (t : Nat) (err : RodErr) : State :=
  let asking := s.fab.asking t
  if asking.isEmpty || decide (23 ≤ t) then s
  else
    let round := (s.fab.eligible t).isEmpty
    let s1 := if round then
        { s with fab := { s.fab with
          served := tput servedDflt s.fab.served t [], rounds := tput ent16 s.fab.rounds t (tget ent16 s.fab.rounds t + 1) } }
      else s
    let g := s1.grantLeaf t (s1.fab.eligible t)
    match g.1.bind (fun leaf => (s.fab.heads t).find? (fun r => decide (leafOf r.master = some leaf))) with
    | none => s
    | some r =>
      if !s.accepts r then s
      else
        let s := g.2
        let f := s.fab.waitMore t r.id
        let leaf := (leafOf r.master).getD 0
        let s := { s with fab := { f with
          served := tput servedDflt f.served t (leaf :: tget servedDflt f.served t)
          grants := putN f.grants t (max (getN f.grants t) r.waited) } }
        s.deliver r err

/-! ### Responses (R292, R293, R300) -/

/-- The host's access is answered on its link: a completion to a read, and an ERR to a write is reported (R354). Its own DMA
reaches other targets. -/
def State.hostAnswer (s : State) (r : FResp) (code : BitVec 2) (data : List Byte) : State :=
  if r.master ≠ 0x420 ∨ (r.target ≠ 17 ∧ r.target ≠ 19) then s
  else if r.write then s.advise 0x420 code
  else s.emit (.completion (decide (code = 2)) (decide (code = 3)) (if code = 2 then [] else data))

/-- FABRIC_RESPONSE: the oldest response of master `m` reaches its port; `e` has come over the data of a read (R294). -/
def fabricResponse (s : State) (m : BitVec 11) (e : HopErr) : State :=
  match s.fab.resps.find? (fun r => decide (r.master = m)) with
  | none => s
  | some r =>
    let x := hopPass (bytesRod (spread (r.addr % 32) r.data).1) e
    let lost := !r.write && decide (r.code ≠ 2) && x.2
    let data := if lost then r.data.map (fun _ => 0)
      else if r.write || decide (r.code = 2) then r.data else ((rodBytes x.1).drop (r.addr % 32)).take r.data.length
    let code : BitVec 2 := if lost then 3 else r.code
    let f := s.fab
    let f := { f with resps := f.resps.filter (fun (x : FResp) => decide (x.id ≠ r.id)) }
    let f := if lost then { f with hopcrc := true, hopCnt := sat1 f.hopCnt } else f
    let f := f.report r.master r.target r.addr code
    ({ s with fab := { f with done := f.done ++ [{ r with code := code, data := data }] } }).hostAnswer r code data

/-! ### The peripheral bridge (R295) -/

/-- PERIPH_BUS_ACCESS: the oldest rod in the bridge is performed, or answered with ERR while the peripheral PLL is out of lock
(R464). -/
def periphBusAccess (s : State) : State :=
  match s.fab.bridge.find? (fun r => decide (r.target = 19)) with
  | none => s
  | some r => if s.pwr.clk.getLsbD 1 then s.wordRod r false else s.fabAnswer r.id 2 r.zeros

def execFabricRequest (r : FabReq) (s : State) : Answer := .next (s.live (fabricRequest s r))
def execFabricGrant (t : Nat) (err : RodErr) (s : State) : Answer := .next (s.live (fabricGrant s t err))
def execFabricResponse (m : BitVec 11) (hop : HopErr) (s : State) : Answer := .next (s.live (fabricResponse s m hop))
def execPeriphBusAccess (s : State) : Answer := .next (s.live (periphBusAccess s))

end Sys2Proof.Machine
end

