-- ==== Sys2Proof/Machine/Fpu.lean ====
section
/-! DEFINITION. The floating-point commands (R100–R110). -/

namespace Sys2Proof.Machine
open Sys2Proof

def execFpuAdd (p : Nat) (t : Word) (s : State) : Answer := .next (s.live (trigger s p 0x4A t))
def execFpuMul (p : Nat) (t : Word) (s : State) : Answer := .next (s.live (trigger s p 0x4B t))
def execFpuFma (p : Nat) (t : Word) (s : State) : Answer := .next (s.live (trigger s p 0x4C t))
def execFpuCvt (p : Nat) (t : Word) (s : State) : Answer := .next (s.live (trigger s p 0x4D t))
def execFpuCmp (p : Nat) (t : Word) (s : State) : Answer := .next (s.live (trigger s p 0x4E t))

end Sys2Proof.Machine
end

