-- ==== Sys2Proof/Machine/Gun.lean ====
section
/-! DEFINITION. The gun: the six steps of R29, with what the other chapters tie to them (R30, R61, R156–R163, R204). -/

namespace Sys2Proof.Machine
open Sys2Proof

/-! ### What ends with the heat -/

/-- The gun's sample point of every contract in effect, unless COMPARE_POINT has taken it (R160, R398). -/
def State.gunSamples (s : State) : State := s.con.foldl (fun s c => s.samplePoint c.handle 10 (s.heatN + 1)) s

/-- The lanes of the seats of contracts in effect, with contract and seat. -/
def State.seatLanes (s : State) : List (Contract × SeatRec × Nat) :=
  (s.con.filter Contract.running).flatMap (fun c => c.card.seats.filterMap (fun r => (s.seatLane r.seat).map (fun p => (c, r, p))))

/-- How much of its working part a seat used, in 1/1024, at most 1024 (R368, R448). -/
def State.usage (s : State) (p : Nat) : Nat :=
  let l := s.lane p
  if l.mode == .wait then min 1024 ((l.ctl.stallUntil - s.pacer.gunAt) * 1024 / (s.L - s.D)) else 1024

/-- The largest usage of the heat that ends, for telemetry and the lifetime log. -/
def State.noteUsage (s : State) : State :=
  if !s.pacer.open_ then s
  else
    let m := s.seatLanes.foldl (fun m x =>
      if (s.lane x.2.2).mode == .held || (s.lane x.2.2).mode == .fenced then m else max m (s.usage x.2.2)) 0
    { s with
      log := { s.log with utilMax := max s.log.utilMax m }
      hif := { s.hif with telem := { s.hif.telem with utilMax := max s.hif.telem.utilMax m } } }

/-- A lane at the gun: its reservation clears, its signature is latched and starts anew, the samples of the heat clear, and
its receive queue is emptied (R29, R159, R160, R224). `own` says that it holds a seat of a contract in effect: its flag has
been sampled there. -/
def Lane.gun (l : Lane) (own : Bool) : Lane :=
  { l with
    lsu := { l.lsu with rsv := none }
    spl := { l.spl with
      lastSig := l.spl.sig, sig := 0xFFFFFFFF, sampleK := 0, sampleE := false
      sampleGun := if own then l.spl.sampleGun else l.spl.flag
      flag := if own then l.spl.flag else l.spl.flag && l.mode == .fenced }
    rly := { l.rly with gundrop := l.rly.gundrop || !l.rly.rx.isEmpty, rx := [] } }

/-- Every lane is brought to the current cycle of the heat that ends. -/
def State.settleLanes (s : State) : State := (s.lanes.map Prod.fst).foldl (fun s p => s.settle p) s

def State.gunLanes (s : State) : State :=
  (s.lanes.map Prod.fst).foldl (fun s p =>
    let s := s.settle p
    s.setLane p ((s.lane p).gun (s.seatOf p).isSome)) s

/-! ### Steps 2 and 3 -/

/-- Trap `n` at the gun: a trap entry in progress is completed first; the answer of a remote access in progress is
discarded. -/
def State.gunTrap (s : State) (p n : Nat) : State :=
  let s := s.entryFinish p
  let l := s.lane p
  if l.mode == .fenced then s
  else
    let l := { l with mode := .run, lsu := { l.lsu with remote := none }, ctl := { l.ctl with after := none } }
    let r := l.retPoint
    s.setLane p ((l.raiseTrap ⟨n, 0, 0, 0⟩ r.1 r.2 s.now).armTrap s.now s.heatW 0)

/-- The seat enters a new contract at the current gun (R30). -/
def State.entering (s : State) (seat : Nat) : Bool :=
  s.con.any (fun c => c.state == .scheduled && decide (c.startGun = s.heatN) && c.card.owns seat)

/-- A seat overruns the heat that has ended: recorded against its contract, which is broken, and trap 10 or 11 (R29, R30). -/
def State.overrun (s : State) (h seat p : Nat) : State :=
  let w := (s.lane p).mode == .mbxWait
  match s.contract h with
  | none => s
  | some c =>
    let s := (s.setContract { c with overruns := sat1 c.overruns }).tally 14
    let s := s.markBroken h (if w then 2 else 1) seat (s.heatN + 1)
    if s.entering seat then s else s.gunTrap p (if w then 10 else 11)

/-- Step 2: every seat of a contract in effect that does not wait in `spl.wait`, and whose lane is neither held nor
fenced. -/
def State.overruns (s : State) : State :=
  s.seatLanes.foldl (fun s x =>
    let m := (s.lane x.2.2).mode
    if m == .wait || m == .held || m == .fenced then s else s.overrun x.1.handle x.2.1.seat x.2.2) s

/-- Step 3: every `mbx.wait` still pending ends with trap 10. -/
def State.mbxWaitsEnd (s : State) : State :=
  (s.lanes.map Prod.fst).foldl (fun s p => if (s.lane p).mode == .mbxWait then s.gunTrap p 10 else s) s

/-! ### Step 4 -/

/-- The lane is of a broken contract: what is scheduled for it waits for the withdrawal. -/
def State.brokenLane (s : State) (p : Nat) : Bool :=
  match s.seatOf p with | some (c, _) => c.state == .broken | none => false

/-- One scheduled action on a lane (R29, R401, R402). -/
def State.doAct (s : State) (a : Act) : State :=
  if s.pair.scratched.contains a.lane then s
  else match s.seatOf a.lane with
    | none => if a.kind = .scratch then s.scratchIdle a.lane a.cause else s
    | some (c, _) =>
      if c.card.paired then s.actOn { a with handle := c.handle }
      else if a.kind = .scratch then
        { s with pair := { s.pair with deferred := s.pair.deferred ++ [(c.handle, a.lane, a.cause)] } }
      else s

/-- Insert by ascending lane. -/
def insAct (a : Act) : List Act → List Act
  | [] => [a]
  | b :: r => if b.lane ≤ a.lane then b :: insAct a r else a :: b :: r

/-- The action would reseat a seat of a contract that was swapped in at the current gun: it waits for the next one (R229).
DEDUCED (log 78): of the two the reseat is the later, since a swap is scheduled four guns ahead (R322) and a reseat one. -/
def State.afterSwap (s : State) (a : Act) : Bool :=
  (match s.seatOf a.lane with | some (c, _) => decide (c.swapped = s.heatN + 1) | none => false)
    && decide (s.resolve a.lane s.heatN a.kind = .scratch)

/-- Scratching and reseats scheduled for the current gun, in ascending lane order. -/
def State.dueActs (s : State) : State :=
  let s := { s with pair := { s.pair with
    acts := s.pair.acts.map (fun (a : Act) => if decide (a.gun ≤ s.heatN) && s.afterSwap a then { a with gun := s.heatN + 1 } else a) } }
  let due : Act → Bool := fun a => decide (a.gun ≤ s.heatN) && !s.brokenLane a.lane
  let l := (s.pair.acts.filter due).foldl (fun l a => insAct a l) []
  let s := { s with pair := { s.pair with acts := s.pair.acts.filter (fun a => !due a) } }
  l.foldl State.doAct s

/-! ### Steps 5 and 6 -/

/-- A waiting lane resumes after `spl.wait`: its next instruction is transported at gun + 2 lc, and no interrupt is taken
before it (R31, R61, R204). -/
def Lane.startHeat (l : Lane) (now : Nat) : Lane :=
  if l.mode == .wait then
    { l with
      mode := .run
      ctl := { l.ctl with
        ready := now + 2, restart := true, exact := true, bnd := none, stallUntil := 0, fetched := [], fetchRods := [] } }
  else l

def State.startHeats (s : State) : State :=
  { s with lanes := tmap laneReset (fun _ l => l.startHeat s.now) s.lanes }

/-- Trap 36 of each steward lane. -/
def State.gunInts (s : State) : State := (((s.pendInt 1088 4).pendInt 1089 4).pendInt 1090 4).pendInt 1091 4

/-- What the blocks outside the lanes do at the gun (R267, R273, R405, R429, R480). -/
def State.gunBlocks (s : State) : State :=
  { s with
    qdr := tmap qdrDflt (fun k q => q.gun k s.heatN) s.qdr
    pair := { s.pair with moved := [] }
    per := { s.per with
      tickDone := false, tmr := tmap tmrDflt (fun _ (t : Tmr) => if t.gunsync then { t with cnt := 0 } else t) s.per.tmr }
    sec := { s.sec with debugLeft := s.sec.debugLeft.map (fun n => n - 1) } }

/-- A new heat's comparisons start; those of the heat that ended stay for results with E ≥ L (R399). -/
def State.newSelections (s : State) : State :=
  { s with con := s.con.map (fun (c : Contract) => { c with selPrev := c.sel, sel := [], sampled := [] }) }

/-- The largest phase error since the last telemetry record (R368). -/
def State.notePhase (s : State) : State :=
  { s with hif := { s.hif with telem := { s.hif.telem with phaseMax := max s.hif.telem.phaseMax s.pacer.phaseErr.natAbs } } }

/-- GUN: the gun that is due in the current cycle (R29). -/
def gun (s : State) : State :=
  if !s.pacer.gunDue s.now then s
  else
    let s := s.settleLanes.noteUsage.pacerGun.notePhase.gunSamples.newSelections
    let s := s.gunLanes.overruns.mbxWaitsEnd
    let s := s.withdrawals.activations.bankSwitch.dueActs.restartSweeps.resumeGroups.channelActs.prepare.clearDue.passService.powerGun
    s.startHeats.gunBlocks.gunInts

def execGun (s : State) : Answer := .next (s.live (gun s))

end Sys2Proof.Machine
end

