-- ==== Sys2Proof/Machine/Lsu.lean ====
section
/-! DEFINITION. The load and store commands (R124–R149). -/

namespace Sys2Proof.Machine
open Sys2Proof

def execLsuLd (p : Nat) (t : Word) (s : State) : Answer := .next (s.live (trigger s p 0x5C t))
def execLsuSt (p : Nat) (t : Word) (s : State) : Answer := .next (s.live (trigger s p 0x5D t))
def execLsuLr (p : Nat) (t : Word) (s : State) : Answer := .next (s.live (trigger s p 0x5E t))
def execLsuSc (p : Nat) (t : Word) (s : State) : Answer := .next (s.live (trigger s p 0x5F t))
def execLsuLdc (p : Nat) (t : Word) (s : State) : Answer := .next (s.live (trigger s p 0x60 t))
def execLsuStc (p : Nat) (t : Word) (s : State) : Answer := .next (s.live (trigger s p 0x61 t))
def execLsuFence (p : Nat) (t : Word) (s : State) : Answer := .next (s.live (trigger s p 0x62 t))

end Sys2Proof.Machine
end

