-- ==== Sys2Proof/Machine/Mac.lean ====
section
/-! DEFINITION. The MAC commands (R111–R119). -/

namespace Sys2Proof.Machine
open Sys2Proof

def execMacF (p : Nat) (k : BitVec 2) (t : Word) (s : State) : Answer := .next (s.live (trigger s p (0x52 + k.toNat) t))
def execMacClr (p : Nat) (t : Word) (s : State) : Answer := .next (s.live (trigger s p 0x56 t))
def execMacSet (p : Nat) (t : Word) (s : State) : Answer := .next (s.live (trigger s p 0x57 t))

end Sys2Proof.Machine
end

