-- ==== Sys2Proof/Machine/MbxRows.lean ====
section
/-! DEFINITION. The mailbox commands (R377–R394). -/

namespace Sys2Proof.Machine
open Sys2Proof

/-- A read of `mbx.rd` by lane `p` (R174, R382, R383). -/
def mbxRdRead (s : State) (p : Nat) : State :=
  let s := s.settle p
  let l := s.lane p
  if l.stopped then s
  else if !l.fcap.perm permMBX then s.instrTrap p permTrap l.ctl.pc
  else (mbxRdEffect s p).answer 0 (mbxRd s p)

/-- MBX_WAIT_END: the wait of lane `p` ends in the cycle in which its view shows FULL (R387). There is a boundary after it,
except between a taken transfer and its delay slot (R60). -/
def mbxWaitEnd (s : State) (p : Nat) : State :=
  let s := s.settle p
  let l := s.lane p
  if l.mode == .mbxWait && (s.chan (chanNo l)).rFull then
    s.setLane p
      { l with
        mode := l.ctl.after.getD .run
        ctl := { l.ctl with
          stallUntil := max l.ctl.stallUntil (s.now + 1), after := none
          bnd := if l.ctl.xfer.isSome || l.ctl.after.isSome then none else some (s.now + 1) } }
  else s

def execMbxWr (p : Nat) (v : Word) (s : State) : Answer := .next (s.live (trigger s p 0x7B v))
def execMbxGo (p : Nat) (v : Word) (s : State) : Answer := .next (s.live (trigger s p 0x7C v))
def execMbxWait (p : Nat) (v : Word) (s : State) : Answer := .next (s.live (trigger s p 0x7D v))
def execMbxRdRead (p : Nat) (s : State) : Answer := .next (s.live (mbxRdRead s p))
/-- Every write and GO of channel `c` whose 24 lc have passed reaches the block, in transport order (R385). -/
def execMbxPostArrive (c : Nat) (s : State) : Answer := .next (s.live (s.takePath c MKind.isPost))
/-- A release of channel `c` reaches the block, and then the sender's view (R386). -/
def execMbxReleaseArrive (c : Nat) (s : State) : Answer := .next (s.live (s.takePath c (fun k => !k.isPost)))
def execMbxWaitEnd (p : Nat) (s : State) : Answer := .next (s.live (mbxWaitEnd s p))
def execMbxFabricGo (m : BitVec 11) (c : Nat) (be : BitVec 4) (v : Word) (s : State) : Answer := .next (s.live ((fabricGo s m c be v).reported m 17 (0x48000044 + 0x400 * c)))
def execMbxFabricRead (m : BitVec 11) (c w : Nat) (be : BitVec 4) (s : State) : Answer := .next (s.live ((fabricDataRead s m c w be).reported m 17 (0x48000000 + 0x400 * c + 4 * w)))
def execBind (m : BitVec 11) (c : Nat) (v : Word) (s : State) : Answer := .next (s.live ((bindOp s m c v).reported m 17 (0x4800004C + 0x400 * c)))
def execMbxLock (m : BitVec 11) (v : Word) (s : State) : Answer := .next (s.live ((mbxLockOp s m v).reported m 17 0x480003FC))

end Sys2Proof.Machine
end

