-- ==== Sys2Proof/Machine/MemRows.lean ====
section
/-! DEFINITION. The memory commands: scrub, MEM_CMD, sharing ports and steward memory (R243–R252). -/

namespace Sys2Proof.Machine
open Sys2Proof

def execScrubVisit (p : Nat) (hard0 hard1 hardIs : Bool) (s : State) : Answer := .next (s.live (scrubVisit s p hard0 hard1 hardIs))
def execMemCmd (m : BitVec 11) (p : Nat) (v : Word) (s : State) : Answer := .next (s.live (memCmd s m p v))
def execSharerAccess (p : Nat) (arr : SharePort) (s : State) : Answer := .next (s.live (sharerAccess s p arr))
def execSmBusyRetry (s : State) : Answer := .next (s.live (smBusyRetry s))
def execSmScrub (hard : Bool) (s : State) : Answer := .next (s.live (smScrub s hard))

end Sys2Proof.Machine
end

