-- ==== Sys2Proof/Machine/Mul.lean ====
section
/-! DEFINITION. The multiplier commands (R98). -/

namespace Sys2Proof.Machine
open Sys2Proof

def execMulMul (p : Nat) (t : Word) (s : State) : Answer := .next (s.live (trigger s p 0x41 t))
def execMulMulu (p : Nat) (t : Word) (s : State) : Answer := .next (s.live (trigger s p 0x42 t))
def execMulMulsu (p : Nat) (t : Word) (s : State) : Answer := .next (s.live (trigger s p 0x43 t))

end Sys2Proof.Machine
end

