-- ==== Sys2Proof/Machine/RelayRows.lean ====
section
/-! DEFINITION. The relay commands (R212–R232). -/

namespace Sys2Proof.Machine
open Sys2Proof

/-- A read of the receive-queue head by lane `p` (R223, R174). -/
def rxRead (s : State) (p : Nat) : State :=
  let s := s.settle p
  let l := s.lane p
  if l.stopped then s
  else if !l.fcap.perm permRLY then s.instrTrap p permTrap l.ctl.pc
  else (s.setLane p l.rxPop).answer 0 (rxHead l)

/-- A write of 1 to RLY_CTRL.FLUSH by lane `p`: the queue empties at the end of the cycle (R66, R224). -/
def rlyFlush (s : State) (p : Nat) (v : Word) : State :=
  let s := s.settle p
  let l := s.lane p
  if l.stopped then s
  else if !l.fcap.perm permSYS then s.instrTrap p permTrap l.ctl.pc
  else s.setLane p (l.sysLater s.now 0xC1 v)

def execRlySend (p : Nat) (v : Word) (s : State) : Answer := .next (s.live (trigger s p 0x78 v))
def execRelayHop (r : RouterId) (input : HopIn) (s : State) : Answer := .next (s.live (relayHop s r input))
def execRelayArrival (p : Nat) (s : State) : Answer := .next (s.live (relayArrival s p))
def execRlyRxRead (p : Nat) (s : State) : Answer := .next (s.live (rxRead s p))
def execRlyFlush (p : Nat) (v : Word) (s : State) : Answer := .next (s.live (rlyFlush s p v))

end Sys2Proof.Machine
end

