-- ==== Sys2Proof/Machine/Spl.lean ====
section
/-! DEFINITION. The split commands: `spl.wait`, `spl.chk`, `spl.cmp`, the compare timer and a late seat (R156–R160). -/

namespace Sys2Proof.Machine
open Sys2Proof

/-- The compare timer of lane `p` compares in the current cycle and meets its cycle (R158). -/
def timerMeets (s : State) (l : Lane) : Bool :=
  l.spl.tmrArm && s.pacer.open_ && decide (s.cyc = l.spl.tmrCyc.toNat) && decide (s.pacer.elapsed < s.L)
    && decide (l.spl.tmrFrom ≤ s.now)

/-- SPL_TIMER_FIRE: interrupt 34 becomes pending; a timer that is not periodic disarms (R158). -/
def splTimerFire (s : State) (p : Nat) : State :=
  let s := s.settle p
  let l := s.lane p
  if timerMeets s l then
    (s.setLane p { l with spl := { l.spl with tmrArm := l.spl.tmrPer, tmrFrom := s.now + 1 } }).pendInt p 2
  else s

/-- The seat of lane `p` is late: it belongs to a running contract, has not entered `spl.wait` by the cool-down, and is
neither held nor fenced (R157). -/
def lateNow (s : State) (p : Nat) : Bool :=
  let l := s.lane p
  s.cooling && (s.seatOf p).isSome && (l.mode == .run || l.mode == .mbxWait || l.mode == .remote)
    && decide (l.spl.lateAt ≠ s.pacer.heatNum.toNat + 1)

/-- SPL_LATE: SPL_STATUS.LATE is set, the event goes to the steward firmware and the contract is marked broken with cause 3
(R157). -/
def splLate (s : State) (p : Nat) : State :=
  let s := s.settle p
  if lateNow s p then
    let l := s.lane p
    let s := s.setLane p { l with spl := { l.spl with late := true, lateAt := s.pacer.heatNum.toNat + 1 } }
    match s.seatOf p with
    | some (c, r) =>
      (s.raise 0x0207 (srcW 2 r.seat) 0).markBroken c.handle 3 r.seat (s.pacer.heatNum.toNat + 1)
    | none => s
  else s

def execSplWait (p : Nat) (t : Word) (s : State) : Answer := .next (s.live (trigger s p 0x68 t))
def execSplChk (p : Nat) (t : Word) (s : State) : Answer := .next (s.live (trigger s p 0x69 t))
def execSplCmp (p : Nat) (t : Word) (s : State) : Answer := .next (s.live (trigger s p 0x6A t))
def execSplTimerFire (p : Nat) (s : State) : Answer := .next (s.live (splTimerFire s p))
def execSplLate (p : Nat) (s : State) : Answer := .next (s.live (splLate s p))

end Sys2Proof.Machine
end

