-- ==== Sys2Proof/Machine/SysRow.lean ====
section
/-! DEFINITION. The command `sys.wr` (R65, R66, R71). -/

namespace Sys2Proof.Machine
open Sys2Proof

def execSysWr (p : Nat) (v : Word) (s : State) : Answer := .next (s.live (trigger s p 0x7F v))

end Sys2Proof.Machine
end

