-- ==== Sys2Proof/Machine/TrapRows.lean ====
section
/-! DEFINITION. The trap commands `trap.t` and `trap.ret` (R187, R190). -/

namespace Sys2Proof.Machine
open Sys2Proof

def execTrapT (p : Nat) (t : Word) (s : State) : Answer := .next (s.live (trigger s p 0x70 t))
def execTrapRet (p : Nat) (t : Word) (s : State) : Answer := .next (s.live (trigger s p 0x71 t))

end Sys2Proof.Machine
end

