-- ==== Sys2Proof/Machine/Dispatch.lean ====
section
/-! DEFINITION. One arm per command, each one direct call of its meaning. -/

namespace Sys2Proof.Machine
open Sys2Proof

def exec (i : Instr) (s : State) : Host.Outcome State Fault Refusal :=
  match i with
  | .gun => Sys2Proof.Machine.execGun s
  | .tickEdge b frac => Sys2Proof.Machine.execTickEdge b frac s
  | .ptpSync sec ns => Sys2Proof.Machine.execPtpSync sec ns s
  | .pacerPtpLost why => Sys2Proof.Machine.execPacerPtpLost why s
  | .pacerLocked => Sys2Proof.Machine.execPacerLocked s
  | .pacerUnlock => Sys2Proof.Machine.execPacerUnlock s
  | .pacerReacquire => Sys2Proof.Machine.execPacerReacquire s
  | .pacerFreerun => Sys2Proof.Machine.execPacerFreerun s
  | .pacerCircDisagree c0 c1 => Sys2Proof.Machine.execPacerCircDisagree c0 c1 s
  | .pacerCircReload ok => Sys2Proof.Machine.execPacerCircReload ok s
  | .pacerRun m => Sys2Proof.Machine.execPacerRun m s
  | .pacerStop m => Sys2Proof.Machine.execPacerStop m s
  | .rephase m phase => Sys2Proof.Machine.execRephase m phase s
  | .heatNumLoRead m => Sys2Proof.Machine.execHeatNumLoRead m s
  | .applyHiWrite m v => Sys2Proof.Machine.execApplyHiWrite m v s
  | .transportCycle p => Sys2Proof.Machine.execTransportCycle p s
  | .repIteration p => Sys2Proof.Machine.execRepIteration p s
  | .resultReady p found => Sys2Proof.Machine.execResultReady p found s
  | .trapEntry p => Sys2Proof.Machine.execTrapEntry p s
  | .fenceReportPost p => Sys2Proof.Machine.execFenceReportPost p s
  | .storeBufferDrain p => Sys2Proof.Machine.execStoreBufferDrain p s
  | .remoteAccessDone p => Sys2Proof.Machine.execRemoteAccessDone p s
  | .aluAdd p n t => Sys2Proof.Machine.execAluAdd p n t s
  | .aluSub p n t => Sys2Proof.Machine.execAluSub p n t s
  | .aluAnd p n t => Sys2Proof.Machine.execAluAnd p n t s
  | .aluOr p n t => Sys2Proof.Machine.execAluOr p n t s
  | .aluXor p n t => Sys2Proof.Machine.execAluXor p n t s
  | .aluAndn p n t => Sys2Proof.Machine.execAluAndn p n t s
  | .aluShl p n t => Sys2Proof.Machine.execAluShl p n t s
  | .aluShr p n t => Sys2Proof.Machine.execAluShr p n t s
  | .aluSra p n t => Sys2Proof.Machine.execAluSra p n t s
  | .aluRotl p n t => Sys2Proof.Machine.execAluRotl p n t s
  | .aluEq p n t => Sys2Proof.Machine.execAluEq p n t s
  | .aluLt p n t => Sys2Proof.Machine.execAluLt p n t s
  | .aluLtu p n t => Sys2Proof.Machine.execAluLtu p n t s
  | .aluMin p n t => Sys2Proof.Machine.execAluMin p n t s
  | .aluMax p n t => Sys2Proof.Machine.execAluMax p n t s
  | .mulMul p t => Sys2Proof.Machine.execMulMul p t s
  | .mulMulu p t => Sys2Proof.Machine.execMulMulu p t s
  | .mulMulsu p t => Sys2Proof.Machine.execMulMulsu p t s
  | .fpuAdd p t => Sys2Proof.Machine.execFpuAdd p t s
  | .fpuMul p t => Sys2Proof.Machine.execFpuMul p t s
  | .fpuFma p t => Sys2Proof.Machine.execFpuFma p t s
  | .fpuCvt p t => Sys2Proof.Machine.execFpuCvt p t s
  | .fpuCmp p t => Sys2Proof.Machine.execFpuCmp p t s
  | .macF p k t => Sys2Proof.Machine.execMacF p k t s
  | .macClr p t => Sys2Proof.Machine.execMacClr p t s
  | .macSet p t => Sys2Proof.Machine.execMacSet p t s
  | .lsuLd p t => Sys2Proof.Machine.execLsuLd p t s
  | .lsuSt p t => Sys2Proof.Machine.execLsuSt p t s
  | .lsuLr p t => Sys2Proof.Machine.execLsuLr p t s
  | .lsuSc p t => Sys2Proof.Machine.execLsuSc p t s
  | .lsuLdc p t => Sys2Proof.Machine.execLsuLdc p t s
  | .lsuStc p t => Sys2Proof.Machine.execLsuStc p t s
  | .lsuFence p t => Sys2Proof.Machine.execLsuFence p t s
  | .ctlJump p t => Sys2Proof.Machine.execCtlJump p t s
  | .ctlCall p t => Sys2Proof.Machine.execCtlCall p t s
  | .ctlRet p t => Sys2Proof.Machine.execCtlRet p t s
  | .ctlSync p t => Sys2Proof.Machine.execCtlSync p t s
  | .splWait p t => Sys2Proof.Machine.execSplWait p t s
  | .splChk p t => Sys2Proof.Machine.execSplChk p t s
  | .splCmp p t => Sys2Proof.Machine.execSplCmp p t s
  | .splTimerFire p => Sys2Proof.Machine.execSplTimerFire p s
  | .splLate p => Sys2Proof.Machine.execSplLate p s
  | .comparePoint h pt => Sys2Proof.Machine.execComparePoint h pt s
  | .trapT p t => Sys2Proof.Machine.execTrapT p t s
  | .trapRet p t => Sys2Proof.Machine.execTrapRet p t s
  | .gpos p => Sys2Proof.Machine.execGpos p s
  | .gbase p => Sys2Proof.Machine.execGbase p s
  | .glim p => Sys2Proof.Machine.execGlim p s
  | .gperm p => Sys2Proof.Machine.execGperm p s
  | .gtag p => Sys2Proof.Machine.execGtag p s
  | .glen p => Sys2Proof.Machine.execGlen p s
  | .move p => Sys2Proof.Machine.execMove p s
  | .spos p => Sys2Proof.Machine.execSpos p s
  | .ipos p => Sys2Proof.Machine.execIpos p s
  | .sbnd p => Sys2Proof.Machine.execSbnd p s
  | .aperm p => Sys2Proof.Machine.execAperm p s
  | .cltag p => Sys2Proof.Machine.execCltag p s
  | .seal p => Sys2Proof.Machine.execSeal p s
  | .unseal p => Sys2Proof.Machine.execUnseal p s
  | .cmpb p => Sys2Proof.Machine.execCmpb p s
  | .rdsys p => Sys2Proof.Machine.execRdsys p s
  | .wrsys p => Sys2Proof.Machine.execWrsys p s
  | .rlySend p v => Sys2Proof.Machine.execRlySend p v s
  | .relayHop r input => Sys2Proof.Machine.execRelayHop r input s
  | .relayArrival p => Sys2Proof.Machine.execRelayArrival p s
  | .rlyRxRead p => Sys2Proof.Machine.execRlyRxRead p s
  | .rlyFlush p v => Sys2Proof.Machine.execRlyFlush p v s
  | .mbxWr p v => Sys2Proof.Machine.execMbxWr p v s
  | .mbxGo p v => Sys2Proof.Machine.execMbxGo p v s
  | .mbxWait p v => Sys2Proof.Machine.execMbxWait p v s
  | .mbxRdRead p => Sys2Proof.Machine.execMbxRdRead p s
  | .mbxPostArrive c => Sys2Proof.Machine.execMbxPostArrive c s
  | .mbxReleaseArrive c => Sys2Proof.Machine.execMbxReleaseArrive c s
  | .mbxWaitEnd p => Sys2Proof.Machine.execMbxWaitEnd p s
  | .mbxFabricGo m c be v => Sys2Proof.Machine.execMbxFabricGo m c be v s
  | .mbxFabricRead m c w be => Sys2Proof.Machine.execMbxFabricRead m c w be s
  | .bind m c v => Sys2Proof.Machine.execBind m c v s
  | .mbxLock m v => Sys2Proof.Machine.execMbxLock m v s
  | .sysWr p v => Sys2Proof.Machine.execSysWr p v s
  | .scrubVisit p hard0 hard1 hardIs => Sys2Proof.Machine.execScrubVisit p hard0 hard1 hardIs s
  | .memCmd m p v => Sys2Proof.Machine.execMemCmd m p v s
  | .sharerAccess p arr => Sys2Proof.Machine.execSharerAccess p arr s
  | .smBusyRetry => Sys2Proof.Machine.execSmBusyRetry s
  | .smScrub hard => Sys2Proof.Machine.execSmScrub hard s
  | .qdrInit m k => Sys2Proof.Machine.execQdrInit m k s
  | .qdrReady k res => Sys2Proof.Machine.execQdrReady k res s
  | .qdrCtrlFail m k => Sys2Proof.Machine.execQdrCtrlFail m k s
  | .qdrRetrain k eyes driftOk => Sys2Proof.Machine.execQdrRetrain k eyes driftOk s
  | .qdrZqCalibration k => Sys2Proof.Machine.execQdrZqCalibration k s
  | .qdrScrub k hard => Sys2Proof.Machine.execQdrScrub k hard s
  | .qdrApar a => Sys2Proof.Machine.execQdrApar a s
  | .qdrWriteReplay k => Sys2Proof.Machine.execQdrWriteReplay k s
  | .streamRodIssue e => Sys2Proof.Machine.execStreamRodIssue e s
  | .streamRodArrive e => Sys2Proof.Machine.execStreamRodArrive e s
  | .fabricRequest r => Sys2Proof.Machine.execFabricRequest r s
  | .fabricGrant t err => Sys2Proof.Machine.execFabricGrant t err s
  | .fabricResponse m hop => Sys2Proof.Machine.execFabricResponse m hop s
  | .periphBusAccess => Sys2Proof.Machine.execPeriphBusAccess s
  | .fabWaitMaxClear m t => Sys2Proof.Machine.execFabWaitMaxClear m t s
  | .loadCard e => Sys2Proof.Machine.execLoadCard e s
  | .cardAdmission => Sys2Proof.Machine.execCardAdmission s
  | .activate e => Sys2Proof.Machine.execActivate e s
  | .withdraw e => Sys2Proof.Machine.execWithdraw e s
  | .seedWrite h => Sys2Proof.Machine.execSeedWrite h s
  | .seatClearDone seat => Sys2Proof.Machine.execSeatClearDone seat s
  | .frameReceive port f => Sys2Proof.Machine.execFrameReceive port f s
  | .kaongCellReceive port c => Sys2Proof.Machine.execKaongCellReceive port c s
  | .kaongLock port => Sys2Proof.Machine.execKaongLock port s
  | .portLinkDown port why => Sys2Proof.Machine.execPortLinkDown port why s
  | .ingestRodEnter port bank => Sys2Proof.Machine.execIngestRodEnter port bank s
  | .ingestRodArrive port bank => Sys2Proof.Machine.execIngestRodArrive port bank s
  | .ingestStatusRod port rec => Sys2Proof.Machine.execIngestStatusRod port rec s
  | .ingestMapSwitch port => Sys2Proof.Machine.execIngestMapSwitch port s
  | .egressReadRequest port => Sys2Proof.Machine.execEgressReadRequest port s
  | .egressFrameSend port => Sys2Proof.Machine.execEgressFrameSend port s
  | .kaongCellSend port => Sys2Proof.Machine.execKaongCellSend port s
  | .stewardFrameSend port bytes => Sys2Proof.Machine.execStewardFrameSend port bytes s
  | .identify e => Sys2Proof.Machine.execIdentify e s
  | .attest e => Sys2Proof.Machine.execAttest e s
  | .queryContract e => Sys2Proof.Machine.execQueryContract e s
  | .readLog e => Sys2Proof.Machine.execReadLog e s
  | .snapshotArm e => Sys2Proof.Machine.execSnapshotArm e s
  | .snapshotRead e => Sys2Proof.Machine.execSnapshotRead e s
  | .fwStage e => Sys2Proof.Machine.execFwStage e s
  | .fwCommit e => Sys2Proof.Machine.execFwCommit e s
  | .pacerCfg e => Sys2Proof.Machine.execPacerCfg e s
  | .resourceClaim e => Sys2Proof.Machine.execResourceClaim e s
  | .resourceRelease e => Sys2Proof.Machine.execResourceRelease e s
  | .resourceQuery e => Sys2Proof.Machine.execResourceQuery e s
  | .lifecycleTransition e => Sys2Proof.Machine.execLifecycleTransition e s
  | .keyEnrol e => Sys2Proof.Machine.execKeyEnrol e s
  | .keyRevoke e => Sys2Proof.Machine.execKeyRevoke e s
  | .debugOpen e => Sys2Proof.Machine.execDebugOpen e s
  | .debugClose e => Sys2Proof.Machine.execDebugClose e s
  | .debugExpire => Sys2Proof.Machine.execDebugExpire s
  | .telemetryCfg e => Sys2Proof.Machine.execTelemetryCfg e s
  | .invalidOpcode e op => Sys2Proof.Machine.execInvalidOpcode e op s
  | .sqTail q v => Sys2Proof.Machine.execSqTail q v s
  | .cqHead q v => Sys2Proof.Machine.execCqHead q v s
  | .evtHead v => Sys2Proof.Machine.execEvtHead v s
  | .telemHead v => Sys2Proof.Machine.execTelemHead v s
  | .ringEnable ring cfg => Sys2Proof.Machine.execRingEnable ring cfg s
  | .completionPost q => Sys2Proof.Machine.execCompletionPost q s
  | .eventDeliver => Sys2Proof.Machine.execEventDeliver s
  | .telemetryRecord => Sys2Proof.Machine.execTelemetryRecord s
  | .hostReset k => Sys2Proof.Machine.execHostReset k s
  | .d3hotEntry => Sys2Proof.Machine.execD3hotEntry s
  | .repairSweep mv => Sys2Proof.Machine.execRepairSweep mv s
  | .groupResume h seat => Sys2Proof.Machine.execGroupResume h seat s
  | .shadowTest p sigOk copyOk => Sys2Proof.Machine.execShadowTest p sigOk copyOk s
  | .stewardDuplexMismatch => Sys2Proof.Machine.execStewardDuplexMismatch s
  | .stewardBoot imgA imgB => Sys2Proof.Machine.execStewardBoot imgA imgB s
  | .identityGenerate healthOk => Sys2Proof.Machine.execIdentityGenerate healthOk s
  | .secExtend m v => Sys2Proof.Machine.execSecExtend m v s
  | .secTamper src => Sys2Proof.Machine.execSecTamper src s
  | .photoInEdge => Sys2Proof.Machine.execPhotoInEdge s
  | .pfProgTrigger => Sys2Proof.Machine.execPfProgTrigger s
  | .pfCmdTrig m => Sys2Proof.Machine.execPfCmdTrig m s
  | .pfCmdRelease m => Sys2Proof.Machine.execPfCmdRelease m s
  | .pfCapture => Sys2Proof.Machine.execPfCapture s
  | .snapshotHoldExpire => Sys2Proof.Machine.execSnapshotHoldExpire s
  | .logSliceWrite verify1 verify2 => Sys2Proof.Machine.execLogSliceWrite verify1 verify2 s
  | .pwrReq m v => Sys2Proof.Machine.execPwrReq m v s
  | .pwrDomainOn d => Sys2Proof.Machine.execPwrDomainOn d s
  | .deviceReset c => Sys2Proof.Machine.execDeviceReset c s
  | .resetRelease => Sys2Proof.Machine.execResetRelease s
  | .mainPowerFail => Sys2Proof.Machine.execMainPowerFail s
  | .clkFail c => Sys2Proof.Machine.execClkFail c s
  | .corePllLockLoss => Sys2Proof.Machine.execCorePllLockLoss s
  | .wdtKick m v => Sys2Proof.Machine.execWdtKick m v s
  | .wdtExpired st => Sys2Proof.Machine.execWdtExpired st s
  | .pwrTjWarn sensor tj => Sys2Proof.Machine.execPwrTjWarn sensor tj s
  | .thermalTrip sensor => Sys2Proof.Machine.execThermalTrip sensor s
  | .pwrLaneRst m v => Sys2Proof.Machine.execPwrLaneRst m v s
  | .pwrFieldRst m v => Sys2Proof.Machine.execPwrFieldRst m v s
  | .rtcLoRead m => Sys2Proof.Machine.execRtcLoRead m s
  | .uartTxWrite m v => Sys2Proof.Machine.execUartTxWrite m v s
  | .uartRxRead m => Sys2Proof.Machine.execUartRxRead m s
  | .uartRxByte b stopOk => Sys2Proof.Machine.execUartRxByte b stopOk s
  | .uartTxByteDone => Sys2Proof.Machine.execUartTxByteDone s
  | .i2c1Xfer m v => Sys2Proof.Machine.execI2c1Xfer m v s
  | .i2c1ByteDone ack arb b => Sys2Proof.Machine.execI2c1ByteDone ack arb b s
  | .tmrCompare k => Sys2Proof.Machine.execTmrCompare k s
  | .tmrCapture k => Sys2Proof.Machine.execTmrCapture k s
  | .tickOutPulse => Sys2Proof.Machine.execTickOutPulse s
  | .pmbusPoll rails x => Sys2Proof.Machine.execPmbusPoll rails x s
  | .registerWrite m a v => Sys2Proof.Machine.execRegisterWrite m a v s
  | .clkLockReturn c => Sys2Proof.Machine.execClkLockReturn c s
  | .d3hotExit => Sys2Proof.Machine.execD3hotExit s
  | .msixUnmask vec => Sys2Proof.Machine.execMsixUnmask vec s
  | .standbySelfTestDone => Sys2Proof.Machine.execStandbySelfTestDone s
  | .vbatApplication => Sys2Proof.Machine.execVbatApplication s

end Sys2Proof.Machine
end

