-- ==== Sys2Proof/Machine/Tick.lean ====
section
/-! DEFINITION. One lane cycle of the clock with nothing commanded: the counters that run by themselves (R10, R17, R448,
R449, R463, R477). -/

namespace Sys2Proof.Machine
open Sys2Proof

/-- The real-time counter counts periods of 32.768 kHz since VBAT was first applied: 262,144 / 10^10 of one in each lane
cycle. -/
def Pwr.rtcTick (p : Pwr) : Pwr :=
  if !p.vbat then p
  else if p.rtcAcc + 262144 < 10000000000 then { p with rtcAcc := p.rtcAcc + 262144 }
  else { p with rtcAcc := p.rtcAcc + 262144 - 10000000000, rtc := p.rtc + 1 }

/-- The cycle of the heat and the disciplined clock, in 0.2 ns. -/
def Pacer.tick (p : Pacer) : Pacer :=
  { p with elapsed := if p.open_ then p.elapsed + 1 else p.elapsed, ptpT := p.ptpT + 4 }

/-- A timer counts one bus cycle. -/
def Tmr.tick (t : Tmr) : Tmr := if t.en then { t with cnt := t.cnt + 1 } else t

/-- Every eighth lane cycle is a cycle of the peripheral bus, while its PLL is locked. -/
def State.tickTimers (s : State) : State :=
  if s.now % 8 = 0 && s.pwr.clk.getLsbD 1 then { s with per := { s.per with tmr := tmap tmrDflt (fun _ t => t.tick) s.per.tmr } }
  else s

/-- A second passes: powered time of each domain, and the journal's limit starts anew (R447, R449). -/
def State.tickSecond (s : State) : State :=
  if s.now % lcPerSec ≠ 0 then s
  else
    let s := (List.range 20).foldl (fun s d => if s.domOn d then s.hist4 (4 * (16 + d)) else s) s
    let n := s.log.jSkip
    let s := { s with log := { s.log with jSec := 0, jSkip := 0 } }
    if n = 0 then s else s.raise 0x0A03 0 (BitVec.ofNat 64 n) false

/-- Firmware that runs takes ring entries again after a host reset. DESIGN CHOICE (log 45): within one lane cycle. -/
def State.tickReady (s : State) : State := { s with hif := { s.hif with ready := s.sec.up } }

/-- One lane cycle. In device reset only the real-time counter runs. -/
def tick (s : State) : State :=
  let s := { s with pwr := s.pwr.rtcTick }
  if s.pwr.inReset then s
  else ({ s with now := s.now + 1, pacer := s.pacer.tick }).tickReady.tickTimers.tickSecond

end Sys2Proof.Machine
end

