-- ==== Sys2Proof/Laws/Tab.lean ====
section
/-! SUPPORT. Sparse tables: a read after a write, the canonical form kept by every operation, and byte memory. -/

namespace Sys2Proof.Machine
open Sys2Proof

variable {α : Type} [DecidableEq α] {D : Nat → α}

/-! ### Reads -/

theorem tget_filter_above (m : Tab α) (k j : Nat) (h : k < j) :
    tget D (m.filter (fun e => decide (k < e.1))) j = tget D m j := by
  induction m with
  | nil => rfl
  | cons e r ih =>
    obtain ⟨i, u⟩ := e
    by_cases hk : k < i
    · simp [List.filter, hk, tget, ih]
    · simp [List.filter, hk, tget, ih]
      have h1 : i ≠ j := by omega
      have h2 : ¬ j < i := by omega
      simp [h1, h2]

theorem tget_filter_none (m : Tab α) (k j : Nat) (h : j ≤ k) :
    tget D (m.filter (fun e => decide (k < e.1))) j = D j := by
  induction m with
  | nil => rfl
  | cons e r ih =>
    obtain ⟨i, u⟩ := e
    by_cases hk : k < i
    · have h1 : i ≠ j := by omega
      have h2 : j < i := by omega
      simp [List.filter, hk, tget, h1, h2]
    · simp [List.filter, hk, ih]

/-- Any key reads the value that was put there last; every other key reads as before. -/
theorem tget_tput (m : Tab α) (k j : Nat) (v : α) : tget D (tput D m k v) j = if j = k then v else tget D m j := by
  induction m with
  | nil =>
    by_cases hv : v = D k <;> by_cases hj : j = k <;> simp [tput, tcons, tget, hv, hj]
    omega
  | cons e r ih =>
    obtain ⟨i, u⟩ := e
    rcases Nat.lt_trichotomy i k with h | h | h
    · have h1 : i ≠ k := by omega
      have h2 : ¬ k < i := by omega
      simp only [tput, h1, h2, if_false, tget, ih]
      by_cases hj : j = k
      · subst hj; simp [h1, h2]
      · simp [hj]
    · subst h
      by_cases hv : v = D i
      · rcases Nat.lt_trichotomy j i with h | h | h
        · have a : j ≠ i := by omega
          have b : i ≠ j := by omega
          simp [tput, tcons, hv, tget, a, b, h, tget_filter_none r i j (by omega)]
        · subst h; simp [tput, tcons, hv, tget_filter_none r j j (by omega)]
        · have a : j ≠ i := by omega
          have b : i ≠ j := by omega
          have c : ¬ j < i := by omega
          simp [tput, tcons, hv, tget, a, b, c, tget_filter_above r i j h]
      · by_cases hj : i = j
        · subst hj; simp [tput, tcons, hv, tget]
        · have b : j ≠ i := by omega
          simp [tput, tcons, hv, tget, hj, b]
    · have h1 : i ≠ k := by omega
      by_cases hv : v = D k
      · have e : (fun e : Nat × α => decide (k < e.1)) (i, u) = true := by simp [h]
        rcases Nat.lt_trichotomy j k with g | g | g
        · have a : j ≠ k := by omega
          have b : i ≠ j := by omega
          have c : j < i := by omega
          have d := tget_filter_none (D := D) ((i, u) :: r) k j (by omega)
          simp only [tput, h1, h, if_true, if_false, tcons, hv, d]
          simp [a, tget, b, c]
        · subst g
          have d := tget_filter_none (D := D) ((i, u) :: r) j j (by omega)
          simp only [tput, h1, h, if_true, if_false, tcons, hv, d]
        · have a : j ≠ k := by omega
          have d := tget_filter_above (D := D) ((i, u) :: r) k j g
          simp only [tput, h1, h, if_true, if_false, tcons, hv, d]
          simp [a]
      · by_cases hj : k = j
        · subst hj; simp [tput, h1, h, tcons, hv, tget]
        · have b : j ≠ k := by omega
          by_cases g : j < k
          · have c : i ≠ j := by omega
            have d : j < i := by omega
            simp [tput, h1, h, tcons, hv, tget, hj, b, g, c, d]
          · simp [tput, h1, h, tcons, hv, tget, hj, b, g]

@[simp] theorem tget_tput_same (m : Tab α) (k : Nat) (v : α) : tget D (tput D m k v) k = v := by simp [tget_tput]

theorem tget_tput_other (m : Tab α) {k j : Nat} (v : α) (h : j ≠ k) : tget D (tput D m k v) j = tget D m j := by
  simp [tget_tput, h]

/-! ### The canonical form -/

theorem tabove_weaken (m : Tab α) (a b : Nat) (h : a ≤ b) (hm : tabove D (some b) m = true) : tabove D (some a) m = true := by
  cases m with
  | nil => rfl
  | cons e r =>
    simp only [tabove, Bool.and_eq_true, decide_eq_true_eq] at hm ⊢
    exact ⟨⟨by omega, hm.1.2⟩, hm.2⟩

theorem tabove_none (m : Tab α) (a : Nat) (hm : tabove D (some a) m = true) : tabove D none m = true := by
  cases m with
  | nil => rfl
  | cons e r =>
    simp only [tabove, Bool.and_eq_true, decide_eq_true_eq, true_and] at hm ⊢
    exact ⟨hm.1.2, hm.2⟩

theorem filter_above (m : Tab α) (k : Nat) (hm : tabove D (some k) m = true) :
    m.filter (fun e => decide (k < e.1)) = m := by
  induction m with
  | nil => rfl
  | cons e r ih =>
    obtain ⟨i, u⟩ := e
    simp only [tabove, Bool.and_eq_true, decide_eq_true_eq] at hm
    have hr := ih (tabove_weaken r k i (by omega) hm.2)
    simp [List.filter, hm.1.1, hr]

theorem tabove_tcons (lo : Option Nat) (k : Nat) (v : α) (r : Tab α)
    (hlo : ∀ l, lo = some l → l < k) (hr : tabove D (some k) r = true) : tabove D lo (tcons D k v r) = true := by
  unfold tcons
  split
  · rw [filter_above r k hr]
    cases lo with
    | none => exact tabove_none r k hr
    | some l => exact tabove_weaken r l k (Nat.le_of_lt (hlo l rfl)) hr
  · rename_i hv
    cases lo with
    | none => simp [tabove, hv, hr]
    | some l => simp [tabove, hv, hr, hlo l rfl]

theorem tabove_tput (lo : Option Nat) (m : Tab α) (k : Nat) (v : α)
    (hlo : ∀ l, lo = some l → l < k) (hm : tabove D lo m = true) : tabove D lo (tput D m k v) = true := by
  induction m generalizing lo with
  | nil => exact tabove_tcons lo k v [] hlo rfl
  | cons e r ih =>
    obtain ⟨i, u⟩ := e
    have hm' := hm
    simp only [tabove, Bool.and_eq_true, decide_eq_true_eq] at hm'
    obtain ⟨⟨h1, h2⟩, h3⟩ := hm'
    unfold tput
    split
    · rename_i hk; subst hk; exact tabove_tcons lo i v r hlo h3
    · split
      · rename_i hk
        exact tabove_tcons lo k v _ hlo (by simp [tabove, hk, h2, h3])
      · rename_i ha hb
        have := ih (some i) (by intro l hl; injection hl with hl; omega) h3
        simp only [tabove, this, Bool.and_true, Bool.and_eq_true]
        refine ⟨?_, by simpa using h2⟩
        cases lo <;> simp_all

/-- A put keeps the canonical form. -/
theorem twf_tput (m : Tab α) (k : Nat) (v : α) (hm : twf D m = true) : twf D (tput D m k v) = true :=
  tabove_tput none m k v (by simp) hm

theorem tabove_tmap (f : Nat → α → α) (lo : Option Nat) (m : Tab α) (hm : tabove D lo m = true) :
    tabove D lo (tmap D f m) = true := by
  induction m generalizing lo with
  | nil => rfl
  | cons e r ih =>
    obtain ⟨i, u⟩ := e
    simp only [tabove, Bool.and_eq_true, decide_eq_true_eq] at hm
    refine tabove_tcons lo i _ _ ?_ (ih (some i) hm.2)
    intro l hl; subst hl; simpa using hm.1.1

/-- A change of every entry keeps the canonical form. -/
theorem twf_tmap (f : Nat → α → α) (m : Tab α) (hm : twf D m = true) : twf D (tmap D f m) = true :=
  tabove_tmap f none m hm

/-- What a key of a changed table holds; the change leaves unlisted values. -/
theorem tget_tmap (f : Nat → α → α) (hf : ∀ k, f k (D k) = D k) (m : Tab α) (k : Nat) :
    tget D (tmap D f m) k = f k (tget D m k) := by
  induction m with
  | nil => exact (hf k).symm
  | cons e r ih =>
    obtain ⟨i, u⟩ := e
    simp only [tmap, tcons, tget]
    by_cases h : f i u = D i
    · rw [if_pos h]
      rcases Nat.lt_trichotomy i k with a | a | a
      · have b : ¬ i = k := by omega
        have c : ¬ k < i := by omega
        rw [tget_filter_above _ _ _ a, ih, if_neg b, if_neg c]
      · subst a; rw [tget_filter_none _ _ _ (Nat.le_refl i), if_pos rfl, h]
      · have b : ¬ i = k := by omega
        rw [tget_filter_none _ _ _ (Nat.le_of_lt a), if_neg b, if_pos a, hf]
    · rw [if_neg h]
      simp only [tget]
      by_cases b : i = k
      · subst b; simp
      · by_cases c : k < i
        · simp [b, c, hf]
        · simp [b, c, ih]

/-! ### Bytes of memory -/

@[simp] theorem mget_nil (a : Nat) : mget [] a = 0 := rfl

theorem mget_mput (m : Mem) (a b : Nat) (v : BitVec 8) : mget (mput m a v) b = if b = a then v else mget m b :=
  tget_tput m a b v

theorem memWf_mput (m : Mem) (a : Nat) (v : BitVec 8) (h : memWf m = true) : memWf (mput m a v) = true :=
  twf_tput m a v h

/-- A store of bytes keeps the canonical form. -/
theorem memWf_mwrite (l : List Byte) (m : Mem) (a : Nat) (h : memWf m = true) : memWf (mwrite m a l) = true := by
  induction l generalizing m a with
  | nil => exact h
  | cons b r ih => exact ih _ _ (memWf_mput m a b h)

/-- A byte outside the stored range reads as before, one inside reads the byte stored there. -/
theorem mget_mwrite (l : List Byte) (m : Mem) (a b : Nat) :
    mget (mwrite m a l) b = if a ≤ b ∧ b < a + l.length then l.getD (b - a) 0 else mget m b := by
  induction l generalizing m a with
  | nil => simp [mwrite]
  | cons x r ih =>
    rw [mwrite, ih, mget_mput]
    by_cases h : b = a
    · subst h; simp
    · by_cases h1 : a ≤ b ∧ b < a + (x :: r).length
      · have h2 : a + 1 ≤ b ∧ b < a + 1 + r.length := by simp at h1; omega
        have h3 : b - a = (b - (a + 1)) + 1 := by omega
        rw [if_pos h2, if_pos h1, h3]; simp
      · have h2 : ¬ (a + 1 ≤ b ∧ b < a + 1 + r.length) := by simp at h1; omega
        rw [if_neg h2, if_neg h1, if_neg h]

end Sys2Proof.Machine
end

