-- ==== Sys2Proof/Safety.lean ====
section
/-! DEFINITION. What counts as a safe run, and the conditions on state and operands under which a command acts, in the terms
that the statements use. -/

namespace Sys2Proof

/-- `n` steps from `s` all answer a next state. -/
def safeFor (n : Nat) (s : Machine.State) : Prop := ∃ t, Host.Core.run core n s = .next t

namespace Machine

/-- Lane `p` as a command on it finds it: arrived words and results due have taken effect (R45, R222). -/
def State.laneNow (s : State) (p : Nat) : Lane := (s.settle p).lane p

/-- A move to port `d` of lane `p` acts: the device is out of device reset, the lane is not held, fenced or entering or leaving
a trap, and no remote move of the same cycle takes the port or its unit (R48, R192, R227, R404). -/
def State.Acts (s : State) (p d : Nat) : Prop :=
  s.pwr.inReset = false ∧ (s.laneNow p).stopped = false ∧ clashes ((s.laneNow p).arriving (s.laneNow p) (s.settle p).now) d = false

/-- The commands that move the clock of the device or put it into or out of device reset: the gun, a disagreement of the pacer
circuits, the causes of device reset, and the release from it. -/
def movesClock : Instr → Bool
  | .gun => true
  | .pacerCircDisagree _ _ => true
  | .deviceReset _ => true
  | .resetRelease => true
  | .mainPowerFail => true
  | .corePllLockLoss => true
  | .wdtExpired _ => true
  | .thermalTrip _ => true
  | _ => false

/-- The commands that have an effect while the device is in device reset: its causes and its release, VBAT, and the tamper
sensors (R431, R461, R463, R465). -/
def runsInReset : Instr → Bool
  | .resetRelease => true
  | .deviceReset _ => true
  | .mainPowerFail => true
  | .vbatApplication => true
  | .secTamper _ => true
  | _ => false

/-- While the device is in device reset, nothing has left its reset value that only a running device changes. -/
def State.stillInReset (s : State) : Prop :=
  s.pwr.inReset = true → s.now = 0 ∧ s.pacer = pacerReset ∧ s.lanes = [] ∧ s.con = [] ∧ s.mail = State.reset.mail ∧
    s.hif.ready = false ∧ s.sec.up = false ∧ s.ev.q = []

/-- The host commands whose entry is taken, checked for reserved fields and for the lifecycle state, and run, each with its
opcode and the fields it uses (R359–R363, R428). -/
def hostRow : Instr → Option (Nat × Uses × Sqe)
  | .identify e => some (0x01, ⟨false, true, 0x18⟩, e)
  | .attest e => some (0x02, ⟨false, true, 0x38⟩, e)
  | .activate e => some (0x04, ⟨true, false, 0x20⟩, e)
  | .withdraw e => some (0x05, ⟨true, false, 0x20⟩, e)
  | .queryContract e => some (0x06, ⟨true, true, 0x18⟩, e)
  | .readLog e => some (0x07, ⟨false, true, 0x1C⟩, e)
  | .snapshotArm e => some (0x08, ⟨false, false, 0x28⟩, e)
  | .snapshotRead e => some (0x09, ⟨false, true, 0x1C⟩, e)
  | .fwStage e => some (0x0A, ⟨false, true, 0x18⟩, e)
  | .fwCommit e => some (0x0B, ⟨false, false, 0x20⟩, e)
  | .pacerCfg e => some (0x0C, ⟨false, false, 0x40⟩, e)
  | .resourceClaim e => if sqeAction e = 2 ∨ sqeAction e = 3 then none else some (0x0D, ⟨false, false, 0x24⟩, e)
  | .resourceRelease e => if sqeAction e = 2 then some (0x0D, ⟨false, false, 0x24⟩, e) else none
  | .resourceQuery e => if sqeAction e = 3 then some (0x0D, ⟨false, false, 0x24⟩, e) else none
  | .telemetryCfg e => some (0x0F, ⟨false, false, 0x2C⟩, e)
  | _ => none

/-- `t` is `u` but for lane `p`, which is `l`. -/
def State.LaneOnly (u t : State) (p : Nat) (l : Lane) : Prop :=
  t.lane p = l ∧ (∀ q, q ≠ p → t.lane q = u.lane q) ∧ { t with lanes := [] } = { u with lanes := [] }

/-- Lane `p` as the trigger of a move to port `d` finds it: the remote moves of the cycle have acted, the words after a store
have been fetched, and stalls count from this cycle (R44, R91, R196). -/
def State.actLane (s : State) (p d : Nat) : Lane := ((s.settle p).step2 p d).lane p

/-- Wherever command `c` of lane `p`, a move to port `d`, acts on a lane whose checks find it to meet `ok`, it answers the state
in which the lane is what `f` makes of it in the present cycle, and nothing else has changed. -/
def LaneDoes (c : Instr) (p d : Nat) (ok : Lane → Prop) (f : Nat → Lane → Lane) : Prop :=
  ∀ s : State, s.Acts p d → ok (s.laneNow p) →
    ∃ t, exec c s = .next t ∧ (s.settle p).LaneOnly t p (f (s.settle p).now (s.actLane p d))

/-- The trigger port of operation `k` of ALU0 or ALU1, and the operand and the end of an operation there (R38, R96). -/
def aluPort (n : Bool) (k : Nat) : Nat := (if n then 0x30 else 0x20) + k
def aluEnd (n : Bool) (t : Word) (g : Word → Word → Word) (now : Nat) (l : Lane) : Lane :=
  l.fly (now + 1) (if n then 1 else 0) (.alu n (g (if n then l.u.alu1o else l.u.alu0o) t))

/-- A CAP operation ends in the next cycle with `cap.r` = `v`, or with capability `r` in cD; `cap.st` follows (R171, R173). -/
def capWordEnd (v : Lane → Word) (now : Nat) (l : Lane) : Lane :=
  (l.fly (now + 1) 9 (.capR (v l))).fly (now + 1) 9 (.capSt (csCap l).status)
def capRegEnd (r : Lane → Cap) (now : Nat) (l : Lane) : Lane :=
  (l.fly (now + 1) 9 (.capC (capCd l) (r l))).fly (now + 1) 9 (.capSt (r l).status)

end Machine

end Sys2Proof
end

