-- ==== Sys2Proof/Certificates/Slice0/Obligations.lean ====
section
/-! DEFINITION. The statements put to the provers: what the commands of each family do, when they complete, and what the block keeps. -/

open Sys2Proof Sys2Proof.Machine

/-- For every command and state, the step of the state with that command at the front of its queue is the command run on the state
with the rest of the queue.
Rests on: opcode_table.json, R29. -/
def Obligations.StepRunsTheFrontCommand : Prop :=
  ∀ (c : Instr) (s : State), step { s with pending := c :: s.pending } = exec c s

/-- In the reset state the pacer is stopped with HEAT_LEN 125,000, HEAT_NUM 0, FLY_LIMIT 256 and its configuration at the values
of R34; every field lane is idle with zero registers and null capabilities; the stewards start in the boot ROM with the root
capability; every router output, engine and port is unowned; QDR channels are absent with FAIL_UE 16, ZQ 10 and RETRAIN 12; no
contract and no command waits; the memory of every lane lists nothing. The initial values satisfy the two invariants below.
Rests on: R34, R52, R168, R230, R281, R301, R351, R355, R461. -/
def Obligations.ResetStateHoldsTheSpecValues : Prop :=
  (let r := State.reset
  r.pacer.state = .stopped ∧ r.pacer.heatLen = 125000 ∧ r.pacer.heatNum = 0 ∧ r.pacer.flyLimit = 256 ∧ r.pacer.tickCfg = 0x00080000 ∧
    r.pacer.ptpCfg = 0x00000030 ∧ r.pacer.trim = 0 ∧ r.pacer.events = 0 ∧ r.pacer.run = false) ∧
  (∀ p, p < 1088 → (State.reset.lane p).mode = .idle ∧ (∀ k, getW (State.reset.lane p).w k = 0) ∧ (State.reset.lane p).g = 0 ∧
    (∀ k, (State.reset.lane p).cReg k = nullCap) ∧ (State.reset.lane p).fcap = nullCap ∧ (State.reset.lane p).spl.sig = 0xFFFFFFFF ∧
    (State.reset.lane p).cfg = 3) ∧
  (∀ p, 1088 ≤ p → p < 1092 → (State.reset.lane p).fcap = rootCap 0xF0000000 ∧ (State.reset.lane p).ctl.pc = 0xF0000000 ∧
    (State.reset.lane p).cReg 0 = rootCap 0) ∧
  (∀ r n, (State.reset.rout r n).owner = 0xFFFF) ∧ (∀ e, (State.reset.engine e).owner = 0xFFFF) ∧
  (∀ k, (State.reset.port k).mode = 0 ∧ (State.reset.port k).ig.owner = 0xFFFF ∧ (State.reset.port k).eg.owner = 0xFFFF) ∧
  (∀ k, (State.reset.qch k).state = 0 ∧ (State.reset.qch k).failUe = 16 ∧ (State.reset.qch k).zq = 10 ∧ (State.reset.qch k).retrain = 12) ∧
  (∀ c, (State.reset.chan c).full = false ∧ (State.reset.chan c).bindV = false) ∧ State.reset.mail.lock = false ∧
  State.reset.hif.absent = true ∧ State.reset.con = [] ∧ State.reset.pending = [] ∧
  (∀ p, (State.reset.lmem p).h0.cells = [] ∧ (State.reset.lmem p).h1.cells = [] ∧ (State.reset.lmem p).is.cells = [])

/-- Whatever the state and the command, whenever a step answers a next state: SERIAL and VENDOR_KEY_HASH are as before, every bit
of OWNER_KEY_HASH and of LC_FUSE that was blown is still blown, and TOKEN_SEQ of the lifecycle record has not fallen.
Rests on: R416. -/
def Obligations.FusesAndTokenSequenceNeverGoBack : Prop :=
  ∀ (s t : State), step s = .next t →
    t.sec.serial = s.sec.serial ∧ t.sec.vendorHash = s.sec.vendorHash ∧
    (∀ k, s.sec.ownerHash.getLsbD k = true → t.sec.ownerHash.getLsbD k = true) ∧
    (∀ k, s.sec.lcFuse.getLsbD k = true → t.sec.lcFuse.getLsbD k = true) ∧ s.sec.lc.tokenSeq ≤ t.sec.lc.tokenSeq

/-- From every state that satisfies it, every step that answers a next state leads to one that satisfies it: while the device is
in device reset the pacer stands at its reset values, the cycle count is 0, every lane is in its reset state, and there is no
contract, no bound mailbox and no event. It holds in the reset state.
Rests on: R461, R465, R466. -/
def Obligations.DeviceResetHoldsEverythingStill : Prop :=
  (∀ (s t : State), s.stillInReset → step s = .next t → t.stillInReset) ∧ State.reset.stillInReset

/-- While the device is in device reset every command of the other 209 rows leaves the whole state as it is (a reading of R461 and
R465 that the assumption log marks as the model deduction).
Rests on: R461, R465. -/
def Obligations.NoCommandRunsInDeviceReset : Prop :=
  ∀ (c : Instr) (s : State), runsInReset c = false → s.pwr.inReset = true → exec c s = .next s

/-- Whatever the state, every command of the table answers a next state with the same queue of waiting commands; a command that is
neither the gun, a disagreement of the pacer circuits, a cause of device reset nor its release changes neither the cycle
count, nor HEAT_NUM, nor the cycle of the heat, and neither enters nor leaves device reset.
Rests on: R23, R29, R461. -/
def Obligations.CommandsAlwaysCompleteAndKeepTheQueue : Prop :=
  ∀ (c : Instr) (s : State), ∃ t, exec c s = .next t ∧ t.pending = s.pending ∧
    (movesClock c = false → t.now = s.now ∧ t.pwr.inReset = s.pwr.inReset ∧ t.pacer.heatNum = s.pacer.heatNum ∧
      t.pacer.elapsed = s.pacer.elapsed ∧ t.pacer.open_ = s.pacer.open_)

/-- When the gun of the next heat is due in the current cycle, GUN answers a state whose HEAT_NUM is that of the next heat, whose
cycle of the heat is 0 and in which a heat is open, with the cycle count, the queue and every fuse as before; no field lane is
left waiting for the gun. When it is not due nothing changes. With no command waiting, a step out of device reset passes one
lane cycle (the model choice of log entry 2), and one in device reset passes none.
Rests on: R10, R29, R31. -/
def Obligations.GunStartsTheHeat : Prop :=
  (∀ s : State, s.pwr.inReset = false → s.pacer.gunDue s.now = true → ∃ t, exec .gun s = .next t ∧ t.pacer.heatNum = s.pacer.nextNum ∧
    t.pacer.elapsed = 0 ∧ t.pacer.open_ = true ∧ t.now = s.now ∧ t.pending = s.pending ∧ ∀ p, p < 1088 → (t.lane p).mode ≠ .wait) ∧
  (∀ s : State, s.pwr.inReset = false → s.pacer.gunDue s.now = false → exec .gun s = .next s) ∧
  (∀ s : State, s.pending = [] → ∃ t, step s = .next t ∧ t.now = (if s.pwr.inReset then s.now else s.now + 1) ∧
    t.pacer.heatNum = s.pacer.heatNum ∧
    t.pacer.elapsed = (if s.pwr.inReset = false ∧ s.pacer.open_ = true then s.pacer.elapsed + 1 else s.pacer.elapsed))

/-- Whenever an ALU command acts on a lane, it answers a next state in which exactly one thing has changed on the lane as the
trigger finds it (results due and words arrived are in effect, stalls count from this cycle): the operation has put its result
(add, sub, and, or, xor, andn, shl, shr, sra, rotl, eq, lt, ltu, min, max of the operand port o and the value t, modulo 2^32,
shift counts t[4:0]) in flight to the result port of that ALU, due in the next cycle. Every other lane, all memory and every
other field are unchanged.
Rests on: R96. -/
def Obligations.AluOperationsWriteTheirResult : Prop :=
  ∀ (p : Nat) (n : Bool) (t : Word),
    LaneDoes (.aluAdd p n t) p (aluPort n 1) (fun _ => True) (aluEnd n t (fun o t => o + t)) ∧
    LaneDoes (.aluSub p n t) p (aluPort n 2) (fun _ => True) (aluEnd n t (fun o t => o - t)) ∧
    LaneDoes (.aluAnd p n t) p (aluPort n 3) (fun _ => True) (aluEnd n t (fun o t => o &&& t)) ∧
    LaneDoes (.aluOr p n t) p (aluPort n 4) (fun _ => True) (aluEnd n t (fun o t => o ||| t)) ∧
    LaneDoes (.aluXor p n t) p (aluPort n 5) (fun _ => True) (aluEnd n t (fun o t => o ^^^ t)) ∧
    LaneDoes (.aluAndn p n t) p (aluPort n 6) (fun _ => True) (aluEnd n t (fun o t => o &&& ~~~t)) ∧
    LaneDoes (.aluShl p n t) p (aluPort n 7) (fun _ => True) (aluEnd n t (fun o t => o <<< (t.toNat % 32))) ∧
    LaneDoes (.aluShr p n t) p (aluPort n 8) (fun _ => True) (aluEnd n t (fun o t => o >>> (t.toNat % 32))) ∧
    LaneDoes (.aluSra p n t) p (aluPort n 9) (fun _ => True) (aluEnd n t (fun o t => o.sshiftRight (t.toNat % 32))) ∧
    LaneDoes (.aluRotl p n t) p (aluPort n 10) (fun _ => True) (aluEnd n t (fun o t => o.rotateLeft (t.toNat % 32))) ∧
    LaneDoes (.aluEq p n t) p (aluPort n 11) (fun _ => True) (aluEnd n t (fun o t => if o = t then 1 else 0)) ∧
    LaneDoes (.aluLt p n t) p (aluPort n 12) (fun _ => True) (aluEnd n t (fun o t => if o.toInt < t.toInt then 1 else 0)) ∧
    LaneDoes (.aluLtu p n t) p (aluPort n 13) (fun _ => True) (aluEnd n t (fun o t => if o.toNat < t.toNat then 1 else 0)) ∧
    LaneDoes (.aluMin p n t) p (aluPort n 14) (fun _ => True) (aluEnd n t (fun o t => if o.toInt ≤ t.toInt then o else t)) ∧
    LaneDoes (.aluMax p n t) p (aluPort n 15) (fun _ => True) (aluEnd n t (fun o t => if o.toInt ≤ t.toInt then t else o))

/-- Whenever a MUL command acts, the next state differs from the one the trigger finds only in that mul.lo and mul.hi receive,
three cycles later, the low and high words of the exact 64-bit product of the operand and t: signed by signed, unsigned by
unsigned, signed by unsigned.
Rests on: R98, R120, 07_timing_tables.md. -/
def Obligations.MultiplierFormsTheExactProduct : Prop :=
  ∀ (p : Nat) (t : Word),
    LaneDoes (.mulMul p t) p 0x41 (fun _ => True) (fun now l => let r := BitVec.ofInt 64 (l.u.mulo.toInt * t.toInt)
      l.fly (now + 3) 2 (.mul (r.extractLsb' 0 32) (r.extractLsb' 32 32))) ∧
    LaneDoes (.mulMulu p t) p 0x42 (fun _ => True) (fun now l => let r := BitVec.ofInt 64 (l.u.mulo.toNat * t.toNat)
      l.fly (now + 3) 2 (.mul (r.extractLsb' 0 32) (r.extractLsb' 32 32))) ∧
    LaneDoes (.mulMulsu p t) p 0x43 (fun _ => True) (fun now l => let r := BitVec.ofInt 64 (l.u.mulo.toInt * t.toNat)
      l.fly (now + 3) 2 (.mul (r.extractLsb' 0 32) (r.extractLsb' 32 32)))

/-- Whenever an FPU command acts on a lane whose fpu.mode holds no reserved format, conversion or comparison for it, the next
state differs from the one the trigger finds only in that the result and the exception flags of the operation on the FPU
operands and t are in flight, due three cycles later (four for fma). A trigger with a reserved field is covered by the trap
statement.
Rests on: R100, R101, R102, R108, R109, R110. -/
def Obligations.FpuOperationsWriteTheirResult : Prop :=
  ∀ (p : Nat) (t : Word),
    LaneDoes (.fpuAdd p t) p 0x4A (fun l => fpuIllegal l.u.fmode 0 = false) (fun now l =>
      let r := fpuOp l.u.fmode 0 l.u.fo1 l.u.fo2 t
      l.fly (now + 3) 3 (.fpu r.1 r.2)) ∧
    LaneDoes (.fpuMul p t) p 0x4B (fun l => fpuIllegal l.u.fmode 1 = false) (fun now l =>
      let r := fpuOp l.u.fmode 1 l.u.fo1 l.u.fo2 t
      l.fly (now + 3) 3 (.fpu r.1 r.2)) ∧
    LaneDoes (.fpuFma p t) p 0x4C (fun l => fpuIllegal l.u.fmode 2 = false) (fun now l =>
      let r := fpuOp l.u.fmode 2 l.u.fo1 l.u.fo2 t
      l.fly (now + 4) 3 (.fpu r.1 r.2)) ∧
    LaneDoes (.fpuCvt p t) p 0x4D (fun l => fpuIllegal l.u.fmode 3 = false) (fun now l =>
      let r := fpuOp l.u.fmode 3 l.u.fo1 l.u.fo2 t
      l.fly (now + 3) 3 (.fpu r.1 r.2)) ∧
    LaneDoes (.fpuCmp p t) p 0x4E (fun l => fpuIllegal l.u.fmode 4 = false) (fun now l =>
      let r := fpuOp l.u.fmode 4 l.u.fo1 l.u.fo2 t
      l.fly (now + 3) 3 (.fpu r.1 r.2))

/-- Whenever a MAC command acts: mac.fK replaces accumulator K by the sum of R113 to R115 and shows it two cycles later with the
sticky status bits; mac.clr clears the accumulators that t[3:0] names, and the status bits when t[8] is set; mac.set loads
accumulator t[1:0] with the operand, zero-extended in the floating-point mode and sign-extended in the integer modes. Every
other lane and every other field are unchanged.
Rests on: R113, R114, R115, R117, R118. -/
def Obligations.MacCommandsUpdateAccumulators : Prop :=
  ∀ (p : Nat) (k : BitVec 2) (t : Word),
    LaneDoes (.macF p k t) p (0x52 + k.toNat) (fun l => macIllegal l.u.macmode = false) (fun now l =>
      let r := macStep l.u.macmode k.toNat (l.u.accAt k.toNat) l.u.maco t
      (l.setAcc now k.toNat r.1).fly (now + 2) 4 (.macst r.2)) ∧
    LaneDoes (.macClr p t) p 0x56 (fun _ => True) (fun now l =>
      let c := [0, 1, 2, 3].foldl (fun l k => if t.getLsbD k then l.setAcc now k 0 else l) l
      if t.getLsbD 8 then c.fly (now + 2) 4 .macstClr else c) ∧
    LaneDoes (.macSet p t) p 0x57 (fun l => macIllegal l.u.macmode = false) (fun now l =>
      l.setAcc now (t.toNat % 4)
        (if l.u.macmode.extractLsb' 0 2 = 0 then l.u.maco.zeroExtend 40 else l.u.maco.signExtend 40))

/-- On a lane with nothing in flight and no arrived word, a result due in cycle d leaves every port as it was for every cycle
before d, and from d on the lane is what delivering it makes of the lane: an ALU result in its result port, a product in
mul.lo and mul.hi, an FPU result with its flags added to the sticky flags. Of two results due in the same cycle to one port,
the later operation stands. A lane with nothing in flight, no arrived word, no forced drain, no boundary reached, and no trap,
frame or return in progress is not changed by being brought to the present cycle, nor is any other lane or field. With it,
what a command changes on the settled state is what it changes on the state itself.
Rests on: R45, R98, R110, R44, R48. -/
def Obligations.SettlingDeliversResultsInOrder : Prop :=
  (∀ (l : Lane) (d k u : Nat) (r r2 : Res), l.flight = [] → l.rly.moves = [] →
    (u < d → ((l.fly d k r).settle u).u = l.u ∧ ((l.fly d k r).settle u).flight = [⟨d, k, r⟩]) ∧
    (d ≤ u → (l.fly d k r).settle u = l.deliver r) ∧
    (d ≤ u → ((l.fly d k r).fly d k r2).settle u = (l.deliver r).deliver r2) ∧
    (∀ (n : Bool) v, d ≤ u → (if n then ((l.fly d k (.alu n v)).settle u).u.alu1r else ((l.fly d k (.alu n v)).settle u).u.alu0r) = v) ∧
    (∀ lo hi, d ≤ u → ((l.fly d k (.mul lo hi)).settle u).u.mulLo = lo ∧ ((l.fly d k (.mul lo hi)).settle u).u.mulHi = hi) ∧
    (∀ v f, d ≤ u → ((l.fly d k (.fpu v f)).settle u).u.fr = v ∧ ((l.fly d k (.fpu v f)).settle u).u.fflags = l.u.fflags ||| f)) ∧
  (∀ (s : State) (p : Nat), (s.lane p).flight = [] → (s.lane p).rly.moves = [] → (s.lane p).lsu.force = [] →
    (s.lane p).trap.due = none → (s.lane p).trap.ret = none → (s.lane p).trap.push = none →
    (∀ b, (s.lane p).ctl.bnd = some b → s.now < b) →
    s.LaneOnly (s.settle p) p (s.lane p))

/-- A jump, call or return that acts outside a delay slot, whose target is fetchable, aligned and inside fcap, and whose return
stack neither over- nor underflows where LANE_CFG traps that, leaves the fetch address, the return stack and every register as
they are and records the transfer with its target (for a return the popped entry) for the completion of the delay slot.
Rests on: R53, R54, R57, R58, R153. -/
def Obligations.TransfersWaitForTheirDelaySlot : Prop :=
  ∀ (p : Nat) (t : Word),
    LaneDoes (.ctlJump p t) p 0x64 (fun l => l.ctl.xfer = none ∧ targetBad p l t = false)
      (fun now l => { l with ctl := { l.ctl with xfer := some ⟨0, t, l.ctl.pc, now⟩ } }) ∧
    LaneDoes (.ctlCall p t) p 0x65 (fun l => l.ctl.xfer = none ∧ targetBad p l t = false ∧ ¬ (16 ≤ l.ctl.depth ∧ l.cfg.getLsbD 0 = true))
      (fun now l => { l with ctl := { l.ctl with xfer := some ⟨1, t, l.ctl.pc, now⟩ } }) ∧
    LaneDoes (.ctlRet p t) p 0x66
      (fun l => l.ctl.xfer = none ∧ targetBad p l l.popped = false ∧ ¬ (l.ctl.depth = 0 ∧ l.cfg.getLsbD 1 = true))
      (fun now l => { l with ctl := { l.ctl with xfer := some ⟨2, l.popped, l.ctl.pc, now⟩ } })

/-- Whenever they act: spl.chk leaves everything but the signature, which from the next cycle is the fold of R159 of the signature
and t; spl.cmp with t[31] set disarms the timer and ignores every other bit, and otherwise arms it with PER = t[30] and cycle
t[23:0], comparing from the next cycle.
Rests on: R158, R159. -/
def Obligations.SplitSignatureAndTimerCommands : Prop :=
  ∀ (p : Nat) (t : Word),
    LaneDoes (.splChk p t) p 0x69 (fun _ => True) (fun now l => l.fly (now + 1) 7 (.sig (sigFold l.spl.sig t))) ∧
    LaneDoes (.splCmp p t) p 0x6A (fun _ => True) (fun now l =>
      if t.getLsbD 31 then { l with spl := { l.spl with tmrArm := false } }
      else { l with spl := { l.spl with
        tmrArm := true, tmrPer := t.getLsbD 30, tmrCyc := t.extractLsb' 0 24, tmrFrom := now + 1 } })

/-- Whenever one of them acts with a source field of 8 or less, cap.r receives in the next cycle the position, base, limit,
permission word, tag, or length (at most 2^32 - 1) of the source capability, or the comparison of cB with it, and cap.st its
status. No capability register and no other state changes. Whenever one of them acts and its checks of R171 and R172 hold (an
unsealed source for SPOS, IPOS, SBND and APERM; bounds inside the source for SBND; the authority of cB for SEAL and UNSEAL;
SYS in fcap and a zero selector for RDSYS and WRSYS), the destination cD receives in the next cycle the capability the
operation defines, and cap.st its status; WRSYS loads TDT with the source. No other state changes.
Rests on: R170, R171, R173, R172. -/
def Obligations.CapabilityOperationsWriteTheirResult : Prop :=
  (∀ (p : Nat),
    LaneDoes (.gpos p) p 0x76 (fun l => capCs l ≤ 8)
      (capWordEnd (fun l => (csCap l).pos)) ∧
    LaneDoes (.gbase p) p 0x76 (fun l => capCs l ≤ 8)
      (capWordEnd (fun l => (csCap l).base)) ∧
    LaneDoes (.glim p) p 0x76 (fun l => capCs l ≤ 8)
      (capWordEnd (fun l => (csCap l).limit)) ∧
    LaneDoes (.gperm p) p 0x76 (fun l => capCs l ≤ 8)
      (capWordEnd (fun l => (csCap l).word0)) ∧
    LaneDoes (.gtag p) p 0x76 (fun l => capCs l ≤ 8)
      (capWordEnd (fun l => if (csCap l).tag then 1 else 0)) ∧
    LaneDoes (.glen p) p 0x76 (fun l => capCs l ≤ 8)
      (capWordEnd (fun l => BitVec.ofNat 32 (min ((csCap l).top - (csCap l).base.toNat) 4294967295))) ∧
    LaneDoes (.cmpb p) p 0x76 (fun l => capCs l ≤ 8) (capWordEnd (fun l => cmpbMask (cbCap l) (csCap l)))) ∧
  (∀ (p : Nat),
    LaneDoes (.move p) p 0x76 (fun l => capCs l ≤ 8) (capRegEnd csCap) ∧
    LaneDoes (.spos p) p 0x76 (fun l => capCs l ≤ 8 ∧ (csCap l).otype = 0) (capRegEnd (fun l => { csCap l with pos := l.u.capo })) ∧
    LaneDoes (.ipos p) p 0x76 (fun l => capCs l ≤ 8 ∧ (csCap l).otype = 0) (capRegEnd (fun l => { csCap l with pos := (csCap l).pos + l.u.capo })) ∧
    LaneDoes (.sbnd p) p 0x76 (fun l => capCs l ≤ 8 ∧ (csCap l).otype = 0 ∧ (csCap l).base.toNat ≤ (csCap l).pos.toNat ∧
        (csCap l).pos.toNat + l.u.capo.toNat ≤ (csCap l).top ∧ ¬ ((csCap l).pos = 0 ∧ l.u.capo = 0))
      (capRegEnd (fun l => { csCap l with base := (csCap l).pos, limit := (csCap l).pos + l.u.capo })) ∧
    LaneDoes (.aperm p) p 0x76 (fun l => capCs l ≤ 8 ∧ (csCap l).otype = 0)
      (capRegEnd (fun l => { csCap l with perms := (csCap l).perms &&& l.u.capo.extractLsb' 20 12 &&& 0xFFE })) ∧
    LaneDoes (.cltag p) p 0x76 (fun l => capCs l ≤ 8) (capRegEnd (fun l => { csCap l with tag := false })) ∧
    LaneDoes (.seal p) p 0x76 (fun l => capCs l ≤ 8 ∧ sealCheck l false = none)
      (capRegEnd (fun l => { csCap l with otype := (cbCap l).pos.extractLsb' 0 8 })) ∧
    LaneDoes (.unseal p) p 0x76 (fun l => capCs l ≤ 8 ∧ sealCheck l true = none) (capRegEnd (fun l => { csCap l with otype := 0 })) ∧
    LaneDoes (.rdsys p) p 0x76 (fun l => l.u.capo.extractLsb' 0 4 = 0 ∧ l.fcap.perm permSYS = true) (capRegEnd (fun l => l.tdt)) ∧
    LaneDoes (.wrsys p) p 0x76 (fun l => capCs l ≤ 8 ∧ l.u.capo.extractLsb' 0 4 = 0 ∧ l.fcap.perm permSYS = true)
      (fun now l => (l.fly (now + 1) 9 (.tdt (csCap l))).fly (now + 1) 9 (.capSt (csCap l).status)))

/-- For every CAP operation but RDSYS, whenever its checks hold, the capability it writes has a tag only if the source has one,
permissions that the source has, and bounds inside those of the source.
Rests on: R164, R166, R171, R172. -/
def Obligations.NoCapabilityGainsAuthority : Prop :=
  ∀ (l : Lane) (t : Word) (c : Cap), capCheck l t = none → t.toNat % 32 ≠ 0x11 → capResult l (t.toNat % 32) = some c →
    (c.tag = true → (csCap l).tag = true) ∧ c.perms &&& (csCap l).perms = c.perms ∧
    (csCap l).base.toNat ≤ c.base.toNat ∧ c.top ≤ (csCap l).top

/-- lsu.ld and lsu.lr that act, whose checks hold and whose address lies in home or the instruction store, after the drains they
wait for: the word of the bytes that the access finds (0 when a rod is uncorrectable), extended as the mode says, is in flight
to lsu.r, due two cycles later (three for a crossing load of the instruction store); the base is updated, lsu.ua is in flight;
lsu.lr has the reservation on its rod. Capabilities, general registers, guards, the store buffer and the data arrays are as
the trigger finds them, and every other lane as the reading of the bytes leaves it (an uncorrectable rod records an event,
which interrupts the stewards). lsu.ldc that acts and whose checks hold, after the drains it waits for: the capability of its
sixteen bytes with the tag of their half of the rod (null when the rod is uncorrectable) is in flight to cD, and its tag as 0
or 1 to lsu.r, both due two cycles later, no data array changes, and every other lane is as the reading of the bytes leaves
it. lsu.fence that acts, after the drain due in its cycle: every entry of the store buffer is to drain at once, and the lane
transports nothing until the cycle after their S drain cycles; nothing else changes.
Rests on: R129, R130, R134, R135, R137, R142, R146, R149, R144, R145, R148. -/
def Obligations.LoadsReservationsAndFences : Prop :=
  (∀ (s : State) (p : Nat) (t : Word),
    let load := fun (c : Instr) (d k : Nat) => s.Acts p d → lsuCheck (s.laneNow p) k t = none →
      buffered (lsuEa (s.laneNow p).u t).1.toNat = true →
      let v := ((s.settle p).drainHeld p d t).step2 p d
      let l := v.lane p
      let a := (lsuEa l.u t).1.toNat
      let n := lsuSize k l.u
      let y := loadBytes (v.setLane p (l.lsuUpdate v.now t)) p a n
      let x := y.1
      ∃ r, exec c s = .next r ∧
        ⟨v.now + (if lsuStall k a n = 2 then 3 else 2), 5, .lsuR (if x.2.2 then 0 else loadExt n (decide (k = 0) && l.u.lmode.getLsbD 2) x.1)⟩
          ∈ (r.lane p).flight ∧
        ⟨v.now + 1, 5, .lsuUa (lsuEa l.u t).2.2⟩ ∈ (r.lane p).flight ∧ (r.lane p).u.base = (lsuEa l.u t).2.1 ∧
        (r.lane p).lsu.rsv = (if k = 2 then some (a / 32 * 32) else l.lsu.rsv) ∧
        (r.lane p).w = l.w ∧ (r.lane p).g = l.g ∧ (r.lane p).c = l.c ∧ (r.lane p).lsu.sb = l.lsu.sb ∧
        (∀ q, q ≠ p → r.lane q = y.2.lane q) ∧
        ∀ q, (r.lmem q).h0 = (v.lmem q).h0 ∧ (r.lmem q).h1 = (v.lmem q).h1 ∧ (r.lmem q).is = (v.lmem q).is
    load (.lsuLd p t) 0x5C 0 ∧ load (.lsuLr p t) 0x5E 2) ∧
  (∀ (s : State) (p : Nat) (t : Word),
    (s.Acts p 0x60 → lsuCheck (s.laneNow p) 4 t = none →
      let v := ((s.settle p).drainHeld p 0x60 t).step2 p 0x60
      let l := v.lane p
      let a := (lsuEa l.u t).1.toNat
      let y := loadBytes (v.setLane p (l.lsuUpdate v.now t)) p a 16
      let x := y.1
      let tag := !x.2.2 && x.2.1.getLsbD (a % 32 / 16)
      ∃ r, exec (.lsuLdc p t) s = .next r ∧
        ⟨v.now + 2, 5, .capC (l.u.lmode.extractLsb' 12 3).toNat (if x.2.2 then nullCap else capOf x.1 tag)⟩ ∈ (r.lane p).flight ∧
        ⟨v.now + 2, 5, .lsuR (b2w tag)⟩ ∈ (r.lane p).flight ∧ (r.lane p).c = l.c ∧ (r.lane p).w = l.w ∧ (r.lane p).g = l.g ∧
        (∀ q, q ≠ p → r.lane q = y.2.lane q) ∧
        ∀ q, (r.lmem q).h0 = (v.lmem q).h0 ∧ (r.lmem q).h1 = (v.lmem q).h1 ∧ (r.lmem q).is = (v.lmem q).is) ∧
    (s.Acts p 0x62 →
      let v := ((s.settle p).step2 p 0x62).presentDrain p
      let l := v.lane p
      let S := sbLeft l.lsu.sb
      ∃ r, exec (.lsuFence p t) s = .next r ∧ (r.lane p).lsu.force = l.lsu.sb.map (fun e => (e.rod, e.alloc)) ∧
        v.now + S + 1 ≤ (r.lane p).ctl.stallUntil ∧ (r.lane p).w = l.w ∧ (r.lane p).g = l.g ∧ (r.lane p).u = l.u ∧ (r.lane p).c = l.c ∧
        (r.lane p).flight = l.flight ∧ (r.lane p).lsu.sb = l.lsu.sb ∧ (∀ q, q ≠ p → r.lane q = v.lane q) ∧
        { r with lanes := [] } = { v with lanes := [] }))

/-- A store whose checks hold, to home or the instruction store, with room in the store buffer, changes only its lane: the bytes
(the low bytes of lsu.data, or the sixteen bytes and the tag of the capability) enter the store buffer at the effective
address, which lsuEa computes from the units of the lane, the base is updated, and lsu.ua follows. No array of any lane, and
no other lane, changes. A store-conditional that acts, whose checks hold, and whose lane does not hold the reservation on the
rod of its word, changes only its lane: the base update, lsu.ua, lsu.scs = 0 two cycles later, and the reservation is cleared.
The store buffer and all memory are unchanged. A load or store that acts, whose checks hold and whose address lies in the lane
system block reads the system register of its index into lsu.r two cycles later, or writes it for moves of the next cycle,
past the store buffer; one to an unmapped address sets UNMAPPED, a load there shows 0, a store is discarded. Nothing else but
the base update and lsu.ua happens.
Rests on: R129, R130, R134, R139, R145, R147, R146, R124, R162. -/
def Obligations.StoresAndUnusualAccesses : Prop :=
  (∀ (p : Nat) (t : Word),
    LaneDoes (.lsuSt p t) p 0x5D
      (fun l => lsuCheck l 1 t = none ∧ lsuHold l 1 t = none ∧ buffered (lsuEa l.u t).1.toNat = true)
      (fun now l => let a := (lsuEa l.u t).1.toNat
        ((l.lsuUpdate now t).bufStore now a (leBytes l.u.data.toNat (lsuSize 1 l.u)) none).addStall now (lsuStall 1 a (lsuSize 1 l.u))) ∧
    LaneDoes (.lsuStc p t) p 0x61 (fun l => lsuCheck l 5 t = none ∧ lsuHold l 5 t = none)
      (fun now l => let c := l.cReg (l.u.lmode.extractLsb' 12 3).toNat
        (l.lsuUpdate now t).bufStore now (lsuEa l.u t).1.toNat c.bytes (some c.tag)) ∧
    LaneDoes (.lsuSc p t) p 0x5F
      (fun l => lsuCheck l 3 t = none ∧ lsuHold l 3 t = none ∧ l.lsu.rsv = some ((lsuEa l.u t).1.toNat / 32 * 32))
      (fun now l =>
        let b := (l.lsuUpdate now t).bufStore now (lsuEa l.u t).1.toNat (leBytes l.u.data.toNat 4) none
        { b.fly (now + 2) 5 (.scs 1) with lsu := { b.lsu with
          rsv := none, scUndo := some (now, (lsuEa l.u t).1.toNat / 32 * 32, l.lsu.sb) } })) ∧
  (∀ (p : Nat) (t : Word),
    LaneDoes (.lsuSc p t) p 0x5F (fun l => lsuCheck l 3 t = none ∧ l.lsu.rsv ≠ some ((lsuEa l.u t).1.toNat / 32 * 32))
      (fun now l =>
        let b := l.lsuUpdate now t
        { b.fly (now + 2) 5 (.scs 0) with lsu := { b.lsu with rsv := none } })) ∧
  (∀ (p : Nat) (t : Word),
    LaneDoes (.lsuLd p t) p 0x5C (fun l => lsuCheck l 0 t = none ∧ regionOf (lsuEa l.u t).1.toNat = .sysblk)
      (fun now l =>
        let b := (l.lsuUpdate now t).fly (now + 2) 5 (.lsuR (sysRead p l (((lsuEa l.u t).1.toNat - 0x18000) / 4)))
        { b with ctl := { b.ctl with lsuMark := now + 1 } }) ∧
    LaneDoes (.lsuSt p t) p 0x5D (fun l => lsuCheck l 1 t = none ∧ regionOf (lsuEa l.u t).1.toNat = .sysblk)
      (fun now l => (l.lsuUpdate now t).sysLater now (((lsuEa l.u t).1.toNat - 0x18000) / 4) l.u.data) ∧
    LaneDoes (.lsuLd p t) p 0x5C (fun l => lsuCheck l 0 t = none ∧ regionOf (lsuEa l.u t).1.toNat = .unmapped)
      (fun now l =>
        let b := l.lsuUpdate now t
        let b := { b with lsu := { b.lsu with unmapped := true } }
        let b := b.fly (now + 2) 5 (.lsuR 0)
        { b with ctl := { b.ctl with lsuMark := now + 1 } }) ∧
    LaneDoes (.lsuSt p t) p 0x5D (fun l => lsuCheck l 1 t = none ∧ regionOf (lsuEa l.u t).1.toNat = .unmapped)
      (fun now l => let b := l.lsuUpdate now t
        { b with lsu := { b.lsu with unmapped := true } }))

/-- For every load, store, reserve, conditional and capability access: an untagged authority capability gives trap 2, else a
sealed one trap 5, else a missing permission trap 4, else a misaligned or region-crossing address trap 12, else an address
outside the bounds trap 3, always with the effective address as the address word, and an access that passes them all is not
refused; a plain access with the reserved size raises trap 1 first; and lsu.fence is never refused.
Rests on: R128, R131, R133, R175. -/
def Obligations.AccessChecksComeInOrder : Prop :=
  ∀ (l : Lane) (op : Nat) (t : Word), op < 6 →
    let ea := (lsuEa l.u t).1
    let ci := (l.u.lmode.extractLsb' 8 3).toNat
    let au := l.cReg ci
    let n := lsuSize op l.u
    let placed := ea.toNat + n ≤ 2 ^ 32 ∧ regionOf ea.toNat = regionOf (ea.toNat + n - 1) ∧
      (2 ≤ op → ea.toNat % n = 0 ∧ regionOf ea.toNat = .home) ∧ (regionOf ea.toNat = .sysblk → n = 4 ∧ ea.toNat % 4 = 0)
    lsuCheck l 6 t = none ∧
    (op ≤ 1 → l.u.lmode.extractLsb' 0 2 = 3 → lsuCheck l op t = some ⟨1, 0, 0, ea⟩) ∧
    ((op ≤ 1 → l.u.lmode.extractLsb' 0 2 ≠ 3) →
    (au.tag = false → lsuCheck l op t = some ⟨2, ci, 0, ea⟩) ∧
    (au.tag = true → au.otype ≠ 0 → lsuCheck l op t = some ⟨5, ci, 0, ea⟩) ∧
    (au.tag = true → au.otype = 0 → lsuPerm l op ea.toNat au = false → lsuCheck l op t = some ⟨4, ci, 0, ea⟩) ∧
    (au.tag = true → au.otype = 0 → lsuPerm l op ea.toNat au = true →
      (¬ placed → lsuCheck l op t = some ⟨12, 0, 0, ea⟩) ∧
      (placed → ¬ (au.base.toNat ≤ ea.toNat ∧ ea.toNat + n ≤ au.top) → lsuCheck l op t = some ⟨3, ci, 0, ea⟩) ∧
      (placed → au.base.toNat ≤ ea.toNat → ea.toNat + n ≤ au.top → lsuCheck l op t = none)))

/-- Whenever ctl.sync acts, the drain due in its cycle is taken, every remaining store-buffer entry is to drain at once, nothing
fetched before stands, and the next instruction counts its issue cost from three cycles after the S drain cycles that remain;
whenever spl.wait acts, the entries are to drain in the same way and the lane then waits for the gun.
Rests on: R93, R148, R156, R203. -/
def Obligations.SyncAndWaitDrainAndHoldTheLane : Prop :=
  ∀ (s : State) (p : Nat) (t : Word),
    let after := fun (d : Nat) => ((s.settle p).step2 p d).presentDrain p
    (s.Acts p 0x67 → let v := after 0x67; let S := sbLeft (v.lane p).lsu.sb; ∃ r, exec (.ctlSync p t) s = .next r ∧ (r.lane p).ctl.fetched = [] ∧ (r.lane p).ctl.restart = true ∧
      (r.lane p).ctl.ready = v.now + S + 3 ∧ (r.lane p).mode = (v.lane p).mode ∧
      (r.lane p).lsu.force = (v.lane p).lsu.sb.map (fun e => (e.rod, e.alloc)) ∧ ∀ q, q ≠ p → r.lane q = v.lane q) ∧
    (s.Acts p 0x68 → let v := after 0x68; let S := sbLeft (v.lane p).lsu.sb; ∃ r, exec (.splWait p t) s = .next r ∧ (r.lane p).mode = .wait ∧
      v.now + S + 1 ≤ (r.lane p).ctl.stallUntil ∧
      (r.lane p).lsu.force = (v.lane p).lsu.sb.map (fun e => (e.rod, e.alloc)) ∧ ∀ q, q ≠ p → r.lane q = v.lane q)

/-- sys.wr that acts, with SYS in fcap where sys.sel names a register from 0x40 to 0xFF, changes only its lane, by a write of the
selected register that takes effect in the next cycle; without SYS there it raises trap 4 and writes nothing. A write of any
value to the identity and feature registers, LANE_ID, the trap counter, TDT, the split and relay counters, TEAM_INFO or a
reserved index leaves the lane exactly as it was.
Rests on: R65, R66, R174, R68, R71. -/
def Obligations.SystemRegisterWrites : Prop :=
  (∀ (p : Nat) (v : Word),
    LaneDoes (.sysWr p v) p 0x7F (fun l => needsSys l.u.syssel = true → l.fcap.perm permSYS = true)
      (fun now l => l.sysLater now l.u.syssel.toNat v) ∧
    ∀ s : State, s.Acts p 0x7F → needsSys (s.laneNow p).u.syssel = true → (s.laneNow p).fcap.perm permSYS = false →
      (s.laneNow p).trap.load8 = none →
      ∃ r, exec (.sysWr p v) s = .next r ∧ (s.settle p).LaneOnly r p
        ((s.laneNow p).raiseTrap ⟨4, 8, 4, 0⟩ (s.laneNow p).retPoint.1 (s.laneNow p).retPoint.2 ((s.settle p).now + 1))) ∧
  (∀ (l : Lane) (v : Word) (at_ i : Nat),
    i ∈ [0x000, 0x001, 0x002, 0x003, 0x004, 0x005, 0x006, 0x010, 0x012, 0x040, 0x041, 0x042, 0x043, 0x044, 0x04A, 0x04B, 0x083, 0x084, 0x085,
      0x091, 0x092, 0x093, 0x0C4, 0x0C5, 0x0C6, 0x0C7, 0x0C8, 0x0C9, 0x0D0, 0x118, 0x128, 0x3FF] → sysWrite l i v at_ = l)

/-- TRANSPORT_CYCLE and REP_ITERATION of a lane that is not running, or that has a trap due, answer the settled state: no
register, no memory and no fetch address moves. On a running lane with no trap due, no failed load and no transfer open,
TRANSPORT_CYCLE of an instruction without REP that is due, of which a steward holds the words, and which passes every check
lets its moves act and completes it; when it is a move of an immediate x to general register k, with no word arriving in the
cycle, register k holds x, every other register, the guards, the units, the capabilities and the traps are as they were, the
fetch address is that of the next instruction, and every other lane is as the reading of the words leaves it (which is the
settled state but for the interrupt of an event that an uncorrectable rod records). REP_ITERATION of a repetition whose moves
pass their checks performs one more iteration; when its move is that of an immediate, register k holds x, ctl.rc is one less,
and the repetition stands with the fetch address at it, or has ended with the fetch address after it when the count has come
to 0.
Rests on: R48, R52, R156, R192, R36, R44, R83, R84, R155, R177, R196. -/
def Obligations.TransportCycleRunsTheInstructionDue : Prop :=
  (∀ (s : State) (p : Nat), s.pwr.inReset = false →
    ((s.laneNow p).mode ≠ .run ∨ (s.laneNow p).trap.due.isSome = true) →
    exec (.transportCycle p) s = .next (s.settle p) ∧ exec (.repIteration p) s = .next (s.settle p)) ∧
  (∀ (s : State) (p : Nat), s.pwr.inReset = false →
    let u := s.settle p
    let l := u.lane p
    let quiet := l.ctl.xfer = none ∧ l.ctl.after = none ∧ ∀ m ∈ l.rly.moves, m.at_ ≠ u.now
    l.mode = .run → l.trap.due = none → l.trap.load8 = none →
    (∀ i vals l2, l.ctl.rep = none → fetchInsn u p l = .inr i → l.earliest i.len ≤ u.now → (u.stewFetch p i.len).2 = true →
      let v := (u.stewFetch p i.len).1
      let m := v.lane p
      m.interlocked v.now i.moves = false → wordBad m i = false → i.rep = none → v.plan p i.moves = .go vals l2 →
      exec (.transportCycle p) s = .next
        (((v.setLane p { m with ctl := { m.ctl with resumeRc := none } }).fetchUse p i.len).act p vals l2
          (m.ctl.pc + BitVec.ofNat 32 (4 * i.len)))) ∧
    (∀ n k x, k < 32 → quiet → l.ctl.rep = none → fetchInsn u p l = .inr ⟨n, [⟨k, .imm x, none⟩], none, false⟩ →
      l.earliest n ≤ u.now → (u.stewFetch p n).2 = true →
      let v := (u.stewFetch p n).1
      let w := (v.setLane p { v.lane p with ctl := { (v.lane p).ctl with resumeRc := none } }).fetchUse p n
      ∃ r, exec (.transportCycle p) s = .next r ∧ (∀ j, getW (r.lane p).w j = if j = k then x else getW l.w j) ∧
        (r.lane p).ctl.pc = l.ctl.pc + BitVec.ofNat 32 (4 * n) ∧ (r.lane p).g = l.g ∧ (r.lane p).u = l.u ∧ (r.lane p).c = l.c ∧
        (r.lane p).trap = l.trap ∧ (r.lane p).mode = .run ∧ ∀ q, q ≠ p → r.lane q = w.lane q) ∧
    (∀ r vals l2, l.ctl.rep = some r → l.ctl.ready + 1 ≤ u.now → l.ctl.stallUntil ≤ u.now → u.plan p r.moves = .go vals l2 →
      exec (.repIteration p) s = .next (u.iterate p r (.go vals l2))) ∧
    (∀ r k x, k < 32 → quiet → l.ctl.rep = some r → r.moves = [⟨k, .imm x, none⟩] → l.ctl.ready + 1 ≤ u.now → l.ctl.stallUntil ≤ u.now →
      ∃ t, exec (.repIteration p) s = .next t ∧ (∀ j, getW (t.lane p).w j = if j = k then x else getW l.w j) ∧
        (t.lane p).ctl.rc = l.ctl.rc - 1 ∧ (1 < l.ctl.rc → (t.lane p).ctl.pc = r.addr ∧ (t.lane p).ctl.rep = some r) ∧
        (l.ctl.rc ≤ 1 → (t.lane p).ctl.pc = r.next ∧ (t.lane p).ctl.rep = none) ∧ (t.lane p).g = l.g ∧ (t.lane p).u = l.u ∧
        (t.lane p).c = l.c ∧ (t.lane p).trap = l.trap ∧ (t.lane p).mode = .run ∧ ∀ q, q ≠ p → t.lane q = u.lane q))

/-- The acting of a word that holds one move of the value v to register k, on a lane with no word arriving and no open transfer:
register k holds v, every other register, the guards, every unit, the capabilities, the traps and the store buffer are as
before, the fetch address is the next one, and every other lane and every other field is unchanged.
Rests on: R36, R44, R53, R60. -/
def Obligations.RegisterMoveWritesOneRegister : Prop :=
  ∀ (s : State) (p k : Nat) (v next : Word) (g : Option (Nat × Bool)), k < 32 → (s.lane p).ctl.xfer = none → (s.lane p).rly.moves = [] →
    let r := s.act p [(⟨k, .imm v, g⟩, v)] ((s.lane p).writePort k v) next
    (∀ j, getW (r.lane p).w j = if j = k then v else getW (s.lane p).w j) ∧ (r.lane p).ctl.pc = next ∧
    (r.lane p).g = (s.lane p).g ∧ (r.lane p).u = (s.lane p).u ∧ (r.lane p).c = (s.lane p).c ∧ (r.lane p).trap = (s.lane p).trap ∧
    (r.lane p).lsu = (s.lane p).lsu ∧ (r.lane p).mode = (s.lane p).mode ∧ (∀ q, q ≠ p → r.lane q = s.lane q) ∧
    { r with lanes := [] } = { s with lanes := [] }

/-- RESULT_READY brings the lane to the present cycle. When the check of a unit disagrees with a result that became readable in
this cycle, or a residue, parity or copy of the storage of the lane does, the sticky flag and the event bit are set, the
counter advances up to its limit, and trap 9 is raised for the next cycle where it is enabled, and nothing else changes. With
no disagreement, with no result that became readable now, and on a lane held in reset or fenced, nothing changes.
Rests on: R45, R120, R160, R161, R239. -/
def Obligations.SelfCheckMismatchIsFlagged : Prop :=
  ∀ (s : State) (p : Nat), s.pwr.inReset = false →
    let u := s.settle p
    let l := s.laneNow p
    let flags := fun (c : LaneCheck) => ∃ r, exec (.resultReady p c) s = .next r ∧ u.LaneOnly r p (l.selfCheck u.now) ∧
      (r.lane p).spl.flag = true ∧ (r.lane p).spl.schkEvt = true ∧ (r.lane p).spl.schkCnt = sat1 l.spl.schkCnt ∧
      (l.spl.schkTrap = true → ⟨u.now + 1, 13, .schk9⟩ ∈ (r.lane p).flight)
    exec (.resultReady p .agree) s = .next u ∧
    (l.mode ≠ .held → l.mode ≠ .fenced → flags .storage ∧ (l.ctl.shownAt = u.now + 1 → flags .result)) ∧
    (l.ctl.shownAt ≠ u.now + 1 → exec (.resultReady p .result) s = .next u) ∧
    (∀ c, l.mode = .held ∨ l.mode = .fenced → exec (.resultReady p c) s = .next u)

/-- trap.t of a value from 64 to 255 that acts outside a delay slot makes exactly that trap due at the next cycle on the lane,
with the address after the instruction as return point; any other value makes trap 1 due with the instruction itself as return
point. Nothing else changes. When fpu.mode holds a reserved field for the operation, or mac.mode holds the reserved mode, the
trigger command answers the settled state in which lane p has trap 1 due at the next cycle (no load of the lane having failed
before) and nothing else has changed: no result is in flight for it.
Rests on: R54, R56, R185, R190, R101, R112. -/
def Obligations.TriggersThatRaiseATrap : Prop :=
  (∀ (s : State) (p : Nat) (t : Word), s.Acts p 0x70 → (s.laneNow p).ctl.xfer = none → (s.laneNow p).trap.load8 = none →
    let l := s.laneNow p
    (64 ≤ t.toNat → t.toNat ≤ 255 → ∃ r, exec (.trapT p t) s = .next r ∧
      (s.settle p).LaneOnly r p (l.raiseTrap ⟨t.toNat, 0, 0, 0⟩ l.ctl.pc none ((s.settle p).now + 1))) ∧
    ((t.toNat < 64 ∨ 255 < t.toNat) → ∃ r, exec (.trapT p t) s = .next r ∧
      (s.settle p).LaneOnly r p (l.raiseTrap ⟨1, 0, 0, 0⟩ l.retPoint.1 l.retPoint.2 ((s.settle p).now + 1)))) ∧
  (∀ (s : State) (p : Nat) (t : Word) (kk : BitVec 2), s.pwr.inReset = false → (s.laneNow p).stopped = false →
    (s.laneNow p).trap.load8 = none →
    let trapped := fun (c : Instr) => ∃ r, exec c s = .next r ∧ (s.settle p).LaneOnly r p
      ((s.laneNow p).raiseTrap ⟨1, 0, 0, 0⟩ (s.laneNow p).retPoint.1 (s.laneNow p).retPoint.2 ((s.settle p).now + 1))
    (fpuIllegal (s.laneNow p).u.fmode 0 = true → trapped (.fpuAdd p t)) ∧
    (fpuIllegal (s.laneNow p).u.fmode 1 = true → trapped (.fpuMul p t)) ∧
    (fpuIllegal (s.laneNow p).u.fmode 2 = true → trapped (.fpuFma p t)) ∧
    (fpuIllegal (s.laneNow p).u.fmode 3 = true → trapped (.fpuCvt p t)) ∧
    (fpuIllegal (s.laneNow p).u.fmode 4 = true → trapped (.fpuCmp p t)) ∧
    (macIllegal (s.laneNow p).u.macmode = true → trapped (.macF p kk t) ∧ trapped (.macSet p t)))

/-- TRAP_ENTRY of a lane whose wait is over and whose descriptor can be used enters: fcap and the fetch address are the code
capability of the descriptor, c7 its stack at the frame address, TRAP_CUR, trap.cause and trap.addr say what was taken, the
mask follows the descriptor, the reservation clears, no transfer or repetition stands, and the frame is to be written three
cycles after the descriptor read. The general registers, the guards, the return stack, every unit port and every other lane
are unchanged.
Rests on: R180, R182, R184, R186, R205. -/
def Obligations.TrapEntryLoadsTheHandler : Prop :=
  ∀ (s : State) (p : Nat) (q : TrapReq) (a : Nat) (heat : Word) (cyc : Nat) (d : Desc), s.pwr.inReset = false →
    (s.laneNow p).trap.due = some q → q.a = some (a, heat, cyc) → q.b + a ≤ (s.settle p).now → q.n ≠ 0 →
    let v := (s.settle p).entryStart p q
    let w := (readDesc v p q.n).2
    (readDesc v p q.n).1 = (0, some d) →
    ∃ r, exec (.trapEntry p) s = .next r ∧
      let l := w.lane p
      let m := r.lane p
      m.fcap = d.code ∧ m.ctl.pc = d.code.pos ∧ m.cReg 7 = { d.stack with pos := frameAddr (l.cReg 7) d.stack } ∧
      m.trap.curNum = BitVec.ofNat 8 q.n ∧ m.trap.cause = causeWord q ∧ m.trap.addr = q.addr ∧ m.trap.due = none ∧
      m.trap.mask = maskFix l.stw (if d.flags.getLsbD 9 then l.trap.mask &&& d.mask else d.mask) ∧
      m.trap.push = some ⟨q.b + a + 3, (frameAddr (l.cReg 7) d.stack).toNat, frameRods l q (d.flags.toNat % 256) heat cyc⟩ ∧
      m.lsu.rsv = none ∧ m.ctl.xfer = none ∧ m.ctl.rep = none ∧ m.mode = .run ∧
      m.w = l.w ∧ m.g = l.g ∧ m.u = l.u ∧ m.ctl.rstk = l.ctl.rstk ∧ ∀ i, i ≠ p → r.lane i = w.lane i

/-- Whenever trap.ret acts outside a delay slot and its checks on c7 hold, the drain due in its cycle is taken, every other entry
is to drain at once, the reservation is cleared, and the frame is read in the cycle after the S drain cycles that remain; no
register has been restored yet. Restoring a lane from a frame sets fcap, the fetch address, c7, c1, the guards, the mask,
TRAP_CUR, trap.cause and trap.addr from the words of the frame, limits the return-stack depth to 16, resumes a repetition that
was in progress, and leaves the general registers, every unit port, the other capabilities and the return-stack entries as
they are.
Rests on: R187, R203, R207, R188. -/
def Obligations.TrapReturnRestoresTheFrame : Prop :=
  (∀ (s : State) (p : Nat) (t : Word), s.Acts p 0x71 → (s.laneNow p).ctl.xfer = none → retCheck (s.laneNow p) = none →
    let v := ((s.settle p).step2 p 0x71).presentDrain p
    ∃ r, exec (.trapRet p t) s = .next r ∧ (r.lane p).lsu.rsv = none ∧
      (r.lane p).trap.ret = some (v.now + sbLeft (v.lane p).lsu.sb + 1, ((v.lane p).cReg 7).pos) ∧
      (r.lane p).lsu.force = (v.lane p).lsu.sb.map (fun e => (e.rod, e.alloc)) ∧ (r.lane p).w = (v.lane p).w ∧ (r.lane p).g = (v.lane p).g ∧
      (r.lane p).c = (v.lane p).c ∧ (r.lane p).fcap = (v.lane p).fcap ∧ (r.lane p).u = (v.lane p).u ∧ ∀ q, q ≠ p → r.lane q = v.lane q) ∧
  (∀ (l : Lane) (r : Nat) (fc c7 c1 : Cap) (w1 w2 : List Byte),
    let m := l.restore r fc c7 c1 w1 w2
    m.fcap = fc ∧ m.ctl.pc = fc.pos ∧ m.cReg 7 = (if c7.tag then c7 else nullCap) ∧ m.cReg 1 = (if c1.tag then c1 else nullCap) ∧
    (∀ k, k ≠ 1 → k ≠ 7 → m.cReg k = l.cReg k) ∧ m.g = (leWordAt w1 28).extractLsb' 0 4 ∧ m.ctl.depth ≤ 16 ∧
    m.trap.mask = maskFix l.stw (leWordAt w2 0) ∧ m.trap.cause = leWordAt w1 16 &&& 0x00FFFFFF ∧ m.trap.addr = leWordAt w1 20 ∧
    m.trap.curNum = (leWordAt w1 28).extractLsb' 16 8 ∧ m.trap.curOt = (leWordAt w1 28).extractLsb' 24 8 ∧
    ((leWordAt w1 24).getLsbD 31 = true → m.ctl.resumeRc = some ((leWordAt w1 24).toNat % 65536)) ∧
    m.w = l.w ∧ m.u = l.u ∧ m.ctl.rstk = l.ctl.rstk ∧ m.lsu = l.lsu)

/-- FENCE_REPORT_POST of a lane whose report is ready, with channel 64 free and no lower lane waiting, puts the eight words and
the GO of length 8 on the mailbox path, to stand at the block 24 cycles later, and the lane has no report waiting. Nothing
else changes.
Rests on: R193, R393. -/
def Obligations.FenceReportIsPostedOnChannel64 : Prop :=
  ∀ (s : State) (p : Nat) (ws : List Word), s.pwr.inReset = false → (s.lane p).trap.fence = some ws → (s.lane p).trap.fenceAt ≤ s.now →
    s.fenceTurn p = true →
    let l := s.lane p
    let u := s.setLane p { l with trap := { l.trap with fence := none } }
    exec (.fenceReportPost p) s = .next { u with mail := { u.mail with
      path := s.mail.path ++ ws.zipIdx.map (fun q => ⟨64, s.now + 24, .wr q.2 q.1⟩) ++ [⟨64, s.now + 24, .go 8 0⟩] } }

/-- With a drain of this cycle already done nothing more drains; otherwise the entry that is due performs one drain cycle, its
array and the cycle are marked as used; with no entry due the state is only brought to the present cycle. The drain cycle of
an entry whose 32 bytes are valid stores them at its rod, with each tag cleared, kept or set as the entry says, removes that
entry from the buffer of its lane, and changes no other lane register, no other lane and nothing outside the memory blocks.
Rests on: R140, R142, R148, R145. -/
def Obligations.StoreBufferDrains : Prop :=
  (∀ (s : State) (p : Nat), s.pwr.inReset = false →
    let u := s.settleBuf p
    ((u.lane p).lsu.drainAt = u.now + 1 → exec (.storeBufferDrain p) s = .next u) ∧
    ((u.lane p).lsu.drainAt ≠ u.now + 1 → drainPick u p = none → exec (.storeBufferDrain p) s = .next u) ∧
    (∀ j, (u.lane p).lsu.drainAt ≠ u.now + 1 → drainPick u p = some j →
      exec (.storeBufferDrain p) s = .next (((u.drainUse p j).drainStep p j).drained p))) ∧
  (∀ (s : State) (p j : Nat) (e : SbEntry), (s.lane p).lsu.sb[j]? = some e → e.full = true →
    let r := s.drainStep p j
    let old := (s.rodPeek p e.rod).tags
    let tag := fun (k : Nat) (act : Option Bool) => act.getD (old.getLsbD k)
    (∃ t : BitVec 2, t.getLsbD 0 = tag 0 e.tag0 ∧ t.getLsbD 1 = tag 1 e.tag1 ∧ r.mems = (s.laneWrite p e.rod (rodBytes e.data) t false).mems) ∧
    r.lane p = { s.lane p with lsu := { (s.lane p).lsu with sb := (s.lane p).lsu.sb.eraseIdx j } } ∧ (∀ q, q ≠ p → r.lane q = s.lane q) ∧
    { r with lanes := [], mems := [] } = { s with lanes := [], mems := [] })

/-- For a lane stalled on a remote access whose transactions have all been answered: the answers are taken, the access is over and
the lane goes on with what waited for it, else runs; of a load, lsu.r receives in the next cycle the bytes answered, extended
as the access says, or 0 after an error or poison; an error sets UNMAPPED; no general register and no other lane changes
(unless a row read here is uncorrectable, whose event may interrupt stewards). With a response outstanding the lane stays
stalled and nothing changes. A rod of a steward access to steward memory that port A can take, the last of a load, completes
it in the same way.
Rests on: R138, R251, R292, R293. -/
def Obligations.RemoteAccessEndsWithItsResponses : Prop :=
  ∀ (s : State) (p : Nat) (ra : RemoteAcc), s.pwr.inReset = false → (s.laneNow p).mode = .remote → (s.laneNow p).lsu.remote = some ra →
    let u := s.settle p
    let l := u.lane p
    let shows := fun (code : BitVec 2) (d : List Byte) => (⟨u.now + 1, 5, .lsuR (if code = 2 ∨ code = 3 then 0 else loadExt ra.size ra.sx d)⟩ : Flight)
    let ends := fun (code : BitVec 2) (d : List Byte) (sound : Bool) (r : State) => (r.lane p).mode = l.ctl.after.getD .run ∧ (r.lane p).lsu.remote = none ∧
      (r.lane p).lsu.unmapped = (l.lsu.unmapped || decide (code = 2)) ∧ (ra.store = false → shows code d ∈ (r.lane p).flight) ∧
      (r.lane p).w = l.w ∧ (r.lane p).g = l.g ∧ (r.lane p).c = l.c ∧ (r.lane p).u = l.u ∧ (sound = true → ∀ q, q ≠ p → r.lane q = u.lane q)
    (ra.left = [] →
      let got := ra.ids.filterMap (fun i => u.fab.done.find? (fun r => decide (r.id = i)))
      (got.length < ra.ids.length → exec (.remoteAccessDone p) s = .next u) ∧
      (got.length = ra.ids.length → ∃ r, exec (.remoteAccessDone p) s = .next r ∧
        ends (got.foldl (fun c r => if r.code = 2 then 2 else if r.code = 3 ∧ c ≠ 2 then 3 else c) 0) (got.flatMap (fun r => r.data)) true r ∧
        r.fab.done = u.fab.done.filter (fun x => !ra.ids.contains x.id))) ∧
    (∀ rod o n, ra.left = [(rod, o, n)] → ra.store = false → u.sm.retry = [] → u.portAFree rod false = true → collides u.sm.lastB u.now rod false = false →
      let x := readRow u.sm.arr smRows rod
      ∃ r, exec (.remoteAccessDone p) s = .next r ∧
        ends (if x.bad then 3 else ra.bad) (ra.data ++ (x.data.drop o).take n) (!x.bad) r)

/-- rly.send of a field lane with RLY in fcap adds exactly one word, with the check bits of its value and due in the next cycle at
the input of the squad router of its lane, and changes nothing else on the state as the trigger finds it; on a steward the
word is discarded and counted as unslotted; without RLY trap 4 is raised at the next cycle and no word is added. RLY_RX_READ
by a lane with RLY answers the head of the receive queue and removes it; on an empty queue it answers 0, removes nothing and
sets UNF. RLY_FLUSH by a lane with SYS puts a write of RLY_CTRL on its way to the next cycle, and that write, with FLUSH set,
empties the queue. No other lane and no other state changes.
Rests on: R213, R214, R221, R66, R223, R224. -/
def Obligations.RelaySendAndReceiveQueue : Prop :=
  (∀ (s : State) (p : Nat) (v : Word), s.Acts p 0x78 →
    let u := (s.settle p).step2 p 0x78
    let l := s.laneNow p
    (l.fcap.perm permRLY = true → isStw p = false →
      ∃ r, exec (.rlySend p v) s = .next r ∧ r = { u with relay := { u.relay with words := u.relay.words ++
        [⟨.atRouter (.squad (p / 17)) (p % 17), u.now + 1, v, rlyCheck v, false, some p, none, false⟩] } }) ∧
    (l.fcap.perm permRLY = true → isStw p = true →
      ∃ r, exec (.rlySend p v) s = .next r ∧
        u.LaneOnly r p { u.lane p with rly := { (u.lane p).rly with unslot := sat1 (u.lane p).rly.unslot } }) ∧
    (l.fcap.perm permRLY = false → l.trap.load8 = none → exec (.rlySend p v) s = .next
      ((s.settle p).setLane p (l.raiseTrap ⟨4, 8, 4, 0⟩ l.retPoint.1 l.retPoint.2 ((s.settle p).now + 1))))) ∧
  (∀ (s : State) (p : Nat), s.pwr.inReset = false → (s.laneNow p).stopped = false →
    let u := s.settle p
    let l := s.laneNow p
    (∀ v r, l.fcap.perm permRLY = true → l.rly.rx = v :: r →
      exec (.rlyRxRead p) s = .next ((u.setLane p { l with rly := { l.rly with rx := r } }).answer 0 v)) ∧
    (l.fcap.perm permRLY = true → l.rly.rx = [] →
      exec (.rlyRxRead p) s = .next ((u.setLane p { l with rly := { l.rly with unf := true } }).answer 0 0)) ∧
    (∀ v, l.fcap.perm permSYS = true → ∃ t, exec (.rlyFlush p v) s = .next t ∧ u.LaneOnly t p (l.sysLater u.now 0xC1 v) ∧
      ∀ (m : Lane) k, v.getLsbD 0 = true → sysWrite m 0xC1 v k = { m with rly := { m.rly with rx := [] } }))

/-- A word with its own check decodes to itself with neither counter advanced, and a word with any one data bit inverted decodes
to the sound word, counted as corrected and not as uncorrectable. The word that stands at an input is taken from it; it is
checked once, its router counts a corrected or uncorrectable error, and one copy with the corrected data goes onward for each
output that selects the input, but for those whose entry or directory reads uncorrectable, which select nothing. With no
selecting output a word sent by a lane counts as its unslotted send, and a word from another router, at a squad or field input
that no other output took, as a drop of the router that forwarded it.
Rests on: R214, R215, R218, R219, R220, R221, R254. -/
def Obligations.RelayHopChecksAndForwards : Prop :=
  (∀ (v : Word), rlyDecode v (rlyCheck v) = (v, rlyCheck v, false, false) ∧
    ∀ j, j < 32 → rlyDecode (v ^^^ (1 <<< j)) (rlyCheck v) = (v, rlyCheck v, true, false)) ∧
  (∀ (s : State) (r : RouterId) (i : Nat) (bad : List Nat) (w : RWord), s.pwr.inReset = false →
    s.relay.words.find? (atInput s.now r i) = some w →
    let d := rlyDecode w.data w.check
    let e := s.tableUe r bad
    let c := e.rcnt r
    let u := e.setRcnt r { c with ce := if d.2.2.1 then sat1 c.ce else c.ce, ue := if d.2.2.2 then sat1 c.ue else c.ue }
    let rest := e.relay.words.filter (fun x => decide (x ≠ w))
    let outs := ((List.range (nOuts r)).filter (fun n => !bad.contains n)).filterMap (fun n => (takes u r n i).map (fun e => (n, e)))
    let copies := outs.flatMap (fun q => (onward r q.1 q.2 u.now).map (fun l =>
      (⟨l.1, l.2, d.1, d.2.1, w.poison || d.2.2.2, none, some r, false⟩ : RWord)))
    (outs ≠ [] → exec (.relayHop r ⟨i, bad⟩) s = .next { u with relay := { u.relay with words := markPassed r i w.due rest ++ copies } }) ∧
    (∀ p, outs = [] → w.src = some p → ∃ t, exec (.relayHop r ⟨i, bad⟩) s = .next t ∧ t.relay.words = rest ∧
      (t.lane p).rly.unslot = sat1 (u.lane p).rly.unslot) ∧
    (∀ q, outs = [] → w.src = none → w.prev = some q → w.taken = false → (∀ f, r ≠ .ring f) → ∃ t, exec (.relayHop r ⟨i, bad⟩) s = .next t ∧
      t.relay.words = rest ∧ (t.rcnt q).drop = sat1 (u.rcnt q).drop))

/-- RELAY_ARRIVAL takes the word due at the lane off the network. A held or fenced lane leaves it to the drop counter of its squad
router; a poisoned or uncorrectable word advances RLY_UE_CNT and is a self-check event and neither enters the queue nor moves;
any other is recorded for its action (queue or remote move) in this cycle.
Rests on: R215, R222, R226. -/
def Obligations.RelayArrivalReachesTheLane : Prop :=
  ∀ (s : State) (p : Nat) (w : RWord) (mode : Bool) (dp : Nat), s.pwr.inReset = false →
    s.relay.words.find? (fun w => (match w.loc with | .atLane q _ _ => decide (q = p) | _ => false) && decide (w.due ≤ s.now)) = some w →
    w.loc = .atLane p mode dp →
    let s1 := { s with relay := { s.relay with words := s.relay.words.filter (fun x => decide (x ≠ w)) } }
    let u := s1.settleBuf p
    let l := u.lane p
    let d := rlyDecode w.data w.check
    ((l.mode = .held ∨ l.mode = .fenced) → exec (.relayArrival p) s = .next (u.rdrop (.squad (p / 17)))) ∧
    (l.mode ≠ .held → l.mode ≠ .fenced → (w.poison = true ∨ d.2.2.2 = true) → exec (.relayArrival p) s = .next
      (u.setLane p ({ l with rly := { l.rly with ue := sat1 l.rly.ue } }.selfCheck u.now))) ∧
    (l.mode ≠ .held → l.mode ≠ .fenced → w.poison = false → d.2.2.2 = false → ∃ t, exec (.relayArrival p) s = .next t ∧
      (t.lane p).rly.moves = l.rly.moves ++ [⟨if mode then dp else 128, d.1, u.now⟩] ∧ (t.lane p).w = l.w ∧
      ∀ q, q ≠ p → t.lane q = u.lane q)

/-- A move to mbx.wr or mbx.go that acts with MBX in fcap, on the state as the trigger finds it: a lane that does not send on the
channel only gets NOCHAN; while FULL shows at the sender, or before MBX_LOCK, the write is discarded, BUSY is set and BUSY_CNT
advances; a GO of a length outside 8 to 16 only sets BADLEN; otherwise the word, or the GO with the length and the epoch of
the sender, is on the path and reaches the block 24 cycles later, and after a GO the view of the sender shows FULL with its
other bits clear.
Rests on: R378, R381, R383, R384, R385. -/
def Obligations.MailboxWritesAndPostsTravel : Prop :=
  ∀ (s : State) (p : Nat) (v : Word),
    (s.laneNow p).fcap.perm permMBX = true →
    (s.Acts p 0x7B →
      let u := (s.settle p).step2 p 0x7B
      let c := chanNo (u.lane p)
      let ch := u.chan c
      (u.isSender p c = false → exec (.mbxWr p v) s = .next (u.setNochan p true)) ∧
      (u.isSender p c = true → u.drives p c = true → (ch.sFull = true ∨ u.mail.lock = false) →
        exec (.mbxWr p v) s = .next ((u.setNochan p false).setChan c { ch with busy := true, sBusy := true, busyCnt := sat1 ch.busyCnt })) ∧
      (u.isSender p c = true → u.drives p c = true → ch.sFull = false → u.mail.lock = true →
        exec (.mbxWr p v) s = .next ((u.setNochan p false).mpath ⟨c, u.now + 24, .wr (chanWord (u.lane p)) v⟩))) ∧
    (s.Acts p 0x7C →
      let u := (s.settle p).step2 p 0x7C
      let c := chanNo (u.lane p)
      let ch := u.chan c
      let n := (v.extractLsb' 0 5).toNat
      (u.isSender p c = false → exec (.mbxGo p v) s = .next (u.setNochan p true)) ∧
      (u.isSender p c = true → u.drives p c = true → (ch.sFull = true ∨ u.mail.lock = false) →
        exec (.mbxGo p v) s = .next ((u.setNochan p false).setChan c { ch with busy := true, sBusy := true, busyCnt := sat1 ch.busyCnt })) ∧
      (u.isSender p c = true → u.drives p c = true → ch.sFull = false → u.mail.lock = true → ¬ (8 ≤ n ∧ n ≤ 16) →
        exec (.mbxGo p v) s = .next ((u.setNochan p false).setChan c { ch with badlen := true, sBadlen := true })) ∧
      (u.isSender p c = true → u.drives p c = true → ch.sFull = false → u.mail.lock = true → 8 ≤ n → n ≤ 16 →
        exec (.mbxGo p v) s = .next (((u.setNochan p false).setChan c { ch with
          sFull := true, sBadlen := false, sBusy := false, sDropped := false, badlen := false, busy := false, dropped := false }).mpath
            ⟨c, u.now + 24, .go n ch.epoch⟩)))

/-- MBX_POST_ARRIVE of a channel with one due word or GO on its path, not inside a discard window and with FULL clear, writes the
word, or sets FULL at the block and in the copy of the receiver with the length and the epoch and advances POST_CNT; one that
finds FULL set only sets BUSY and advances BUSY_CNT. MBX_RELEASE_ARRIVE clears FULL at the block and in the copy of the
receiver, and in the view of the sender when that part is due. The item has left the path. MBX_RD_READ by a lane with MBX: a
lane that does not receive on the channel reads 0 and gets NOCHAN; the receiver reads the word, 0 at or above LEN while a
message waits; reading word LEN - 1 while FULL shows clears the copy of the receiver and sends the release to the block, and
clears nothing else; any other word releases nothing.
Rests on: R385, R386, R391, R382, R383. -/
def Obligations.MailboxDeliveryAndRelease : Prop :=
  (∀ (s : State) (c due w n : Nat) (v : Word) (ep : BitVec 8), s.pwr.inReset = false → due ≤ s.now →
    let ch := s.chan c
    let s0 := { s with mail := { s.mail with path := [] } }
    (s.mail.path = [⟨c, due, .wr w v⟩] → ch.discardTo ≤ due → ch.full = false →
      exec (.mbxPostArrive c) s = .next (s0.setChan c { ch with data := putW ch.data w v })) ∧
    (s.mail.path = [⟨c, due, .wr w v⟩] → ch.discardTo ≤ due → ch.full = true →
      exec (.mbxPostArrive c) s = .next (s0.setChan c { ch with busy := true, sBusy := true, busyCnt := sat1 ch.busyCnt })) ∧
    (s.mail.path = [⟨c, due, .go n ep⟩] → ch.discardTo ≤ due → ch.full = false →
      ∃ t, exec (.mbxPostArrive c) s = .next t ∧ t.mail.path = [] ∧
        t.chan c = { ch with full := true, rFull := true, len := n, msgEpoch := ep, postCnt := sat1 ch.postCnt }) ∧
    (s.mail.path = [⟨c, due, .go n ep⟩] → ch.discardTo ≤ due → ch.full = true →
      exec (.mbxPostArrive c) s = .next (s0.setChan c { ch with busy := true, sBusy := true, busyCnt := sat1 ch.busyCnt })) ∧
    (s.mail.path = [⟨c, due, .release⟩] → exec (.mbxReleaseArrive c) s = .next (s0.setChan c { ch with full := false, rFull := false })) ∧
    (s.mail.path = [⟨c, due, .viewClear⟩] → exec (.mbxReleaseArrive c) s = .next (s0.setChan c { ch with sFull := false }))) ∧
  (∀ (s : State) (p : Nat), s.pwr.inReset = false → (s.laneNow p).stopped = false → (s.laneNow p).fcap.perm permMBX = true →
    let u := s.settle p
    let c := chanNo (s.laneNow p)
    let w := chanWord (s.laneNow p)
    let ch := u.chan c
    let v := if ch.rFull = true ∧ ch.len ≤ w then 0 else getW ch.data w
    (u.isReceiver p c = false → exec (.mbxRdRead p) s = .next ((u.setNochan p true).answer 0 0)) ∧
    (u.isReceiver p c = true → ch.rFull = true → w + 1 = ch.len → exec (.mbxRdRead p) s = .next
      (((((u.setNochan p false).setChan c { ch with rFull := false }).mpath ⟨c, u.now + 24, .release⟩).mpath
        ⟨c, u.now + 48, .viewClear⟩).answer 0 v)) ∧
    (u.isReceiver p c = true → (ch.rFull = false ∨ w + 1 ≠ ch.len) →
      exec (.mbxRdRead p) s = .next ((u.setNochan p false).answer 0 v)))

/-- mbx.wait of the receiver of a channel that shows no message stops transport of its lane; with a message there the lane goes
on; a lane that does not receive only gets NOCHAN. MBX_WAIT_END of a lane that waits lets it go on from the next cycle (with
the wait of an spl.wait that acted beside it) exactly when its view shows FULL, with a boundary there unless a transfer still
has its delay slot to come or a wait follows, and leaves every other lane alone.
Rests on: R387. -/
def Obligations.MailboxWaitHoldsTheReceiver : Prop :=
  ∀ (s : State) (p : Nat) (v : Word),
    (s.Acts p 0x7D → (s.laneNow p).fcap.perm permMBX = true →
      let u := (s.settle p).step2 p 0x7D
      let c := chanNo (u.lane p)
      (u.isReceiver p c = false → exec (.mbxWait p v) s = .next (u.setNochan p true)) ∧
      (u.isReceiver p c = true → (u.chan c).rFull = true → exec (.mbxWait p v) s = .next (u.setNochan p false)) ∧
      (u.isReceiver p c = true → (u.chan c).rFull = false →
        ∃ r, exec (.mbxWait p v) s = .next r ∧ u.LaneOnly r p { u.lane p with nochan := false, mode := .mbxWait })) ∧
    (let u := s.settle p
     let l := s.laneNow p
     s.pwr.inReset = false → l.mode = .mbxWait →
      ((u.chan (chanNo l)).rFull = true → exec (.mbxWaitEnd p) s = .next (u.setLane p { l with
        mode := l.ctl.after.getD .run
        ctl := { l.ctl with stallUntil := max l.ctl.stallUntil (u.now + 1), after := none
                            bnd := if l.ctl.xfer.isSome || l.ctl.after.isSome then none else some (u.now + 1) } })) ∧
      ((u.chan (chanNo l)).rFull = false → exec (.mbxWaitEnd p) s = .next u))

/-- MBX_FABRIC_GO by the sender of a channel, as a whole word, with MBX_LOCK set, FULL clear and a length of 8 to 16, sets FULL at
the block and in the copies with that length, advances POST_CNT and answers OK; MBX_FABRIC_READ by the receiver answers the
word and, at word LEN - 1 with all byte lanes, clears FULL everywhere. A master that is not the bound identity receives ERR,
which the fabric counts and records, and changes nothing else. Before MBX_LOCK a steward write of a binding that R377 allows
sets V and both identities of that channel and nothing else, and a steward write of MBX_LOCK with bit 0 sets LOCK; from then
every write to a binding or to MBX_LOCK changes nothing but the answer. A master that is not a steward receives ERR, which the
fabric counts and records.
Rests on: R377, R381, R382, R392, R378, R394. -/
def Obligations.MailboxFabricAndBindings : Prop :=
  (∀ (s : State) (m : BitVec 11) (c w : Nat) (be : BitVec 4) (v : Word), s.pwr.inReset = false → c < 64 →
    let ch := s.chan c
    let n := (v.extractLsb' 0 5).toNat
    let x := if ch.full = true ∧ ch.len ≤ w then 0 else getW ch.data w
    ((ch.bindV = false ∨ s.masterIs m ch.sender.toNat = false) → exec (.mbxFabricGo m c be v) s = .next ((s.answer 2 0).reported m 17 (0x48000044 + 0x400 * c))) ∧
    (ch.bindV = true → s.masterIs m ch.sender.toNat = true → s.mail.lock = true → ch.full = false → 8 ≤ n → n ≤ 16 →
      ∃ t, exec (.mbxFabricGo m c 0xF v) s = .next t ∧ t.resp = ⟨0, 0⟩ ∧ (t.chan c).full = true ∧ (t.chan c).rFull = true ∧ (t.chan c).sFull = true ∧
        (t.chan c).len = n ∧ (t.chan c).msgEpoch = ch.epoch ∧ (t.chan c).postCnt = sat1 ch.postCnt ∧ (t.chan c).data = ch.data) ∧
    ((ch.bindV = false ∨ s.masterIs m ch.receiver.toNat = false) → exec (.mbxFabricRead m c w be) s =
      .next ((s.answer 2 0).reported m 17 (0x48000000 + 0x400 * c + 4 * w))) ∧
    (ch.bindV = true → s.masterIs m ch.receiver.toNat = true → ch.full = true → w + 1 = ch.len →
      exec (.mbxFabricRead m c w 0xF) s = .next ((s.setChan c { ch with full := false, rFull := false, sFull := false }).answer 0 x)) ∧
    (ch.bindV = true → s.masterIs m ch.receiver.toNat = true → (ch.full = false ∨ w + 1 ≠ ch.len ∨ be ≠ 0xF) →
      exec (.mbxFabricRead m c w be) s = .next (s.answer 0 x))) ∧
  (∀ (s : State) (m : BitVec 11) (c : Nat) (v : Word), s.pwr.inReset = false →
    (isStwMaster m = true → s.mail.lock = true →
      exec (.bind m c v) s = .next (s.answer 0 0) ∧ exec (.mbxLock m v) s = .next (s.answer 0 0)) ∧
    (isStwMaster m = true → s.mail.lock = false →
      (v.getLsbD 31 = true → bindBad s c (v.extractLsb' 16 11).toNat (v.extractLsb' 0 11).toNat = false) →
      exec (.bind m c v) s = .next ((s.setChan c { s.chan c with
        bindV := v.getLsbD 31, sender := v.extractLsb' 16 11, receiver := v.extractLsb' 0 11 }).answer 0 0)) ∧
    (isStwMaster m = true → s.mail.lock = false → v.getLsbD 0 = true →
      ∃ t, exec (.mbxLock m v) s = .next t ∧ t.mail = { s.mail with lock := true } ∧ t.resp = ⟨0, 0⟩ ∧ t.lanes = s.lanes) ∧
    (isStwMaster m = false → exec (.bind m c v) s = .next ((s.answer 2 0).reported m 17 (0x4800004C + 0x400 * c)) ∧
      exec (.mbxLock m v) s = .next ((s.answer 2 0).reported m 17 0x480003FC)))

/-- SCRUB_VISIT in the cool-down of a lane whose scrub is enabled and has not visited in this heat scrubs the next row of each
array, moves both row positions on, round the 1,048 and 536 physical rows, counts a sweep when the last home row was visited,
and marks the heat; with a MEM_CMD waiting the row that it names is remapped in its array instead and the positions stay.
Outside that window nothing happens. MEM_CMD by a steward for a field lane, with GO set, an array of 0 to 2 and a row in
service of it, records that remap and answers OK; a write by another master, without GO, or naming no such row, changes
nothing but the answer. SHARER_ACCESS with the array idle and one request pending takes that request off the port and serves
it: a write of a whole rod without a signature, served in time over sound hops, stores the rod, clears a reservation of the
lane on it, and leaves the port empty and every other lane as it was. With the array used in this cycle, or nothing pending,
only the lane is brought to the present cycle. SM_BUSY_RETRY of the one access refused in an earlier cycle performs it on its
port when that is free, never refusing it again: a read of port B leaves the list and answers its requester OK_BUSY with the
bytes of its rod, or POISON when the rod is uncorrectable. With none waiting, or only one refused in this very cycle, nothing
happens. SM_SCRUB that is due, in a cycle that neither port uses, scrubs its row, moves to the next of the 32,832 physical
rows and is due again 1,024 cycles later; before it is due, or while a port has its access, nothing happens.
Rests on: R244, R245, R258, R146, R248, R249, R250, R251, R252, R292. -/
def Obligations.MemoryScrubRemapAndSharing : Prop :=
  (∀ (s : State) (p : Nat) (h0 h1 hi : Bool), s.pwr.inReset = false →
    let m := s.lmem p
    (s.scrubOpen p = false → exec (.scrubVisit p h0 h1 hi) s = .next s) ∧
    (s.scrubOpen p = true → m.cmd = none → ∃ t, exec (.scrubVisit p h0 h1 hi) s = .next t ∧
      (t.lmem p).row = (m.row + 1) % 1048 ∧ (t.lmem p).rowIs = (m.rowIs + 1) % 536 ∧
      (t.lmem p).sweeps = (if m.row = 1047 then m.sweeps + 1 else m.sweeps) ∧
      (t.lmem p).visited = s.pacer.heatNum.toNat + 1 ∧
      (t.lmem p).h0 = (scrubRow m.h0 1024 24 m.row h0 m.remapAuto).arr ∧ (t.lmem p).h1 = (scrubRow m.h1 1024 24 m.row h1 m.remapAuto).arr ∧
      (t.lmem p).is = (scrubRow m.is 512 24 m.rowIs hi m.remapAuto).arr) ∧
    (∀ k row, s.scrubOpen p = true → m.cmd = some (k, row) → ∃ t, exec (.scrubVisit p h0 h1 hi) s = .next t ∧ (t.lmem p).cmd = none ∧
      (k < 3 → (t.lmem p).arr k = ((m.arr k).remapRow (arrRows k) 24 row).1) ∧ (t.lmem p).row = m.row ∧ (t.lmem p).rowIs = m.rowIs)) ∧
  (∀ (s : State) (m : BitVec 11) (p : Nat) (v : Word), s.pwr.inReset = false →
    let k := (v.extractLsb' 29 2).toNat
    let row := (v.extractLsb' 0 10).toNat
    (isStwMaster m = true → v.getLsbD 31 = true → k < 3 → row < arrRows k → p < 1088 →
      exec (.memCmd m p v) s = .next ((s.setLmem p { s.lmem p with cmd := some (k, row) }).answer 0 0)) ∧
    ((isStwMaster m = false ∨ v.getLsbD 31 = false ∨ 3 ≤ k ∨ arrRows k ≤ row ∨ 1088 ≤ p) →
      exec (.memCmd m p v) s = .next (s.answer 0 0))) ∧
  (∀ (s : State) (p k : Nat) (hop : HopErr) (r : ShReq) (rod : Rod), s.pwr.inReset = false → k < 3 →
    let u := s.settle p
    let m := u.lmem p
    let l := u.lane p
    (u.shareIdle p k = false → exec (.sharerAccess p ⟨k, hop⟩) s = .next u) ∧
    (u.shareIdle p k = true → (m.sp k).pend = [] → (m.sp k).ingest = [] → exec (.sharerAccess p ⟨k, hop⟩) s = .next u) ∧
    (u.shareIdle p k = true → (m.sp k).pend = [r] → (m.sp k).ingest = [] → u.inOrder r = true →
      exec (.sharerAccess p ⟨k, hop⟩) s = .next ((u.setLmem p (m.setSp k { m.sp k with pend := [] })).serve p k r hop)) ∧
    (u.shareIdle p k = true → (m.sp k).pend = [r] → (m.sp k).ingest = [] → r.kind = .write rod fullMask none false → r.sig = none →
      r.fab = none → r.deadline = none → hop = noHopErr → l.mode ≠ .held → l.lsu.scUndo = none →
      ∃ t, exec (.sharerAccess p ⟨k, hop⟩) s = .next t ∧
        t.mems = (((u.setLmem p (m.setSp k { m.sp k with pend := [] })).setLmem p
          ((m.setSp k { m.sp k with pend := [] }).useShare k u.now 1)).rodWrite p (rodAddr k r.rod) (rodBytes rod) 0 false).mems ∧
        (t.lane p).lsu.rsv = (if l.lsu.rsv = some (rodAddr k r.rod) then none else l.lsu.rsv) ∧
        (t.lane p).w = l.w ∧ (t.lane p).g = l.g ∧ (t.lane p).c = l.c ∧ (t.lane p).u = l.u ∧ ∀ q, q ≠ p → t.lane q = u.lane q)) ∧
  (∀ (s : State) (q : SmReq) (b : FRod) (hard : Bool), s.pwr.inReset = false →
    let t := { s with sm := { s.sm with retry := [] } }
    let rod := (q.addr - 0x40000000) / 32
    let x := readRow s.sm.arr smRows rod
    (s.sm.retry = [] → exec .smBusyRetry s = .next s) ∧
    (s.sm.retry = [q] → s.now ≤ q.at_ → exec .smBusyRetry s = .next s) ∧
    (s.sm.retry = [q] → q.at_ < s.now → q.portA = true → s.portAFree rod q.write = true →
      exec .smBusyRetry s = .next ((t.portAMeet rod q.write true).1.portAStep q.who)) ∧
    (s.sm.retry = [q] → q.at_ < s.now → q.portA = false → s.sm.scrubNow s.now = false → usedAt s.sm.lastB s.now = false → q.write = false →
      s.fab.bridge = [b] → b.id = q.who → b.drop = false →
      ∃ r, exec .smBusyRetry s = .next r ∧ r.sm.retry = [] ∧ r.sm.arr = s.sm.arr ∧ r.fab.bridge = [] ∧
        r.fab.resps = s.fab.resps ++ [{ id := b.id, master := b.master, target := b.target, addr := b.addr, write := b.write
                                        code := if x.bad then 3 else 1
                                        data := if x.bad then List.replicate q.be.length 0 else (x.data.drop (q.addr % 32)).take q.be.length }]) ∧
    ((s.now < s.sm.scrubAt ∨ usedAt s.sm.lastA s.now = true ∨ usedAt s.sm.lastB s.now = true) → exec (.smScrub hard) s = .next s) ∧
    (s.sm.scrubAt ≤ s.now → usedAt s.sm.lastA s.now = false → usedAt s.sm.lastB s.now = false →
      ∃ r, exec (.smScrub hard) s = .next r ∧ r.sm.arr = (scrubRow s.sm.arr smRows 64 s.sm.row hard true).arr ∧ r.sm.row = (s.sm.row + 1) % 32832 ∧ r.sm.scrubAt = s.sm.scrubAt + 1024))

/-- A first edge inside the window (any edge in ACQUIRE) on an input in use is recorded as the edge of this heat, and one outside
it, a second one, or one with another reference selected changes nothing; a Sync of the domain and port that PTP_CFG names
sets the disciplined clock to its time and, with IEEE 1588 as source, PHASE_ERR to the error of the last gun against it, and
any other Sync changes nothing; the loss of the Sync reference while it is in use raises PACER_PTP_LOST and, from ACQUIRE or
LOCKED, enters FLYWHEEL with its count at 0. A steward write sets RUN when the pacer is stopped, clears it when no contract is
in effect, asks for a rephase when no contract is live and the pacer follows a reference (the heat then lasts from L to 2L − 1
lc, to the place that the reference gives where the pacer holds it), and arms APPLY with the high word; a stop with a contract
in effect, and any of these writes by another master, sets EVENTS.REFUSED and changes nothing else. A read of HEAT_NUM_LO
answers the low word and latches the high one.
Rests on: R13, R14, R15, R16, R17, R18, R21, R20, R23, R33, R34. -/
def Obligations.PacerReferencesAndRegisters : Prop :=
  (∀ (s : State) (frac : BitVec 4) (y : PtpTime) (ns : BitVec 30) (n : Nat),
    s.pwr.inReset = false →
    let p := s.pacer
    let only := fun (t : State) => { t with pacer := p } = s
    (p.state ≠ .stopped → p.src = 1 → p.inputs ≠ 2 → (p.state = .acquire ∨ (p.edgeOfs frac).natAbs ≤ 16 * p.tickWin) → p.edgeA = none →
      (∃ t, exec (.tickEdge false frac) s = .next t ∧ t.pacer.edgeA = some (p.edgeOfs frac) ∧ t.pacer.edgeB = p.edgeB ∧ only t) ∧
      (p.rephase = none → exec (.tickEdge false frac) s = .next { s with pacer := { p with edgeA := some (p.edgeOfs frac) } })) ∧
    (p.state ≠ .stopped → p.src = 1 → p.inputs ≠ 1 → (p.state = .acquire ∨ (p.edgeOfs frac).natAbs ≤ 16 * p.tickWin) → p.edgeB = none →
      (∃ t, exec (.tickEdge true frac) s = .next t ∧ t.pacer.edgeB = some (p.edgeOfs frac) ∧ t.pacer.edgeA = p.edgeA ∧ only t) ∧
      (p.rephase = none → exec (.tickEdge true frac) s = .next { s with pacer := { p with edgeB := some (p.edgeOfs frac) } })) ∧
    (∀ b, (p.state = .stopped ∨ p.src ≠ 1 ∨ (if b then p.edgeB else p.edgeA).isSome = true ∨
        (p.state ≠ .acquire ∧ 16 * p.tickWin < (p.edgeOfs frac).natAbs)) → exec (.tickEdge b frac) s = .next s) ∧
    (s.ptpHears y = false → exec (.ptpSync y ns) s = .next s) ∧
    (s.ptpHears y = true →
      let x := (y.sec.toNat * 1000000000 + ns.toNat) * 5
      (∃ t, exec (.ptpSync y ns) s = .next t ∧ t.pacer.ptpT = x ∧ t.pacer.ptpSeen = true ∧ t.pacer.ptpNew = true ∧
        (p.src = 2 → p.open_ = true → p.firstGun = none →
          t.pacer.phaseErr = 4 * ((x : Int) - 4 * (p.elapsed : Int) - (p.target p.heatNum.toNat : Int))) ∧ only t) ∧
      (p.src ≠ 2 → p.rephase = none →
        exec (.ptpSync y ns) s = .next { s with pacer := { p with ptpT := x, ptpSeen := true, ptpNew := true } })) ∧
    (p.src = 2 → p.state ≠ .stopped → (p.ptpCfg.extractLsb' 4 4).toNat ≤ n → ∃ t, exec (.pacerPtpLost (.intervals n)) s = .next t ∧
      t.pacer.ptpSeen = false ∧ t.pacer.events.getLsbD 7 = true ∧
      ((p.state = .acquire ∨ p.state = .locked) → t.pacer.state = .flywheel ∧ t.pacer.flyCnt = 0))) ∧
  (∀ (s : State) (m : BitVec 11) (ph : Nat) (v : Word), s.pwr.inReset = false →
    let p := s.pacer
    let refused := { s with pacer := { p with events := p.events ||| 0x200 } }
    (isStwMaster m = false → exec (.pacerRun m) s = .next refused ∧ exec (.pacerStop m) s = .next refused ∧
      exec (.rephase m ph) s = .next refused ∧ exec (.applyHiWrite m v) s = .next refused) ∧
    (isStwMaster m = true → p.run = false → ∃ t, exec (.pacerRun m) s = .next t ∧ t.pacer.run = true ∧
      t.pacer.state = (if p.src = 0 then .internal else .acquire) ∧ { t with pacer := p } = s) ∧
    (isStwMaster m = true → p.run = true → s.anyRunning = true → exec (.pacerStop m) s = .next refused) ∧
    (isStwMaster m = true → p.run = true → s.anyRunning = false → ∃ t, exec (.pacerStop m) s = .next t ∧ t.pacer.run = false ∧
      t.pacer.state = .stopped ∧ t.pacer.heatNum = p.heatNum ∧ { t with pacer := p } = s) ∧
    (isStwMaster m = true → s.anyLive = false → s.anyRunning = false → p.state ≠ .stopped → p.state ≠ .internal →
      (0 < p.heatLen → ∃ t n, exec (.rephase m ph) s = .next t ∧ t.pacer.rephase = some n ∧ p.heatLen ≤ n ∧ n < 2 * p.heatLen ∧
        { t with pacer := p } = s) ∧
      (p.refAt = none → p.firstGun = none →
        exec (.rephase m ph) s = .next { s with pacer := { p with rephase := some (p.heatLen + ph % p.heatLen) } })) ∧
    (isStwMaster m = true → exec (.applyHiWrite m v) s = .next { s with pacer := { p with applyHi := v, applyArmed := true } }) ∧
    exec (.heatNumLoRead m) s = .next ({ s with pacer := { p with hiLatch := some (p.heatNum.extractLsb' 32 32) } }.answer 0
      (p.heatNum.extractLsb' 0 32)))

/-- PACER_LOCKED takes ACQUIRE to LOCKED after 16 heats in lock; PACER_UNLOCK takes LOCKED to ACQUIRE after 4 heats beyond the
limit; PACER_REACQUIRE takes FLYWHEEL or FREERUN to ACQUIRE after 4 valid references; PACER_FREERUN takes FLYWHEEL to FREERUN
at its limit. Each sets its event bit where the spec names one, and when its condition does not hold nothing changes. When the
two circuits differ in their gun, heat number, state or trim, neither is disabled and no earlier disagreement is on record,
the gun and the values of circuit 0 stand, or of circuit 1 when only circuit 0 carries a flag, the event is raised, and the
other circuit is to be reloaded, and no gun that was due is withheld; equal circuits change nothing. In the next cool-down a
reload that succeeds ends it, and one that fails leaves that circuit disabled.
Rests on: R21, R22, R35, R24. -/
def Obligations.PacerStatesAndCircuits : Prop :=
  (∀ (s : State), s.pwr.inReset = false →
    let p := s.pacer
    (p.state = .acquire → 16 ≤ p.lockRun → ∃ t, exec .pacerLocked s = .next t ∧ t.pacer.state = .locked ∧ t.pacer.events.getLsbD 5 = true) ∧
    (¬ (p.state = .acquire ∧ 16 ≤ p.lockRun) → exec .pacerLocked s = .next s) ∧
    (p.state = .locked → 4 ≤ p.unlockRun → ∃ t, exec .pacerUnlock s = .next t ∧ t.pacer.state = .acquire ∧ t.pacer.events.getLsbD 6 = true) ∧
    (¬ (p.state = .locked ∧ 4 ≤ p.unlockRun) → exec .pacerUnlock s = .next s) ∧
    ((p.state = .flywheel ∨ p.state = .freerun) → 4 ≤ p.validRun →
      exec .pacerReacquire s = .next { s with pacer := p.enter .acquire }) ∧
    (¬ ((p.state = .flywheel ∨ p.state = .freerun) ∧ 4 ≤ p.validRun) → exec .pacerReacquire s = .next s) ∧
    (p.state = .flywheel → p.flyLimit ≤ p.flyCnt →
      ∃ t, exec .pacerFreerun s = .next t ∧ t.pacer.state = .freerun ∧ t.pacer.events.getLsbD 4 = true) ∧
    (¬ (p.state = .flywheel ∧ p.flyLimit ≤ p.flyCnt) → exec .pacerFreerun s = .next s)) ∧
  (∀ (s : State) (c0 c1 : CircView) (k : Bool), s.pwr.inReset = false →
    let p := s.pacer
    (c0.gun = c1.gun → c0.heatNum = c1.heatNum → c0.state = c1.state → c0.trim = c1.trim → exec (.pacerCircDisagree c0 c1) s = .next s) ∧
    (p.single = false → (c0.gun ≠ c1.gun ∨ c0.heatNum ≠ c1.heatNum ∨ c0.state ≠ c1.state ∨ c0.trim ≠ c1.trim) → p.lastDis = none →
      let v := if c0.flag = true ∧ c1.flag = false then c1 else c0
      ∃ t, exec (.pacerCircDisagree c0 c1) s = .next t ∧ t.pacer.heatNum = v.heatNum ∧ t.pacer.state = PState.ofCode v.state.toNat ∧
        t.pacer.trim = max (-100000) (min 100000 v.trim) ∧ t.pacer.events.getLsbD 8 = true ∧
        t.pacer.reload = some (!(c0.flag && !c1.flag)) ∧ t.pacer.single = false ∧
        (p.run = true → (p.gunDue s.now = true ∨ (c0.gun ≠ c1.gun ∧ v.gun = true)) → t.pacer.gunDue t.now = true)) ∧
    (p.reload = some k → s.cooling = true → exec (.pacerCircReload true) s = .next { s with pacer := { p with reload := none } }) ∧
    (p.reload = some k → s.cooling = true → ∃ t, exec (.pacerCircReload false) s = .next t ∧ t.pacer.single = true ∧
      t.pacer.disabled = some k ∧ t.pacer.reload = none) ∧
    (s.cooling = false → exec (.pacerCircReload true) s = .next s ∧ exec (.pacerCircReload false) s = .next s))

/-- QDR_INIT by a steward on a channel that no contract uses takes the new frequency and density and starts initialisation at step
1 where a device is present; by another master, or on a channel in use, it only sets REFUSED. QDR_READY takes it on: to a
later step that has passed, to READY with zero contents and no remap at step 11, or to FAILED at a step that can fail.
QDR_CTRL_FAIL by a steward takes a channel to FAILED with its replay and its due work dropped and its contents kept.
Rests on: R266, R270, R273, R281. -/
def Obligations.QdrChannelLifeCycle : Prop :=
  ∀ (s : State) (m : BitVec 11) (k n : Nat) (eyes : List EyeMeas), s.pwr.inReset = false →
    let q := s.qch k
    ((isStwMaster m = false ∨ s.chanUsed k = true) →
      exec (.qdrInit m k) s = .next (s.setQch k { q with events := q.events ||| 0x40 })) ∧
    (isStwMaster m = true → s.chanUsed k = false → ∃ t, exec (.qdrInit m k) s = .next t ∧ (t.qch k).freqF = q.freq ∧
      (t.qch k).densF = q.dens ∧ (t.qch k).state = (if q.present then 1 else 0) ∧ (t.qch k).initStep = (if q.present then 1 else 0) ∧
      ∀ j, j ≠ k → t.qch j = s.qch j) ∧
    (q.state = 1 → q.initStep < n → n < 11 → ∃ t, exec (.qdrReady k ⟨n, true, eyes⟩) s = .next t ∧ (t.qch k).initStep = n ∧
      (t.qch k).state = 1 ∧ (t.qch k).cells = q.cells ∧ { t with qdr := s.qdr } = s) ∧
    (q.state = 1 → q.initStep < 11 → ∃ t, exec (.qdrReady k ⟨11, true, eyes⟩) s = .next t ∧ (t.qch k).initStep = 11 ∧
      (t.qch k).state = 2 ∧ (t.qch k).cells = [] ∧ (t.qch k).remap = []) ∧
    (q.state = 1 → q.initStep < n → n < 12 → initCanFail n = true → ∃ t, exec (.qdrReady k ⟨n, false, eyes⟩) s = .next t ∧
      (t.qch k).state = 3 ∧ (t.qch k).initStep = n) ∧
    ((q.state ≠ 1 ∨ n ≤ q.initStep) → ∀ ok, exec (.qdrReady k ⟨n, ok, eyes⟩) s = .next s) ∧
    (isStwMaster m = true → q.state ≠ 3 → ∃ t, exec (.qdrCtrlFail m k) s = .next t ∧ (t.qch k).state = 3 ∧ (t.qch k).replay = [] ∧
      (t.qch k).dueRetrain = false ∧ (t.qch k).dueZq = false ∧ (t.qch k).cells = q.cells)

/-- In the cool-down of a READY channel, in the cycle that follows the steps before it, from cycle 64 on: kept writes are
performed again first, oldest first, in 48 cycles; a good retraining that is due, with no replay left and time for it, takes
320 cycles, counts and clears the run of failures; a calibration that is due, with neither before it and time, takes 64; scrub
then runs once and moves its position on by the rods it read. In any other cycle each of the four changes nothing. An address-
parity report on a READY channel sets its event, counts, restores what the accesses of the last 16 QDR clocks found, with the
writes that go back to a read among them, and keeps the other writes among them, oldest first, for the replay; a write that
reached another index leaves there what that index reads uncorrectable. On a channel that is not READY nothing changes.
Rests on: R267, R268, R269, R272, R265, R273. -/
def Obligations.QdrMaintenanceAndAddressParity : Prop :=
  (∀ (s : State) (k : Nat) (eyes : List EyeMeas) (drift : Bool) (hard : List Nat), s.pwr.inReset = false →
    let q := s.qch k
    let turn := s.cooling = true ∧ s.coolCyc = 64 + q.used ∧ q.state = 2
    (¬ turn → exec (.qdrWriteReplay k) s = .next s ∧ exec (.qdrRetrain k eyes drift) s = .next s ∧
      exec (.qdrZqCalibration k) s = .next s ∧ exec (.qdrScrub k hard) s = .next s) ∧
    (turn → q.replay ≠ [] → q.used = 0 → exec (.qdrWriteReplay k) s = .next (s.setQch k { q with
      cells := q.replay.foldl (fun c a => match a.new with | some d => mwrite c (36 * a.idx) d | none => c) q.cells
      replay := [], used := 48, busyTo := s.now + 48 })) ∧
    (turn → q.dueRetrain = true → q.replay = [] → q.fits s.D 320 = true → drift = true →
      eyes.all (fun e => decide (8 ≤ e.eye)) = true → ∃ t, exec (.qdrRetrain k eyes drift) s = .next t ∧ (t.qch k).dueRetrain = false ∧
        (t.qch k).used = q.used + 320 ∧ (t.qch k).busyTo = s.now + 320 ∧ (t.qch k).retrainCnt = sat1 q.retrainCnt ∧ (t.qch k).failRun = 0 ∧
        (t.qch k).cells = q.cells ∧ { t with qdr := s.qdr } = s) ∧
    (turn → q.dueZq = true → q.replay = [] → (q.dueRetrain && q.fits s.D 320) = false → q.fits s.D 64 = true →
      exec (.qdrZqCalibration k) s = .next (s.setQch k { q with dueZq := false, used := q.used + 64, busyTo := s.now + 64 })) ∧
    (turn → q.scrubEn = true → q.scrubbed = false → q.replay = [] → (q.dueRetrain && q.fits s.D 320) = false →
      (q.dueZq && q.fits s.D 64) = false → ∃ t, exec (.qdrScrub k hard) s = .next t ∧ (t.qch k).scrubbed = true ∧
        (t.qch k).scrubPos = (q.scrubPos + q.scrubCount s.D) % q.limit)) ∧
  (∀ (s : State) (k : Nat) (n j : Nat) (x : QAcc), s.pwr.inReset = false →
    let q := s.qch k
    let c := s.qclock k s.now
    let near := fun (t : Nat) => decide (c ≤ t + 16) && decide (t < c)
    let undone := fun (a : QAcc) => match a.readAt with | some t => near t | none => false
    let hit := q.recent.filter (fun a => near a.clock || undone a)
    let kept := (hit.filter (fun a => a.new.isSome && near a.clock && !undone a)).reverse
    let cells := hit.foldl (fun m a => match a.old with | some d => mwrite m (36 * a.idx) d | none => m) q.cells
    (q.state ≠ 2 → exec (.qdrApar ⟨k, []⟩) s = .next s) ∧
    (q.state = 2 → q.aparHeats < 3 → ∃ t, exec (.qdrApar ⟨k, []⟩) s = .next t ∧ (t.qch k).aparCnt = sat1 q.aparCnt ∧
      (t.qch k).events.getLsbD 3 = true ∧ (t.qch k).cells = cells ∧ (t.qch k).replay = q.replay ++ kept ∧ (t.qch k).state = 2) ∧
    (q.state = 2 → q.aparHeats < 3 → kept[n]? = some x → x.idx ≠ j → ∃ t, exec (.qdrApar ⟨k, [(n, j)]⟩) s = .next t ∧
      (t.qch k).cells = mwrite cells (36 * j) (misdirected x.idx j (x.new.getD [])) ∧ (t.qch k).replay = q.replay ++ kept))

/-- STREAM_ROD_ISSUE of an owned engine in the contract part of a heat: a descriptor with V = 0 ends the program, one that breaks
R275 ends it with BADDESC; a read descriptor whose rod is due and whose port takes it puts one rod on its way, for the seat or
list and the home rod that the descriptor names, the engine turns to what follows, and no lane changes unless the rod reads
uncorrectable; one not due, or whose port is taken, waits. STREAM_ROD_ARRIVE takes the oldest rod that is due off its way and
hands it to the sharing ports of its seats, a rod for one seat to the port of its bank there; before it is due, nothing
happens. An unowned or ended engine does nothing.
Rests on: R264, R274, R275, R276, R277, R279. -/
def Obligations.StreamEnginesIssueAndDeliver : Prop :=
  ∀ (s : State) (e : Nat), s.pwr.inReset = false →
    let g := s.engine e
    let d := g.desc_ g.desc
    let f := (s.qch (e / 2)).f
    let c := s.issueClock e d
    ((g.owner = 0xFFFF ∨ s.working = false ∨ g.ended = true) → exec (.streamRodIssue e) s = .next s) ∧
    (g.owner ≠ 0xFFFF → s.working = true → g.ended = false →
      (d.getLsbD 31 = false → exec (.streamRodIssue e) s = .next (s.setEngine e { g with ended := true })) ∧
      (d.getLsbD 31 = true → descBad d = true →
        exec (.streamRodIssue e) s = .next (s.setEngine e { g with ended := true, baddesc := true })) ∧
      (d.getLsbD 31 = true → descBad d = false → descDir d = false →
        (s.now < g.issueAt f s.pacer.gunAt d none ∨ s.issueHeld e d c = true) → exec (.streamRodIssue e) s = .next s) ∧
      (d.getLsbD 31 = true → descBad d = false → descDir d = false → g.issueAt f s.pacer.gunAt d none ≤ s.now → s.issueHeld e d c = false →
        ∃ t r, exec (.streamRodIssue e) s = .next t ∧ (t.engine e).flying = g.flying ++ [r] ∧ r.clock = c ∧ r.home = descHomeAt d g.n ∧
          r.mc = descMc d ∧ r.seat = (if descMc d then descList d else descSeat d) ∧
          ((t.engine e).desc, (t.engine e).n) = (if g.n + 1 < descCount d then (g.desc, g.n + 1) else (g.desc + 1, 0)) ∧
          t.mems = s.mems ∧ ((∀ b, ((s.qch (e / 2)).decode ((s.qch (e / 2)).phys (descRodAt d g.n))).2 ≠ .uncor b) → t.lanes = s.lanes))) ∧
    (g.flying = [] → exec (.streamRodArrive e) s = .next s) ∧
    (∀ r rest, g.flying = r :: rest → s.now < r.due → exec (.streamRodArrive e) s = .next s) ∧
    (∀ r rest, g.flying = r :: rest → r.due ≤ s.now →
      let t := (s.setEngine e { g with flying := rest }).toSeats (s.destSeats r.mc r.seat) r.home 4
        (fun n => s.streamDeadline e n (r.due - s.pacer.gunAt)) r.rod r.poison
      exec (.streamRodArrive e) s = .next t ∧
      ∀ p, r.mc = false → s.seatLane r.seat = some p → (((t.lmem p).sp (r.home % 2)).pend) = ((s.lmem p).sp (r.home % 2)).pend ++
        [{ cls := 4, rod := r.home, deadline := s.streamDeadline e r.seat (r.due - s.pacer.gunAt), fab := none
           kind := .write r.rod fullMask none r.poison }])

/-- FABRIC_REQUEST of a master other than the host cuts the request into rods that join those waiting; with a bad header it counts
that, and every rod that joins is marked to be answered ERR. After a fatal error a request of the host does nothing.
FABRIC_GRANT delivers the next rod of the leaf that the tree grants among the eligible ones when its target can accept it, one
whose header fails its parity there is answered ERR and counted, and with nothing asking changes nothing. FABRIC_RESPONSE
takes the oldest response of the master off its way and stands it at the port, counting and recording an error or a poison;
with no response nothing changes. PERIPH_BUS_ACCESS performs the oldest rod in the bridge, a read of one word with that word
as the answer, or answers ERR while the peripheral clock is not locked.
Rests on: R290, R292, R293, R294, R295, R296, R301, R376, R464. -/
def Obligations.FabricRequestsAreGrantedAndAnswered : Prop :=
  ∀ (s : State) (r : FabReq) (m : BitVec 11) (t : Nat) (x : FResp) (b : FRod) (v : Word) (y : State), s.pwr.inReset = false →
    (r.master ≠ 0x420 → r.hdrOk = false → ∃ u, exec (.fabricRequest r) s = .next u ∧ u.fab.hdr = true ∧ u.fab.hdrCnt = sat1 s.fab.hdrCnt ∧
      ∀ q ∈ u.fab.reqs, q ∈ s.fab.reqs ∨ q.bad = true) ∧
    (r.master ≠ 0x420 → r.hdrOk = true → ∃ u, exec (.fabricRequest r) s = .next u ∧ u.fab.hdr = s.fab.hdr ∧ u.fab.hdrCnt = s.fab.hdrCnt ∧
      u.fab.nextId = s.fab.nextId + (cutRods (r.len / 32 + 2) r.addr.toNat r.len).length ∧
      ∀ q ∈ u.fab.reqs, q ∈ s.fab.reqs ∨ (q.bad = !reqOk r ∧ q.master = r.master ∧ q.write = r.write)) ∧
    (r.master = 0x420 → s.hif.fatal = true → exec (.fabricRequest r) s = .next s) ∧
    (s.fab.asking t = [] → ∀ h, exec (.fabricGrant t h) s = .next s) ∧
    (∀ leaf q h, t < 23 → s.fab.asking t ≠ [] → s.fab.eligible t ≠ [] → (s.grantLeaf t (s.fab.eligible t)).1 = some leaf →
      (s.fab.heads t).find? (fun r => decide (leafOf r.master = some leaf)) = some q →
      (s.accepts q = false → exec (.fabricGrant t h) s = .next s) ∧
      (s.accepts q = true → ∃ v : State, exec (.fabricGrant t h) s = .next (v.deliver q h) ∧ leaf ∈ tget servedDflt v.fab.served t ∧
        v.lanes = s.lanes ∧ v.mems = s.mems ∧
        (h.hdr = true → q.drop = false → (∀ z ∈ s.fab.bridge, z.id ≠ q.id) →
          (v.deliver q h).fab.hdrCnt = sat1 s.fab.hdrCnt ∧ (v.deliver q h).fab.resps = s.fab.resps ++
            [{ id := q.id, master := q.master, target := q.target, addr := q.addr, write := q.write, code := 2, data := q.zeros }]))) ∧
    (s.fab.resps.find? (fun r => decide (r.master = m)) = none → ∀ h, exec (.fabricResponse m h) s = .next s) ∧
    (m ≠ 0x420 → s.fab.resps.find? (fun r => decide (r.master = m)) = some x → x.addr % 32 + x.data.length ≤ 32 →
      ∃ u, exec (.fabricResponse m noHopErr) s = .next u ∧
        u.fab.done = s.fab.done ++ [x] ∧ u.fab.resps = s.fab.resps.filter (fun y => decide (y.id ≠ x.id)) ∧
        u.fab.errCnt = (if x.code = 2 then sat1 s.fab.errCnt else s.fab.errCnt) ∧
        u.fab.poisonCnt = (if x.code = 3 then sat1 s.fab.poisonCnt else s.fab.poisonCnt) ∧
        u.fab.lastAddr = (if 2 ≤ x.code.toNat then BitVec.ofNat 32 x.addr else s.fab.lastAddr) ∧ { u with fab := s.fab } = s) ∧
    (s.fab.bridge.find? (fun r => decide (r.target = 19)) = none → exec .periphBusAccess s = .next s) ∧
    (s.fab.bridge.find? (fun r => decide (r.target = 19)) = some b →
      (s.pwr.clk.getLsbD 1 = true → exec .periphBusAccess s = .next (s.wordRod b false)) ∧
      (s.pwr.clk.getLsbD 1 = true → b.write = false → b.data = [] → b.len = 4 → b.addr % 4 = 0 → s.wordAccess b.master false b.addr 0xF 0 = (0, v, y) →
        exec .periphBusAccess s = .next (y.fabAnswer b.id 0 (leW v))) ∧
      (s.pwr.clk.getLsbD 1 = false → exec .periphBusAccess s = .next (s.fabAnswer b.id 2 b.zeros)))

/-- SPL_TIMER_FIRE in the cycle of an armed timer makes interrupt 34 of that lane pending for the next cycle and disarms a timer
that is not periodic; outside it only the lane is brought to the present. SPL_LATE of a lane that still works in the cool-down
sets SPL_STATUS.LATE, raises the event and marks the contract of the seat broken with cause 3, once a heat. COMPARE_POINT of a
contract in effect, in its cycle, samples the point, and a second one in the same heat, or one outside the cycle, changes
nothing.
Rests on: R157, R158, R398. -/
def Obligations.SplitTimersAndLateSeats : Prop :=
  ∀ (s : State) (p h : Nat) (pt : SamplePoint) (c : Contract) (r : SeatRec), s.pwr.inReset = false →
    let u := s.settle p
    let l := s.laneNow p
    (timerMeets u l = true → ∃ t, exec (.splTimerFire p) s = .next t ∧ u.LaneOnly t p
      ({ l with spl := { l.spl with tmrArm := l.spl.tmrPer, tmrFrom := u.now + 1 } }.fly (u.now + 1) 13 (.pend 2))) ∧
    (timerMeets u l = false → exec (.splTimerFire p) s = .next u) ∧
    (lateNow u p = false → exec (.splLate p) s = .next u) ∧
    (lateNow u p = true → u.seatOf p = some (c, r) →
      exec (.splLate p) s = .next (((u.setLane p { l with spl := { l.spl with late := true, lateAt := u.pacer.heatNum.toNat + 1 } }).raise
        0x0207 (srcW 2 r.seat) 0).markBroken c.handle 3 r.seat (u.pacer.heatNum.toNat + 1))) ∧
    (s.contract h = none → exec (.comparePoint h pt) s = .next s) ∧
    (s.contract h = some c → s.atPoint c pt = false → exec (.comparePoint h pt) s = .next s) ∧
    (s.contract h = some c → c.running = true → c.sampled.contains (pointNum pt) = true → exec (.comparePoint h pt) s = .next s) ∧
    (s.contract h = some c → s.atPoint c pt = true → exec (.comparePoint h pt) s =
      .next (s.samplePoint h (pointNum pt) (s.pacer.heatNum.toNat + (if pt = .gun then 2 else 1)))) ∧
    (s.contract h = some c → s.atPoint c pt = true → c.running = true → c.sampled.contains (pointNum pt) = false →
      ∃ t c', exec (.comparePoint h pt) s = .next t ∧ t.contract h = some c' ∧ c'.sampled = pointNum pt :: c.sampled)

/-- REGISTER_WRITE of a misaligned address, one that no target covers, or one that the target filter refuses to the master,
answers ERR; an address where no register stands answers ERR and one of a block whose domain is off answers POISON; of each
the fabric counts and records the answer, ERR to the host is reported as its advisory error, and nothing else changes. Any
other is the write of the register by that master, answered OK. After a fatal error a write of the host does nothing.
FAB_WAIT_MAX_CLEAR by a steward clears the maximum of the target; by another master it changes nothing.
Rests on: R286, R288, R289, R300, R301, R354, R376, R444. -/
def Obligations.RegisterWritesPassTheFilter : Prop :=
  ∀ (s : State) (m : BitVec 11) (a v : Word) (t k : Nat), s.pwr.inReset = false →
    let err := ((s.answer 2 0).reported m ((targetOf a.toNat).getD 31) a.toNat).advise m 2
    (m = 0x420 → s.hif.fatal = true → exec (.registerWrite m a v) s = .next s) ∧
    ((m = 0x420 → s.hif.fatal = false ∧ 0x10000 ≤ a.toNat) →
      (a.toNat % 4 ≠ 0 → exec (.registerWrite m a v) s = .next err) ∧
      (a.toNat < 0x10000 → exec (.registerWrite m a v) s = .next err) ∧
      (targetOf a.toNat = none → exec (.registerWrite m a v) s = .next err) ∧
      (targetOf a.toNat = some t → s.admits m t a.toNat true = false → exec (.registerWrite m a v) s = .next err) ∧
      (a.toNat % 4 = 0 → targetOf a.toNat = some t → s.admits m t a.toNat true = true → t ≠ 17 →
          ¬ (t = 19 ∧ s.pwr.clk.getLsbD 1 = false) →
        (s.isReg a.toNat = false → exec (.registerWrite m a v) s = .next err) ∧
        (s.isReg a.toNat = true → s.regOff a.toNat = true → exec (.registerWrite m a v) s = .next ((s.answer 3 0).reported m t a.toNat)) ∧
        (s.isReg a.toNat = true → s.regOff a.toNat = false →
          exec (.registerWrite m a v) s = .next ((s.regPut m a.toNat v v).answer 0 0)))) ∧
    (isStwMaster m = true → k < 23 → ∃ u, exec (.fabWaitMaxClear m k) s = .next u ∧ getN u.fab.grants k = 0 ∧
      (∀ j, j ≠ k → getN u.fab.grants j = getN s.fab.grants j) ∧ { u with fab := s.fab, resp := s.resp } = s) ∧
    (isStwMaster m = false → exec (.fabWaitMaxClear m k) s = .next (s.answer 0 0))

/-- LOAD_CARD that the firmware takes, with clean fields, in a state that allows it and with no other card being read, holds the
bytes of the card for admission; unclean fields complete it with INVALID_FIELD, a forbidding lifecycle state with NOT_ALLOWED,
another card in progress with BUSY. CARD_ADMISSION of a card that passes adds the contract under the lowest free handle, in
state ADMITTED, and completes with it; one that fails is refused with the code of its first failing check and no contract is
added; with no card nothing happens.
Rests on: R316, R317, R321, R359, R363. -/
def Obligations.CardsAreLoadedAndAdmitted : Prop :=
  (∀ (s : State) (e : Sqe), s.pwr.inReset = false →
    let u := s.takeEntry e.sq
    (s.canTake e.sq = false → exec (.loadCard e) s = .next s) ∧
    (s.canTake e.sq = true → sqeClean e ⟨false, true, 0x18⟩ = false → exec (.loadCard e) s = .next (u.endLoad e.sq e.cid s.now stField 0)) ∧
    (s.canTake e.sq = true → sqeClean e ⟨false, true, 0x18⟩ = true →
      (allowedIn 3 s.sec.lcState = false → exec (.loadCard e) s = .next (u.endLoad e.sq e.cid s.now stNotAllowed 0)) ∧
      (allowedIn 3 s.sec.lcState = true → s.runs 3 = true → exec (.loadCard e) s = .next (u.endLoad e.sq e.cid s.now stBusy 0)) ∧
      (allowedIn 3 s.sec.lcState = true → s.runs 3 = false → ∃ t l, exec (.loadCard e) s = .next t ∧ t.load = some l ∧ l.sq = e.sq ∧
        l.cid = e.cid ∧ l.bytes = sqeInput e ∧ l.takenAt = s.now))) ∧
  (∀ (s : State) (l : Loading), s.pwr.inReset = false →
    (s.load = none → exec .cardAdmission s = .next s) ∧
    (s.load = some l → l.bytes = none → exec .cardAdmission s = .next (s.refuseCard l stBuffer)) ∧
    (∀ b k, s.load = some l → l.bytes = some b → s.judge b l.discarded = .inl k →
      exec .cardAdmission s = .next (s.refuseCard l (stAdm + k)) ∧ (s.refuseCard l (stAdm + k)).con = s.con) ∧
    (∀ b c, s.load = some l → l.bytes = some b → s.judge b l.discarded = .inr c → ∃ t, exec .cardAdmission s = .next t ∧
      t.load = none ∧ t.con = addContract (s.newContract b c) s.con ∧ (s.newContract b c).state = .admitted ∧
      (∀ d ∈ s.con, d.handle ≠ (s.newContract b c).handle) ∧
      (∀ h, h < (s.newContract b c).handle → ∃ d ∈ s.con, d.handle = h) ∧
      ∃ x, t.hif.compl = s.hif.compl ++ [x] ∧ x.sq = l.sq ∧ x.cid = l.cid ∧ x.status = 0 ∧
        x.r0 = BitVec.ofNat 32 (s.newContract b c).handle))

/-- ACTIVATE that the firmware runs answers the status of its first failing condition, or schedules the contract, which was
ADMITTED, for the gun that it names; while a rephase heat is open one that would schedule waits. WITHDRAW frees an admitted
contract, takes a scheduled one back to ADMITTED while its start is more than three guns away, and gives an active one a
withdrawal gun. SEED_WRITE in the cool-down before the start, with the home banks of its lanes idle, writes the seeds of the
contract, and otherwise nothing. SEAT_CLEAR_DONE ends the clearing of a seat whose lane no emission still reads.
Rests on: R308, R321, R322, R323, R324, R363. -/
def Obligations.ContractsAreScheduledAndWithdrawn : Prop :=
  (∀ (s : State) (e : Sqe), s.pwr.inReset = false → s.canTake e.sq = true → sqeClean e ⟨true, false, 0x20⟩ = true →
    let u := s.takeEntry e.sq
    let h := e.handle.toNat
    let g := sqePar e 0x18 8
    (s.activateWaits e = true → exec (.activate e) s = .next s) ∧
    (s.pacer.rephase = none → s.activateWaits e = false) ∧
    (s.activateWaits e = false → allowedIn 4 s.sec.lcState = true → u.activateStatus h g = 0 →
      ∃ c, u.contract h = some c ∧ c.state = .admitted ∧ exec (.activate e) s = .next ((u.schedule h g).finish e.sq 4 e.cid 0 0 0) ∧
        (u.schedule h g).contract h = some { c with state := .scheduled, startGun := g, seeded := false, banksAt := 0 }) ∧
    (s.activateWaits e = false → allowedIn 4 s.sec.lcState = true → u.activateStatus h g ≠ 0 →
      exec (.activate e) s = .next (u.finish e.sq 4 e.cid (u.activateStatus h g) 0 0)) ∧
    (u.contract h = none → exec (.withdraw e) s = .next (u.finish e.sq 5 e.cid stNoContract 0 0)) ∧
    (∀ c, u.contract h = some c →
      (c.state = .admitted → exec (.withdraw e) s = .next ((u.release c).finish e.sq 5 e.cid 0 0 0) ∧
        (u.release c).contract h = none) ∧
      (c.state = .scheduled → u.heatN + 3 < c.startGun → exec (.withdraw e) s =
        .next ((u.setContract { c with state := .admitted, startGun := 0, banksAt := 0 }).finish e.sq 5 e.cid 0 0 0)) ∧
      (c.state = .scheduled → c.startGun ≤ u.heatN + 3 → exec (.withdraw e) s = .next (u.finish e.sq 5 e.cid stState 0 0)) ∧
      (c.state = .active → c.pendW = none → u.heatN + 2 ≤ g → exec (.withdraw e) s =
        .next ((u.setContract { c with pendW := some g }).finish e.sq 5 e.cid 0 (loW g) (hiW g))))) ∧
  (∀ (s : State) (h n : Nat) (c : Contract), s.pwr.inReset = false →
    (s.contract h = some c → c.state = .scheduled → s.heatN + 1 = c.startGun → c.seeded = false → s.cooling = true → s.seedFree c = true →
      exec (.seedWrite h) s = .next (s.writeSeeds c) ∧ (s.writeSeeds c).contract h = some { c with seeded := true }) ∧
    (s.contract h = some c → (c.state ≠ .scheduled ∨ s.heatN + 1 ≠ c.startGun ∨ c.seeded = true ∨ s.cooling = false ∨ s.seedFree c = false) →
      exec (.seedWrite h) s = .next s) ∧
    (s.pair.clearing.any (fun x => decide (x.1 = n)) = true → (∀ p, s.seatLane n = some p → s.stillRead p = false) →
      ∃ t, exec (.seatClearDone n) s = .next t ∧ (∀ x ∈ t.pair.clearing, x.1 ≠ n) ∧
        ∀ p, s.seatLane n = some p → (t.lmem p).h0.cells = [] ∧ (t.lmem p).h1.cells = [] ∧ (t.lmem p).is.cells = []) ∧
    (s.pair.clearing.any (fun x => decide (x.1 = n)) = false → exec (.seatClearDone n) s = .next s))

/-- On an Ethernet port that is on, with the codewords of the frame counted: a frame with a bad FCS or length counts RX_FCS and
nothing else; an ARP frame to the port or broadcast goes to the steward firmware, where it waits with its timestamp if fewer
than 64 do; a sound UDP frame of the port is mapped, its first copy in its heat being accepted and its rods queued, a later
copy or a wrong length only counted. On a Kaong port that is on, from the blocks between two control headers: fewer than five
valid ones, or a bad CRC, only count; a sound cell clears the run of failures and records its SEQ, and a DATA or TRAIN cell is
then taken, the rod of a DATA cell of an UP link being queued once. KAONG_LOCK after 64 valid headers brings an unlocked Kaong
port to TRAIN; PORT_LINK_DOWN whose condition holds takes a locked port down with its event, and otherwise does nothing.
Rests on: R326, R328, R329, R330, R332, R335, R343, R345, R347, R348, R349, R351. -/
def Obligations.PortsReceiveFramesAndCells : Prop :=
  (∀ (s : State) (k : Nat) (b : Frame), s.pwr.inReset = false → (s.port k).isEth = true → s.domOn (portDomain k) = true →
    let v := s.setPort k ((s.port k).fec b)
    let t := v.port k
    let f := frameView b
    let x := v.frameInstant k b
    let waits := fun (w : StwFrame) => w.port = k ∧ w.stamp = v.ptpAt (v.rxStamp k b.ago)
    ((f.fcsOk = false ∨ within f.length 64 4146 = false) → exec (.frameReceive k b) s = .next (v.setPort k (t.count cRxFcs))) ∧
    ((tget stwDflt v.stw (k / 8)).length < 64 → ∃ w, tget stwDflt (v.toSteward k b).stw (k / 8) = tget stwDflt v.stw (k / 8) ++ [w] ∧ waits w) ∧
    (f.fcsOk = true → within f.length 64 4146 = true → (f.dstMac = t.mac ∨ f.dstMac = 0xFFFFFFFFFFFF) →
      (f.vlan ≠ (if t.vlan then some t.vid else none) → exec (.frameReceive k b) s = .next (v.setPort k (t.count cRxFilter))) ∧
      (f.vlan = (if t.vlan then some t.vid else none) →
        (f.etherType = 0x0806 → exec (.frameReceive k b) s = .next (v.toSteward k b)) ∧
        (f.etherType = 0x0800 → f.ipOk = true → f.proto = 17 → f.udpOk = true →
          ((f.dstUdp = 319 ∨ f.dstUdp = 320 ∨ (t.ctrlUdp ≠ 0 ∧ f.dstUdp = t.ctrlUdp)) → exec (.frameReceive k b) s = .next (v.toSteward k b)) ∧
          (f.dstUdp ≠ 319 → f.dstUdp ≠ 320 → (t.ctrlUdp = 0 ∨ f.dstUdp ≠ t.ctrlUdp) →
            (v.ingestNow k x = none → exec (.frameReceive k b) s = .next (v.setPort k (t.count cRxFilter))) ∧
            (∀ c recs i, v.ingestNow k x = some (c, recs) → recs.findIdx? (fun r => r.matches f) = some i →
              let r := recs.getD i ⟨0, 0, 0, 0, 0, 0, []⟩
              let h := v.inputHeat c x
              let y := t.flowHeat i h
              (f.payload.length ≠ 32 * r.map.length → exec (.frameReceive k b) s = .next (v.setPort k (t.count cRxLen))) ∧
              (f.payload.length = 32 * r.map.length → 0 < y.accepted → exec (.frameReceive k b) s =
                .next (v.setPort k ((t.count cRxDup).setFlow { y with dup := y.dup + 1 }))) ∧
              (f.payload.length = 32 * r.map.length → y.accepted = 0 → exec (.frameReceive k b) s =
                .next ((v.setPort k ((t.count cRxOk).setFlow (v.accepted y 0 x))).mapRods k c h x
                  (r.map.zipIdx.map (fun q => (q.1, payloadRod f.payload q.2))))))))))) ∧
  (∀ (s : State) (k : Nat) (c : KCell) (why : LinkLoss), s.pwr.inReset = false → (s.port k).isKaong = true →
    s.domOn (portDomain k) = true →
    let q := readBlocks (s.port k).scrRx c.blocks
    let v := s.setPort k (c.blocks.foldl Port.header { s.port k with scrRx := q.2 })
    let t := v.port k
    let good := q.1.filter (fun b => blockValid b.1)
    let b := (good.take 5).flatMap (fun z => z.2)
    let x := v.rxStamp k c.ago + 256
    let seq := le16 b 34
    let kind := leAt b 0 2 / 16384
    let n := leAt b 0 2 % 4096
    let t1 := { t with crcRun := 0 }
    let u := v.setPort k { (match t.seqRx with | some q => (if seq = q + 1 then t1 else t1.count cKSeq) | none => t1) with
      seqRx := some seq }
    let sound := 5 ≤ good.length ∧ leWordAt b 36 = crc32cFinal (b.take 36)
    ((∃ z r, good = z :: r ∧ z.1.hdr = hdrControl) →
      (good.length < 5 → exec (.kaongCellReceive k c) s = .next (v.setPort k (t.count cKShort))) ∧
      (5 ≤ good.length → leWordAt b 36 ≠ crc32cFinal (b.take 36) →
        exec (.kaongCellReceive k c) s = .next (v.setPort k { t.count cKCrc with crcRun := t.crcRun + 1 })) ∧
      (sound → kind = 1 → exec (.kaongCellReceive k c) s = .next (u.mapCell k b x)) ∧
      (∀ d r l, sound → kind = 1 → (u.port k).kstate = 2 → u.ingestNow k x = some (d, r :: l) → r.kind = 1 → n < r.map.length →
        let y := (u.port k).flowHeat 0 (u.inputHeat d x)
        y.rods.contains n = false → exec (.kaongCellReceive k c) s =
          .next ((u.setPort k (((u.port k).count cRxOk).setFlow (u.accepted y n x))).mapRods k d (u.inputHeat d x) x
            [(r.map.getD n 0, payloadRod (b.drop 2) 0)])) ∧
      (sound → kind = 2 → exec (.kaongCellReceive k c) s = .next (u.trainCell k b (instCycle (16 * ((v.now : Int) + 1) - c.ago)))) ∧
      (sound → kind = 0 → exec (.kaongCellReceive k c) s = .next u)) ∧
    ((s.port k).kstate = 0 → s.portClock k = true → 64 ≤ (s.port k).hdrRun →
      exec (.kaongLock k) s = .next (s.setPort k { s.port k with kstate := 1, lock := true, cdr := true, crcRun := 0, hdrs := 0 })) ∧
    ((s.port k).hdrRun < 64 → exec (.kaongLock k) s = .next s) ∧
    ((s.port k).lock = true → 16 ≤ (s.port k).badHdrs → exec (.portLinkDown k .syncHeaders) s = .next (s.portDown k)) ∧
    ((s.port k).lock = true → 8 ≤ (s.port k).crcRun → exec (.portLinkDown k .crcFailures) s = .next (s.portDown k)) ∧
    ((s.port k).lock = true → s.portClock k = false → exec (.portLinkDown k .pll) s = .next (s.portDown k)) ∧
    ((s.port k).lock = false → exec (.portLinkDown k why) s = .next s) ∧
    ((s.port k).badHdrs < 16 → exec (.portLinkDown k .syncHeaders) s = .next s) ∧
    ((s.port k).crcRun < 8 → exec (.portLinkDown k .crcFailures) s = .next s) ∧
    (s.portClock k = true → exec (.portLinkDown k .pll) s = .next s) ∧
    ((s.portDown k).port k = { ((s.port k).count cKLockLoss).event 0 with
      kstate := 0, lock := false, cdr := false, crcRun := 0, hdrRun := 0 }))

/-- A ready rod at the head of its queue enters its delivery path in a cycle that the port owns and arrives seven cycles later at
every destination, leaving the queue and joining the ingest queue of its bank there; the status rod of a flow is queued once,
after the cutoff; an ingest map that is due switches. EGRESS_READ_REQUEST asks for the next element whose cycle has come, at
the sharing port of its bank when that has room; EGRESS_FRAME_SEND sends the frame or the DATA cell whose first bit is due,
the frame with its FCS, and nothing before. KAONG_CELL_SEND with nothing scheduled sends one whole IDLE or TRAIN cell; a frame
of the steward firmware leaves, timestamped, only when it ends before the next scheduled bit.
Rests on: R333, R334, R335, R336, R338, R339, R340, R341, R342, R343, R346, R348. -/
def Obligations.IngestAndEgressMoveTheirRods : Prop :=
  (∀ (s : State) (k : Nat) (x : PRod) (r : List PRod), s.pwr.inReset = false →
    let t := s.port k
    (t.q0 = x :: r → s.cyc % 8 = k % 8 → x.due = 0 → x.ready ≤ s.now → (∀ y ∈ r, y.due ≠ s.now + 7) →
      exec (.ingestRodEnter k false) s = .next (s.setPort k { t with q0 := { x with due := s.now + 7 } :: r })) ∧
    (s.cyc % 8 ≠ k % 8 → ∀ b, exec (.ingestRodEnter k b) s = .next s) ∧
    (t.q1 = x :: r → x.due ≠ 0 → x.due ≤ s.now → exec (.ingestRodArrive k true) s = .next
      (((s.ingestSeats x).filterMap s.seatLane).foldl (fun u p => u.ingestTo p x) (s.setPort k { t with q1 := r }))) ∧
    (∀ p, t.q1 = x :: r → x.due ≠ 0 → x.due ≤ s.now → elemMc x.elem = false → s.seatLane (elemSeat x.elem) = some p →
      let n := elemRod x.elem
      let q := (s.lmem p).sp (n % 2)
      q.ingest.length < 16 → ∃ u, exec (.ingestRodArrive k true) s = .next u ∧ ((u.lmem p).sp (n % 2)).ingest = q.ingest ++
        [{ cls := 2, rod := n, deadline := x.deadline, fab := none, kind := .write x.rod fullMask none false, sig := x.sig }]) ∧
    (t.q1 = x :: r → (x.due = 0 ∨ s.now < x.due) → exec (.ingestRodArrive k true) s = .next s) ∧
    (∀ a, t.inAt = some a → a ≤ s.now → exec (.ingestMapSwitch k) s = .next (s.setPort k { t with
      inAt := none, inWas := some (a, t.ig.owner), ig := { t.ig with bank := !t.ig.bank, owner := t.ig.newOwner, arm := false } })) ∧
    (∀ a, t.inAt = some a → s.now < a → exec (.ingestMapSwitch k) s = .next s) ∧
    (∀ c recs q n, s.statusOwner k = some (c, recs) → recs[n]? = some q → c.running = true →
      q.status ≠ 0xFFFFFFFF → c.card.win.i < s.pacer.elapsed → (t.flowHeat n s.heatN).status = false →
      exec (.ingestStatusRod k n) s = .next (s.setPort k ((t.setFlow { t.flowHeat n s.heatN with status := true }).queue
        { elem := q.status, rod := statusRod s.heatN (t.flowHeat n s.heatN), ready := s.now, due := 0,
          deadline := some (s.pacer.gunAt + c.card.win.c - 1), heat := s.heatN, sig := none }))) ∧
    (∀ n, (t.flowHeat n s.heatN).status = true → exec (.ingestStatusRod k n) s = .next s)) ∧
  (∀ (s : State) (k : Nat) (x : EgRun) (r : List EgRun) (bytes : List Byte), s.pwr.inReset = false → s.domOn (portDomain k) = true →
    let t := s.port k
    let b := (s.beginRun k).port k
    (b.runs.find? (fun x => decide (x.asked < (recElems x.recs).length)) = none →
      exec (.egressReadRequest k) s = .next (s.beginRun k)) ∧
    (b.runs.find? (fun x => decide (x.asked < (recElems x.recs).length)) = some x → x.base + 4 * x.asked ≤ (s.beginRun k).now →
      exec (.egressReadRequest k) s = .next ((s.beginRun k).askElem k x) ∧
      ∀ p mk, x.srcs.getD x.asked (none, 0) = (some p, mk) →
        let n := elemRod ((recElems x.recs).getD x.asked 0)
        (((s.beginRun k).lmem p).sp (n % 2)).room false = true →
          ((((s.beginRun k).askElem k x).lmem p).sp (n % 2)).pend = (((s.beginRun k).lmem p).sp (n % 2)).pend ++
            [{ cls := 3, rod := n, deadline := some (x.base + 4 * x.asked + 64), fab := none, kind := .readEgress k x.asked x.heat }]) ∧
    (∀ due, t.runs = x :: r → x.nextBit t = some due →
      (s.now < due → exec (.egressFrameSend k) s = .next s) ∧
      (due ≤ s.now → x.cur.kind = 0 → t.isEth = true →
        let q := s.gather x x.first x.cur.elem
        let ok := !(q.1.late || q.1.poison)
        let pay := q.1.bytes.flatten ++ (if x.cur.trailer then trailerBytes x.heat q.1.mark else [])
        ∃ u, exec (.egressFrameSend k) s = .next u ∧ u.out = .frame k (withFcs (ethFrame t x.cur pay) ok) ok :: s.out) ∧
      (due ≤ s.now → x.cur.kind = 1 → t.isKaong = true → exec (.egressFrameSend k) s = .next (s.sendCell k x due) ∧
        ∃ bl ok, (s.sendCell k x due).out = .cell k bl ok :: s.out)) ∧
    (t.isKaong = true → t.txBusy ≤ s.now → s.nextSched k = none → t.kstate ≠ 2 → exec (.kaongCellSend k) s = .next
      ((s.setPort k { t with nonData := (t.nonData + 1) % 64, txBusy := s.now + 16, seqTx := t.seqTx + 1 }).emitCell k 5
        (cellBytes 0x8000 (t.trainPay s.now) t.seqTx true) true)) ∧
    (t.isKaong = true → t.txBusy ≤ s.now → s.nextSched k = none → t.kstate = 2 → t.nonData ≠ 0 → exec (.kaongCellSend k) s = .next
      ((s.setPort k { t with nonData := (t.nonData + 1) % 64, txBusy := s.now + 16, seqTx := t.seqTx + 1 }).emitCell k 5
        (cellBytes 0 (List.replicate 32 0) t.seqTx true) true)) ∧
    (t.isEth = true → t.txBusy ≤ s.now → s.nextSched k = none → exec (.stewardFrameSend k bytes) s = .next
      ((s.setPort k { t.count cTxOk with txBusy := s.now + wireLc (bytes.length + 24), txTs := some (s.txStamp k) }).emit
        (.frame k (withFcs bytes true) true))) ∧
    (t.isEth = true → ∀ d, s.nextSched k = some d → d < s.now + wireLc (bytes.length + 24) →
      exec (.stewardFrameSend k bytes) s = .next s))

/-- Of IDENTIFY, ATTEST, ACTIVATE, WITHDRAW, QUERY_CONTRACT, READ_LOG, SNAPSHOT_ARM, SNAPSHOT_READ, FW_STAGE, FW_COMMIT,
PACER_CFG, the three RESOURCE_CLAIM actions and TELEMETRY_CFG: when the firmware cannot take an entry of the queue nothing
changes; an entry with a nonzero reserved or unused field completes with INVALID_FIELD and no other effect; a clean one that
the lifecycle state forbids completes with NOT_ALLOWED and no other effect. A reserved opcode that is taken completes with
INVALID_OPCODE.
Rests on: R359, R360, R362, R363, R428. -/
def Obligations.HostCommandsAreCheckedBeforeTheyRun : Prop :=
  (∀ (c : Instr) (op : Nat) (w : Uses) (e : Sqe) (s : State), hostRow c = some (op, w, e) → s.pwr.inReset = false →
    (s.canTake e.sq = false → exec c s = .next s) ∧
    (s.canTake e.sq = true → sqeClean e w = false → exec c s = .next ((s.takeEntry e.sq).finish e.sq op e.cid stField 0 0)) ∧
    (s.canTake e.sq = true → sqeClean e w = true → allowedIn op s.sec.lcState = false →
      exec c s = .next ((s.takeEntry e.sq).finish e.sq op e.cid stNotAllowed 0 0))) ∧
  (∀ (e : Sqe) (op : Byte) (s : State), s.pwr.inReset = false → (op.toNat = 0 ∨ 16 ≤ op.toNat) → s.canTake e.sq = true →
    exec (.invalidOpcode e op) s = .next ((s.takeEntry e.sq).finish e.sq op.toNat e.cid stOpcode 0 0))

/-- Taken with clean fields in a state that allows them, and with a buffer that can be reached (its scatter list read first, its
accesses reported): IDENTIFY writes its 4,096 bytes; QUERY_CONTRACT writes the record of the contract, or with handle 0xFFFF
those of all, or completes with NO_CONTRACT; READ_LOG writes the range that it names; ATTEST answers its message, numbered one
above the count, with its signature and its length; SNAPSHOT_ARM arms the sources and answers the number of the next snapshot;
SNAPSHOT_READ writes the held snapshot and releases it; TELEMETRY_CFG with base 0 stops telemetry; PACER_CFG leaves its
changes waiting for gun APPLY. A PACER_CFG with a value out of range, too near a gun or forbidden changes nothing.
Rests on: R361, R364, R366, R367, R368, R424, R425, R438, R440, R441, R452. -/
def Obligations.HostCommandsAnswerTheHost : Prop :=
  ∀ (s : State) (e : Sqe), s.pwr.inReset = false → s.canTake e.sq = true →
    let u := s.takeEntry e.sq
    let w := (u.emits (listReads e)).aer e.buf
    (sqeClean e ⟨false, true, 0x18⟩ = true → e.buf.ok = true → sqeSglOk e = true → 4096 ≤ e.len.toNat →
      exec (.identify e) s = .next ((w.emits (bufferOut e u.identity)).finish e.sq 1 e.cid 0 0 0) ∧ u.identity.length = 4096) ∧
    (sqeClean e ⟨true, true, 0x18⟩ = true → e.handle = 0xFFFF → e.buf.ok = true → sqeSglOk e = true →
      (u.con.flatMap u.contractRecord).length ≤ e.len.toNat → exec (.queryContract e) s = .next
        ((w.emits (bufferOut e (u.con.flatMap u.contractRecord))).finish e.sq 6 e.cid 0 (BitVec.ofNat 32 u.con.length) 0)) ∧
    (∀ c, sqeClean e ⟨true, true, 0x18⟩ = true → e.handle ≠ 0xFFFF → e.buf.ok = true → sqeSglOk e = true →
      (u.contract e.handle.toNat = none → exec (.queryContract e) s = .next (u.finish e.sq 6 e.cid stNoContract 0 0)) ∧
      (u.contract e.handle.toNat = some c → (u.contractRecord c).length ≤ e.len.toNat → exec (.queryContract e) s =
        .next ((w.emits (bufferOut e (u.contractRecord c))).finish e.sq 6 e.cid 0 1 0))) ∧
    (sqeClean e ⟨false, true, 0x1C⟩ = true → e.buf.ok = true → sqeSglOk e = true → sqePar e 0x18 4 % 32 = 0 → e.len.toNat % 32 = 0 →
      sqePar e 0x18 4 + e.len.toNat ≤ 0x400000 → exec (.readLog e) s =
        .next ((w.emits (bufferOut e (u.logRead (sqePar e 0x18 4) e.len.toNat))).finish e.sq 7 e.cid 0 (BitVec.ofNat 32 e.len.toNat) 0)) ∧
    (let body := u.attestBody (fit 32 (e.param.take 32)) (u.attestCount + 1)
     let msg := body ++ fit 7856 (Config.slhSign u.sec.rng u.idKey (preHash body))
     sqeClean e ⟨false, true, 0x38⟩ = true → allowedIn 2 s.sec.lcState = true → u.idValid = true → s.runs 2 = false →
      e.buf.ok = true → sqeSglOk e = true → msg.length ≤ e.len.toNat → ∃ t x, exec (.attest e) s = .next t ∧
        t.sec.rng = s.sec.rng + 1 ∧ t.hif.compl = s.hif.compl ++ [x] ∧ x.sq = e.sq ∧ x.cid = e.cid ∧ x.status = 0 ∧
        x.r0 = BitVec.ofNat 32 msg.length ∧ x.dma = bufferOut e msg) ∧
    (sqeClean e ⟨false, false, 0x28⟩ = true →
      let src := BitVec.ofNat 32 (sqePar e 0x18 4)
      (src &&& 0x7E00FFF8 ≠ 0 → exec (.snapshotArm e) s = .next (u.finish e.sq 8 e.cid stField 0 0)) ∧
      (src &&& 0x7E00FFF8 = 0 → src.getLsbD 2 = false → src.getLsbD 31 = false → src.getLsbD 0 = false →
        exec (.snapshotArm e) s = .next ({ u with snap := { u.snap with arm := src &&& 0x01FF0006 } }.finish e.sq 8 e.cid 0
          (fw (u.snap.count.toNat + 1) 0) 0))) ∧
    (∀ x, sqeClean e ⟨false, true, 0x1C⟩ = true →
      (u.snap.held = none → exec (.snapshotRead e) s = .next (u.finish e.sq 9 e.cid stNoSnap 0 0)) ∧
      (u.snap.held = some x → sqePar e 0x18 4 = x.num → 360288 ≤ e.len.toNat → x.bytes.length ≤ e.len.toNat → e.buf.ok = true →
        sqeSglOk e = true → ∃ t, exec (.snapshotRead e) s = .next t ∧ t.snap.held = none ∧
          t.out = ((bufferOut e x.bytes).reverse ++ w.out))) ∧
    (sqeClean e ⟨false, false, 0x2C⟩ = true → sqePar e 0x18 8 = 0 → exec (.telemetryCfg e) s =
      .next (((u.setRing 9 ringReset).setTelem telemReset).finish e.sq 15 e.cid 0 0 0)) ∧
    (sqeClean e ⟨false, false, 0x40⟩ = true →
      let a := pacerArgs e
      (a.ok = false → exec (.pacerCfg e) s = .next (u.finish e.sq 12 e.cid stField 0 0)) ∧
      (a.ok = true → a.waits u.pacer.src = true → a.apply < u.heatN + 2 → exec (.pacerCfg e) s = .next (u.finish e.sq 12 e.cid stGun 0 0)) ∧
      (a.ok = true → ¬ (a.waits u.pacer.src = true ∧ a.apply < u.heatN + 2) → u.pacerForbids a = true →
        exec (.pacerCfg e) s = .next (u.finish e.sq 12 e.cid stPacer 0 0)) ∧
      (a.ok = true → ¬ (a.waits u.pacer.src = true ∧ a.apply < u.heatN + 2) → u.pacerForbids a = false → a.has 0 = false → a.has 5 = false →
        exec (.pacerCfg e) s = .next ({ u with pacer := u.pacer.await a }.finish e.sq 12 e.cid 0 0 0)))

/-- Taken with clean fields in a state that allows them: FW_STAGE of an image that the standby pair verifies writes it to the
other flash, stages it and completes with its version, and of one that fails completes with FW_VERIFY; FW_COMMIT of a staged
image, with none committed and a gun at least eight ahead, records its gun; ACTION 1 claims a free resource with its pins for
the host and applies CONFIG, ACTION 2 releases what the host holds and disables it, ACTION 3 answers owner and CONFIG and
changes nothing.
Rests on: R411, R412, R418, R419, R471, R472, R474, R475, R476. -/
def Obligations.FirmwareAndResourceCommands : Prop :=
  ∀ (s : State) (e : Sqe), s.pwr.inReset = false → s.canTake e.sq = true →
    let u := s.takeEntry e.sq
    let w := u.readBuffer e
    (sqeClean e ⟨false, true, 0x18⟩ = true → allowedIn 10 s.sec.lcState = true → s.runs 10 = false → ∀ b, sqeInput e = some b →
      (u.imageValid b = false → exec (.fwStage e) s = .next (w.finish e.sq 10 e.cid stFwVerify 0 0)) ∧
      (u.imageValid b = true → b.length = 0x100 + imgBodyLen b + 15712 → s.pair.stbyOk = true → ∃ t x, exec (.fwStage e) s = .next t ∧
        t.pair.staged = some b ∧ t.pair.stbyImage = !s.sec.image ∧ t.out = .flash (if s.sec.image then 0 else 1) b :: w.out ∧
        t.hif.compl = s.hif.compl ++ [x] ∧ x.status = 0 ∧ x.r0 = BitVec.ofNat 32 (leAt b 4 4))) ∧
    (sqeClean e ⟨false, false, 0x20⟩ = true → allowedIn 11 s.sec.lcState = true →
      let g := sqePar e 0x18 8
      ((s.pair.staged = none ∨ s.pair.commit.isSome = true) → exec (.fwCommit e) s = .next (u.finish e.sq 11 e.cid stNotStaged 0 0)) ∧
      (s.pair.staged.isSome = true → s.pair.commit = none → g ≠ 0 → g < s.heatN + 8 →
        exec (.fwCommit e) s = .next (u.finish e.sq 11 e.cid stGun 0 0)) ∧
      (s.pair.staged.isSome = true → s.pair.commit = none → (g = 0 ∨ s.heatN + 8 ≤ g) → exec (.fwCommit e) s =
        .next { u with pair := { u.pair with commit := some (if g = 0 then s.heatN + 8 else g, e.sq, e.cid) } })) ∧
    (sqeClean e ⟨false, false, 0x24⟩ = true →
      let r := sqePar e 0x18 4
      let cfg := BitVec.ofNat 32 (sqePar e 0x20 4)
      (resourceOk r = false → sqeAction e = 1 → exec (.resourceClaim e) s = .next (u.finish e.sq 13 e.cid stField 0 0)) ∧
      (resourceOk r = true → sqeAction e = 1 → configOk u.L r cfg = true → r ≠ 0x40 → r ≠ 0x41 → (u.claim r).held = false →
        u.blocking r cfg false = none → exec (.resourceClaim e) s = .next
          (((((u.setClaim r ⟨true, r, 0x420, cfg⟩).takePins r 0x420 (pinsOf r cfg)).applyConfig r cfg).claimEvent r 1 0x420 cfg).finish
            e.sq 13 e.cid 0 0x420 0)) ∧
      (resourceOk r = true → sqeAction e = 2 → r ≠ 0x40 → r ≠ 0x41 →
        ((u.claim r).held = false → exec (.resourceRelease e) s = .next (u.finish e.sq 13 e.cid stNotOwner 0 0)) ∧
        ((u.claim r).held = true → (u.claim r).owner = 0x420 → (u.claim r).via = r →
          ¬ (within r 0x30 0x3F = true ∧ u.portLocked (r - 0x30) = true) → exec (.resourceRelease e) s = .next
            (((((u.freePins (pinsOf r (u.claim r).cfg)).setClaim r claimFree).disable r).claimEvent r 2 0x420 0).finish
              e.sq 13 e.cid 0 0xFFFFFFFF 0))) ∧
      (resourceOk r = true → sqeAction e = 3 →
        ((u.claim r).held = true → exec (.resourceQuery e) s =
          .next (u.finish e.sq 13 e.cid 0 ((u.claim r).owner.zeroExtend 32) (u.claim r).cfg)) ∧
        ((u.claim r).held = false → exec (.resourceQuery e) s = .next (u.finish e.sq 13 e.cid 0 0xFFFFFFFF 0))))

/-- A LIFECYCLE command taken with a sound buffer and clean fields: a token that breaks R429 completes with TOKEN and changes
nothing else. A transition that its token allows, with no contract and no ATTEST or FW_STAGE running, reaches its target state
and SEQ goes into TOKEN_SEQ. Once an owner is known, a key token enrols or revokes the key of its slot and extends M4; a debug
token opens or closes the debug instructions. DEBUG_EXPIRE closes them when their guns have passed. IDENTITY_GENERATE makes
the identity that is due when its health test passes, completing a transition that waits for it, and otherwise ends the wait
without one.
Rests on: R421, R422, R426, R427, R429, R430, R432, R433. -/
def Obligations.TokensChangeTheLifecycle : Prop :=
  (∀ (s : State) (e : Sqe) (b : List Byte), s.pwr.inReset = false → s.canTake e.sq = true → s.sec.pendTok = none → sqeInput e = some b →
    sqeClean e ⟨false, true, 0x1C⟩ = true → allowedIn 14 s.sec.lcState = true → b.length = 8112 →
    let u := (s.takeEntry e.sq).readBuffer e
    let target := sqePar e 0x18 4
    let k := tokTarget b
    let ends := fun (t : State) => t.finish e.sq 14 e.cid 0 (BitVec.ofNat 32 t.sec.lcState) 0
    let refused := u.finish e.sq 14 e.cid stToken 0 0
    (tokKind b = 1 → transitionOk s.sec.lcState target = false →
      exec (.lifecycleTransition e) s = .next (u.finish e.sq 14 e.cid stField 0 0)) ∧
    (tokKind b = 1 → transitionOk s.sec.lcState target = true → s.con = [] → u.runs 2 = false → u.runs 10 = false →
      (u.tokenOk b target = false → exec (.lifecycleTransition e) s = .next refused) ∧
      (u.tokenOk b target = true → exec (.lifecycleTransition e) s = .next (u.transition b target e.sq e.cid) ∧
        (u.transition b target e.sq e.cid).sec.lcState = target ∧ (u.transition b target e.sq e.cid).sec.lc.tokenSeq = tokSeq b)) ∧
    (tokKind b = 2 → u.tokenOk b target = true → s.sec.lcState ≠ 0 → exec (.keyEnrol e) s = .next
      (ends ((u.acceptToken b { u.sec.lc with keys := tput keyDflt u.sec.lc.keys k (some (tokKey b)) }).keyChange k (tokKey b) true))) ∧
    (tokKind b = 3 → u.tokenOk b target = true → s.sec.lcState ≠ 0 → exec (.keyRevoke e) s = .next
      (ends ((u.acceptToken b { u.sec.lc with keys := tput keyDflt u.sec.lc.keys k none }).keyChange k
        ((tget keyDflt u.sec.lc.keys k).getD []) false))) ∧
    (tokKind b = 4 → u.tokenOk b target = true → s.sec.lcState = 2 → ∃ t, exec (.debugOpen e) s = .next t ∧
      t.sec.debugLeft = some (max (s.sec.debugLeft.getD 0) (tokHeats b)) ∧ t.sec.lc.tokenSeq = tokSeq b) ∧
    (tokKind b = 5 → u.tokenOk b target = true → ∃ t, exec (.debugClose e) s = .next t ∧ t.sec.debugLeft = none ∧
      t.sec.lc.tokenSeq = tokSeq b) ∧
    (s.sec.lcState = 0 → (tokKind b = 2 → exec (.keyEnrol e) s = .next refused) ∧ (tokKind b = 3 → exec (.keyRevoke e) s = .next refused)) ∧
    (u.tokenOk b target = false → (tokKind b = 2 → exec (.keyEnrol e) s = .next refused) ∧
      (tokKind b = 3 → exec (.keyRevoke e) s = .next refused) ∧ (tokKind b = 4 → exec (.debugOpen e) s = .next refused) ∧
      (tokKind b = 5 → exec (.debugClose e) s = .next refused))) ∧
  (∀ (s : State), s.pwr.inReset = false →
    (s.sec.debugLeft = some 0 → ∃ t, exec .debugExpire s = .next t ∧ t.sec.debugLeft = none) ∧
    (s.sec.debugLeft ≠ some 0 → exec .debugExpire s = .next s) ∧
    (s.sec.needId = false → ∀ ok, exec (.identityGenerate ok) s = .next s) ∧
    (s.sec.needId = true → s.sec.pendTok = none →
      exec (.identityGenerate true) s = .next s.makeIdentity.identityNew ∧
      exec (.identityGenerate false) s = .next { s with sec := { s.sec with needId := false } }) ∧
    (∀ old q cid, s.sec.needId = true → s.sec.pendTok = some (old, q, cid) →
      exec (.identityGenerate true) s =
        .next ({ s with sec := { s.sec with pendTok := none } }.makeIdentity.endTransition old 2 q cid) ∧
      exec (.identityGenerate false) s =
        .next ({ s with sec := { s.sec with pendTok := none, needId := false } }.finish q 14 cid stInternal 0 0)))

/-- With no fatal error reported: a doorbell index inside an enabled ring becomes its tail or head, one beyond the ring stops it
and sets DBERR, one to a disabled ring moves nothing. Enabling a ring resets its head, tail and phase. COMPLETION_POST writes
the completion of its queue and frees the queue, or drops it when the queue is gone; it waits while the host cannot be
reached. EVENT_DELIVER moves the waiting event to the event ring when that is open. A telemetry record is written, or skipped
while the ring is full. HOST_RESET returns every register of the interface to its reset value but what the firmware still
runs; D3HOT_ENTRY stops access and D3HOT_EXIT allows it; MSIX_UNMASK sends the pending message once.
Rests on: R355, R356, R357, R358, R362, R368, R369, R372, R373, R374, R375. -/
def Obligations.RingsServeTheHost : Prop :=
  ∀ (s : State) (q k : Nat) (v : Word), s.pwr.inReset = false → q < 4 → s.hif.fatal = false →
    let i := v.toNat % 4096
    let bell := BitVec.ofNat 32 i
    ((s.sqRing q).en = true → i < 2 ^ (s.sqRing q).size → ∃ t, exec (.sqTail q v) s = .next t ∧
      t.sqRing q = { s.sqRing q with bell := bell, tail := i }) ∧
    ((s.sqRing q).en = false → i < 2 ^ (s.sqRing q).size → ∃ t, exec (.sqTail q v) s = .next t ∧
      t.sqRing q = { s.sqRing q with bell := bell }) ∧
    (2 ^ (s.sqRing q).size ≤ i → ∃ t, exec (.sqTail q v) s = .next t ∧ t.sqRing q = { s.sqRing q with bell := bell, stopped := true } ∧
      t.hif.dberr = true ∧ t.hif.errRing = BitVec.ofNat 4 q) ∧
    ((s.cqRing q).en = true → i < 2 ^ (s.cqRing q).size → ∃ t, exec (.cqHead q v) s = .next t ∧
      t.cqRing q = { s.cqRing q with bell := bell, head := i }) ∧
    (s.hif.evt.en = true → i < 2 ^ s.hif.evt.size → ∃ t, exec (.evtHead v) s = .next t ∧
      t.hif.evt = { s.hif.evt with bell := bell, head := i }) ∧
    (s.hif.tel.en = true → i < 2 ^ s.hif.tel.size → ∃ t, exec (.telemHead v) s = .next t ∧
      t.hif.tel = { s.hif.tel with bell := bell, head := i }) ∧
    (k ≤ 8 → (s.ring k).en = false → v.getLsbD 0 = true → ∃ t, exec (.ringEnable k v) s = .next t ∧ (t.ring k).en = true ∧
      (t.ring k).head = 0 ∧ (t.ring k).tail = 0 ∧ (t.ring k).phase = true ∧ (t.ring k).stopped = false ∧ t.hif.busMaster = true) ∧
    (s.hif.compl.find? (fun c => decide (c.sq = q)) = none → exec (.completionPost q) s = .next s) ∧
    (∀ c, s.hif.compl.find? (fun c => decide (c.sq = q)) = some c →
      (s.hif.cut.contains q = false → (s.cqRing q).en = true → (s.cqRing q).stopped = false →
        (s.hostHere = false → exec (.completionPost q) s = .next s) ∧
        (s.hostHere = true → ∃ t, exec (.completionPost q) s = .next t ∧ t.cqRing q = (s.cqRing q).push ∧ t.sqBusy q = false ∧
          t.hif.compl = s.hif.compl.filter (fun d => decide (d ≠ c)) ∧
          .dma ((s.cqRing q).base + 16 * (s.cqRing q).tail) (c.bytes (s.cqRing q).phase) ∈ t.out)) ∧
      ((s.hif.cut.contains q = true ∨ (s.cqRing q).en = false ∨ (s.cqRing q).stopped = true) →
        ∃ t, exec (.completionPost q) s = .next t ∧ t.cqRing q = s.cqRing q ∧ t.sqBusy q = false ∧
          t.hif.compl = s.hif.compl.filter (fun d => decide (d ≠ c)))) ∧
    (s.evtOpen = false → exec .eventDeliver s = .next s) ∧
    (∀ e, s.evtOpen = true → s.ev.q = [e] → s.ev.lost = none → ∃ t, exec .eventDeliver s = .next t ∧ t.ev.q = [] ∧
      t.hif.evt = s.hif.evt.push ∧ .dma (s.hif.evt.base + 32 * s.hif.evt.tail) (eventBytes e s.hif.evt.phase 0) ∈ t.out) ∧
    (s.hif.telem.on = true → s.hif.tel.en = true → s.hostHere = true →
      (ringFull s.hif.tel = true → exec .telemetryRecord s = .next (s.setTelem { s.hif.telem with skipped := s.hif.telem.skipped + 1 })) ∧
      (ringFull s.hif.tel = false → s.hif.tel.stopped = false → ∃ t, exec .telemetryRecord s = .next t ∧ t.hif.tel = s.hif.tel.push ∧
        t.hif.telem.seq = s.hif.telem.seq + 1 ∧ .dma (s.hif.tel.base + 128 * s.hif.tel.tail) s.teleRecord ∈ t.out)) ∧
    (∀ r, ∃ t, exec (.hostReset r) s = .next t ∧ t.hif.sq = [] ∧ t.hif.cq = [] ∧ t.hif.evt = ringReset ∧ t.hif.tel = ringReset ∧
      t.hif.msix = [] ∧ t.hif.resetSeen = true ∧ t.hif.absent = true ∧ t.hif.busMaster = false ∧ t.hif.ready = false ∧
      t.hif.compl = s.hif.compl) ∧
    (∃ t, exec .d3hotEntry s = .next t ∧ t.hif.d3 = true ∧ t.hif.sq = s.hif.sq ∧ t.hif.cq = s.hif.cq) ∧
    exec .d3hotExit s = .next { s with hif := { s.hif with d3 := false } } ∧
    (k < 64 → ∃ t, exec (.msixUnmask k) s = .next t ∧
      tget msixDflt t.hif.msix k = { tget msixDflt s.hif.msix k with mask := false, pend := false } ∧
      ((tget msixDflt s.hif.msix k).pend = true → s.hostHere = true → t.out =
        .msix k (tget msixDflt s.hif.msix k).addr.toNat (tget msixDflt s.hif.msix k).data :: s.out) ∧
      ((tget msixDflt s.hif.msix k).pend = false → t.out = s.out))

/-- REPAIR_SWEEP in the cool-down moves the rods whose cycles have come, as far as it finds their arrays idle, and outside it
nothing. GROUP_RESUME of a group whose copies are complete, whose sources wait and whose rest fits the budget of the movers
names the next gun for it. SHADOW_TEST of an idle reserve that passes on sound rods clears its count, and one that fails
counts it, or scratches a reserve that failed before. A mismatch of the pair in service with a healthy standby asks for the
takeover at the next gun; a reset pair that passes its self-test is the healthy standby. STEWARD_BOOT starts the active image
when it verifies, else the other one with FALLBACK, else stops with BOOT_FAIL. SEC_EXTEND by a steward extends its register
with the rod. SEC_TAMPER latches its bit, counts, and wipes the secure bank.
Rests on: R405, R407, R410, R411, R419, R420, R421, R431, R434. -/
def Obligations.RepairBootAndTamper : Prop :=
  ∀ (s : State), s.pwr.inReset = false →
    (∀ f e, (s.cooling = false ∨ s.domOn (3 + f) = false) → exec (.repairSweep ⟨f, e⟩) s = .next s) ∧
    (∀ f e, s.cooling = true → s.domOn (3 + f) = true →
      exec (.repairSweep ⟨f, e⟩) s = .next (s.sweep f e (s.moverCome - getN s.pair.moved f))) ∧
    (∀ c f e n, s.pair.copies.find? (fun c => decide (c.field = f) && decide (c.pos < 2560)) = some c →
      s.sweep f e (n + 1) = if s.copyFree c.src c.lane c.pos then
        (((s.copyRod c.src c.lane c.pos e).advance c).movedBy f 1).sweep f e n else s) ∧
    (∀ h n, s.pair.copies.any (fun c => decide (c.seat = n)) = false → exec (.groupResume h n) s = .next s) ∧
    (∀ h n c g, s.pair.copies.find? (fun c => decide (c.seat = n) &&
        s.pair.groups.any (fun g => decide (g.gid = c.gid) && g.resume.isNone)) = some c →
      s.pair.groups.find? (fun g => decide (g.gid = c.gid) && decide (g.handle = h)) = some g →
      s.cooling = true → g.resume = none → g.restart = false →
      (∀ d ∈ s.pair.copies, d.gid = g.gid → 2560 ≤ d.pos ∧ (s.lane d.src).mode = .wait) →
      (∀ f, f < 8 → getN s.pair.moved f + s.groupNeed (s.pair.copies.filter (fun c => decide (c.gid = g.gid))) f ≤ s.moverBudget) →
      ∃ t, exec (.groupResume h n) s = .next t ∧ ∃ x ∈ t.pair.groups, x.gid = g.gid ∧ x.resume = some (s.heatN + 1)) ∧
    (∀ p, (s.cooling = false ∨ isReserve p = false ∨ s.holdsSeat p = true ∨ s.laneOn p = false) →
      ∀ a b, exec (.shadowTest p a b) s = .next s) ∧
    (∀ p, s.cooling = true → isReserve p = true → s.holdsSeat p = false → s.laneOn p = true → s.pair.scratched.contains p = false →
      s.pair.copies.any (fun c => decide (c.field = fieldOf p)) = false →
      s.pair.seatMap.any (fun e => decide (e.2 = some p)) = false → getN s.pair.shadowIn p ≠ s.heatN + 1 →
      ((∀ i, i < 64 → (s.rodPeek (p / 17 * 17 + s.heatN % 16) (32 * i)).bad = false) → ∃ t, exec (.shadowTest p true true) s = .next t ∧ getN t.pair.shadow p = 0 ∧ getN t.pair.shadowIn p = s.heatN + 1 ∧
        t.pair.scratched = s.pair.scratched) ∧
      (∀ a b, (a && b) = false → ∃ t, exec (.shadowTest p a b) s = .next t ∧ getN t.pair.shadowIn p = s.heatN + 1 ∧
        (getN s.pair.shadow p = 0 → getN t.pair.shadow p = 1 ∧ t.pair.scratched = s.pair.scratched) ∧
        (getN s.pair.shadow p ≠ 0 → getN t.pair.shadow p = 0 ∧ t.pair.scratched = s.pair.scratched ++ [p]))) ∧
    (s.pair.stbyOk = true →
      exec .stewardDuplexMismatch s = .next { s with pair := { s.pair with takeover := true } }) ∧
    (s.pair.stbyOk = false → exec .stewardDuplexMismatch s = .next s) ∧
    (s.pair.selfTest = true →
      exec .standbySelfTestDone s = .next { s with pair := { s.pair with selfTest := false, stbyOk := true } }) ∧
    (s.pair.selfTest = false → exec .standbySelfTestDone s = .next s) ∧
    (∀ a b, (s.sec.up = true ∨ s.sec.bootFail = true) → exec (.stewardBoot a b) s = .next s) ∧
    (∀ a b, s.sec.up = false → s.sec.bootFail = false → ∃ t, exec (.stewardBoot a b) s = .next t ∧
      let act := s.sec.lc.active
      let one := if act then b else a
      let two := if act then a else b
      (s.imageValid one = true → t.sec.up = true ∧ t.hif.ready = true ∧ t.sec.image = act ∧ t.sec.fallback = false ∧ t.sec.bootFail = false) ∧
      (s.imageValid one = false → s.imageValid two = true →
        t.sec.up = true ∧ t.hif.ready = true ∧ t.sec.image = !act ∧ t.sec.fallback = true ∧ t.sec.bootFail = false) ∧
      (s.imageValid one = false → s.imageValid two = false → t.sec.up = false ∧ t.sec.bootFail = true)) ∧
    (∀ m v, isStwMaster m = true → 0x40000000 ≤ v.toNat / 32 * 32 → v.toNat / 32 * 32 ≤ 0x400EFFE0 → exec (.secExtend m v) s =
      .next (((s.smRead false ((v.toNat / 32 * 32 - 0x40000000) / 32)).2.extend (v.toNat % 8)
        (s.smRead false ((v.toNat / 32 * 32 - 0x40000000) / 32)).1.data).answer 0 0)) ∧
    (∀ m v, isStwMaster m = false → exec (.secExtend m v) s = .next (s.answer 0 0)) ∧
    (∀ k, k < 4 → ∃ t, exec (.secTamper k) s = .next t ∧ t.sec.tamper.getLsbD k = true ∧ t.sec.tamperCnt = sat1 s.sec.tamperCnt ∧
      t.sm.arr = s.sm.arr.wipeBank ∧ t.sec.tamperSince = true)

/-- A trigger with nothing held or pending fixes the capture eight cycles later; the photo input triggers when it is claimed and
armed, PF_PROG in its heat and cycle, PF_CMD by a steward; an unarmed source or another master starts nothing. PF_CAPTURE in
its cycle holds a snapshot of the heat and cycle, numbered one higher, and disarms the sources that took part; before it
nothing happens. A release by a steward, or HOLD_S seconds after the capture, frees it. LOG_SLICE_WRITE with the firmware
running writes the next slice of the frame that is being written.
Rests on: R435, R436, R438, R439, R446, R453. -/
def Obligations.SnapshotsAreTakenAndReleased : Prop :=
  ∀ (s : State) (m : BitVec 11), s.pwr.inReset = false →
    let started := fun (t : State) (bit : Nat) (took : Word) => t = { s with snap := { s.snap with
      pend := some (s.now + 8), causes := (1 : BitVec 5) <<< bit, primary := bit, code := 0, took := took } }
    (s.snap.held = none → s.snap.pend = none →
      ((s.claim 0x22).held = true → s.snap.arm.getLsbD 1 = true → ∃ t, exec .photoInEdge s = .next t ∧ started t 1 (1 <<< 1)) ∧
      (s.snap.arm.getLsbD 2 = true → s.pacer.open_ = true → s.pacer.heatNum = s.snap.progHeat → s.cyc = s.snap.progCyc.toNat →
        s.pacer.elapsed < s.L → ∃ t, exec .pfProgTrigger s = .next t ∧ started t 2 (1 <<< 2)) ∧
      (isStwMaster m = true → ∃ t, exec (.pfCmdTrig m) s = .next (t.answer 0 0) ∧ started t 3 0)) ∧
    (((s.claim 0x22).held = false ∨ s.snap.arm.getLsbD 1 = false) → exec .photoInEdge s = .next s) ∧
    ((s.snap.arm.getLsbD 2 = false ∨ s.pacer.heatNum ≠ s.snap.progHeat) → exec .pfProgTrigger s = .next s) ∧
    (isStwMaster m = false → exec (.pfCmdTrig m) s = .next (s.answer 0 0) ∧ exec (.pfCmdRelease m) s = .next (s.answer 0 0)) ∧
    (isStwMaster m = true → exec (.pfCmdRelease m) s = .next ({ s with snap := { s.snap with held := none } }.answer 0 0)) ∧
    (∀ c, s.snap.pend = some c → s.now < c → exec .pfCapture s = .next s) ∧
    (∀ c, s.snap.pend = some c → c ≤ s.now → ∃ t x, exec .pfCapture s = .next t ∧ t.snap.held = some x ∧
      x.num = s.snap.count.toNat + 1 ∧ x.heat = s.pacer.heatNum ∧ x.secs = s.sections ∧ t.snap.pend = none ∧ t.snap.heldAt = s.now ∧
      t.snap.count = sat1 s.snap.count ∧ t.snap.arm = s.snap.arm &&& ~~~s.snap.took) ∧
    (s.snap.held.isSome = true → s.log.holdS ≠ 0 → s.snap.heldAt + s.log.holdS.toNat * lcPerSec ≤ s.now →
      exec .snapshotHoldExpire s = .next { s with snap := { s.snap with held := none } }) ∧
    ((s.snap.held = none ∨ s.log.holdS = 0 ∨ s.now < s.snap.heldAt + s.log.holdS.toNat * lcPerSec) →
      exec .snapshotHoldExpire s = .next s) ∧
    (s.sec.up = false → ∀ a b, exec (.logSliceWrite a b) s = .next s) ∧
    (s.sec.up = true → s.log.frame ≠ [] → s.log.slice ≠ 0 → ∀ a b, (a || b) = true → exec (.logSliceWrite a b) s =
      .next { s with log := { s.log with
        mem := mwrite s.log.mem (0x80000 + 65536 * (s.log.seq % 32) + 1024 * s.log.slice)
          ((s.log.frame.drop (1024 * s.log.slice - 64)).take 1024)
        slice := (s.log.slice + 1) % 64 } })

/-- PWR_REQ by the host or a steward records the request and closes the switch of the lowest domain requested on; PWR_DOMAIN_ON of
the domain whose switch is closed turns it on, with its event. Every cause of device reset puts the device into it with its
bit in RESET_CAUSE, keeping fuses, real-time counter, VBAT, scratched marks and the log; RESET_RELEASE leaves it with the
clocks of R461 and every lane array blank. Loss of main power is a power-on reset. VBAT applied for the first time starts the
counter at 0. PWR_LANE_RST and PWR_FIELD_RST by a steward reset lanes that no contract needs, and a lane that one needs only
sets REFUSED.
Rests on: R455, R456, R457, R458, R461, R462, R463, R465, R466. -/
def Obligations.PowerAndResetAct : Prop :=
  (∀ (s : State) (m : BitVec 11) (v : Word) (d : Nat), s.pwr.inReset = false →
    ((isStwMaster m = true ∨ m = 0x420) → ∃ t, exec (.pwrReq m v) s = .next t ∧ t.pwr.off = (v &&& 0x0001FFF8).truncate 20 ∧
      t.pwr.on = s.pwr.on ∧ (s.pwr.closing = none →
        t.pwr.closing = (List.range 20).find? (fun d => within d 3 16 && !s.pwr.on.getLsbD d && !t.pwr.off.getLsbD d))) ∧
    (isStwMaster m = false → m ≠ 0x420 → exec (.pwrReq m v) s = .next (s.answer 0 0)) ∧
    (s.pwr.closing ≠ some d → exec (.pwrDomainOn d) s = .next s) ∧
    (s.pwr.closing = some d → d < 20 → ∃ t, exec (.pwrDomainOn d) s = .next t ∧ t.domOn d = true ∧ t.pwr.events.getLsbD 0 = true) ∧
    (isStwMaster m = true → v.getLsbD 31 = true → v.toNat % 2048 < 1088 →
      (s.guarded (v.toNat % 2048) = true →
        exec (.pwrLaneRst m v) s = .next ({ s with pwr := { s.pwr with events := s.pwr.events ||| 0x10 } }.answer 0 0)) ∧
      (s.guarded (v.toNat % 2048) = false → s.laneOn (v.toNat % 2048) = true →
        exec (.pwrLaneRst m v) s = .next ((s.pwrReset1 (v.toNat % 2048)).answer 0 0))) ∧
    (isStwMaster m = true → v.getLsbD 31 = true → v.toNat % 2048 < 8 →
      let f := v.toNat % 2048
      ((fieldLanes f).any s.guarded = true →
        exec (.pwrFieldRst m v) s = .next ({ s with pwr := { s.pwr with events := s.pwr.events ||| 0x10 } }.answer 0 0)) ∧
      ((fieldLanes f).any s.guarded = false → s.domOn (3 + f) = true → exec (.pwrFieldRst m v) s = .next
        ((((fieldLanes f).foldl State.pwrReset1 (s.resetRouters f)).abortMaster (BitVec.ofNat 11 (0x410 + f))).answer 0 0))) ∧
    (isStwMaster m = false → exec (.pwrLaneRst m v) s = .next (s.answer 0 0) ∧ exec (.pwrFieldRst m v) s = .next (s.answer 0 0))) ∧
  (∀ (s : State) (c : ResetCause), ∃ t, exec (.deviceReset c) s = .next t ∧ t.pwr.inReset = true ∧
    t.pwr.cause.getLsbD (ResetCause.bit c) = true ∧ t.lanes = [] ∧ t.con = [] ∧ t.pacer = pacerReset ∧ t.now = 0 ∧
    t.sec.serial = s.sec.serial ∧ t.sec.vendorHash = s.sec.vendorHash ∧ t.sec.ownerHash = s.sec.ownerHash ∧
    t.sec.lcFuse = s.sec.lcFuse ∧ t.sec.lc = s.sec.lc ∧ t.sec.meas = [] ∧ t.log.mem = s.log.mem ∧ t.pwr.rtc = s.pwr.rtc ∧
    t.pwr.vbat = s.pwr.vbat ∧ t.pair.scratched = s.pair.scratched) ∧
  (∀ s : State, s.pwr.inReset = true → ∃ t, exec .resetRelease s = .next t ∧ t.pwr.inReset = false ∧ t.pwr.clk = 0x703 ∧
    t.pwr.mainOn = true ∧ (∀ p, (t.lmem p).h0.cells = [] ∧ (t.lmem p).h1.cells = [] ∧ (t.lmem p).is.cells = []) ∧ t.lanes = s.lanes ∧
    t.pwr.cause = s.pwr.cause) ∧
  (∀ s : State, s.pwr.inReset = false → exec .resetRelease s = .next s) ∧
  (∀ s : State, ∃ t, exec .mainPowerFail s = .next t ∧ t.pwr.inReset = true ∧ t.pwr.mainOn = false ∧ t.pwr.cause.getLsbD 0 = true ∧
    t.lanes = []) ∧
  (∀ s : State, s.pwr.vbat = false → ∃ t, exec .vbatApplication s = .next t ∧ t.pwr.vbat = true ∧ t.pwr.rtc = 0 ∧ t.sec.tamper = 0) ∧
  (∀ s : State, s.pwr.vbat = true → exec .vbatApplication s = .next s)

/-- CLK_FAIL of a clock within limits clears its bit of CLK_STATUS, and one already out changes nothing; CLK_LOCK_RETURN sets the
bit of a clock whose domain is on. Loss of the core PLL and a thermal trip are causes of device reset. WDT_KICK by the steward
it names restarts its watchdog; WDT_EXPIRED of a watchdog whose period has passed counts and raises its event, and resets the
device when the pair in service has no healthy standby, while the standby pair is only reset itself; before its period nothing
happens. PWR_TJ_WARN warns once at its limit. RTC_LO answers the low word and latches the high one.
Rests on: R464, R466, R467, R468, R469. -/
def Obligations.ClocksWatchdogsAndTemperature : Prop :=
  ∀ (s : State) (m : BitVec 11) (v : Word) (st i : Nat) (tj : BitVec 16), s.pwr.inReset = false →
    (∀ c, s.pwr.clk.getLsbD (Clock.bit c) = false → exec (.clkFail c) s = .next s) ∧
    (s.pwr.clk.getLsbD 1 = true → exec (.clkFail .periph) s = .next
      (((s.setClk 1 false).pwrEvent 1).raise 0x0B03 0 2 false) ∧ (s.setClk 1 false).pwr.clk.getLsbD 1 = false) ∧
    (s.pwr.clk.getLsbD 9 = true → exec (.clkFail .refclk) s = .next (((s.setClk 9 false).pwrEvent 1).raise 0x0B03 0 512 false)) ∧
    (exec (.clkLockReturn .periph) s = .next (s.setClk 1 true) ∧ (s.setClk 1 true).pwr.clk.getLsbD 1 = true) ∧
    (∀ n, s.domOn (11 + n % 4) = true → exec (.clkLockReturn (.qdr n)) s = .next (s.setClk (2 + n % 4) true)) ∧
    (∀ n, s.domOn (11 + n % 4) = false → exec (.clkLockReturn (.qdr n)) s = .next s) ∧
    (∀ n, s.domOn (15 + n % 2) = true → exec (.clkLockReturn (.serdes n)) s = .next (s.setClk (6 + n % 2) true)) ∧
    exec .corePllLockLoss s = .next (deviceReset s .corePll) ∧
    (i < 12 → exec (.thermalTrip i) s = .next (deviceReset s .thermal)) ∧
    (m.toNat = 0x400 + v.toNat % 4 → exec (.wdtKick m v) s =
      .next ({ s with pwr := { s.pwr with kick := putN s.pwr.kick (v.toNat % 4) s.now } }.answer 0 0)) ∧
    (m.toNat ≠ 0x400 + v.toNat % 4 → exec (.wdtKick m v) s = .next (s.answer 0 0)) ∧
    ((s.pwr.wdtEn = false ∨ s.now < getN s.pwr.kick st + 1250 * s.pwr.wdtPer) → exec (.wdtExpired st) s = .next s) ∧
    (st < 4 → s.pwr.wdtEn = true → getN s.pwr.kick st + 1250 * s.pwr.wdtPer ≤ s.now →
      (s.svcPair.contains (1088 + st) = true → s.pair.stbyOk = false → ∃ t, exec (.wdtExpired st) s = .next t ∧ t.pwr.inReset = true ∧
        t.pwr.cause.getLsbD 4 = true) ∧
      (s.svcPair.contains (1088 + st) = true → s.pair.stbyOk = true → ∃ t, exec (.wdtExpired st) s = .next t ∧
        t.pair.takeover = true ∧ t.pwr.inReset = false ∧ t.pwr.wdtExp = sat1 s.pwr.wdtExp ∧ t.pwr.events.getLsbD 3 = true) ∧
      (s.svcPair.contains (1088 + st) = false → ∃ t, exec (.wdtExpired st) s = .next t ∧ t.pair.stbyOk = false ∧
        t.pair.selfTest = true ∧ t.pwr.wdtExp = sat1 s.pwr.wdtExp ∧ t.pwr.events.getLsbD 3 = true)) ∧
    (i < 12 → s.pwr.warned = false → s.pwr.tjWarn.toInt ≤ tj.toInt → ∃ t, exec (.pwrTjWarn i tj) s = .next t ∧ t.pwr.warned = true ∧
      t.pwr.events.getLsbD 2 = true ∧ tget tempDflt t.pwr.temp i = tj) ∧
    ((s.pwr.warned = true ∨ tj.toInt < s.pwr.tjWarn.toInt) → exec (.pwrTjWarn i tj) s = .next s) ∧
    exec (.rtcLoRead m) s = .next ({ s with pwr := { s.pwr with rtcHi := hiQ s.pwr.rtc } }.answer 0 (loQ s.pwr.rtc))

/-- UART_DATA written by the owner appends a byte to the TX FIFO, 16 deep, beyond which TXOVF is set; a byte that arrives while
the resource is held enters the RX FIFO or sets OVERRUN; a read pops the oldest; a byte sent leaves. I2C1_XFER with GO by the
owner starts a transfer, which ends with its byte, its NACK or a lost arbitration. A write by a master that does not hold the
resource only sets REFUSED. A timer in mode 1 or 2 that reaches CMP stops or restarts at 0, in mode 3 an edge captures its
count. TICK_OUT pulses once in a heat in its cycle. PMBUS_POLL adds the powers of the rails that answered and keeps the
readings.
Rests on: R435, R448, R472, R477, R478, R479. -/
def Obligations.PeripheralsServeTheirOwners : Prop :=
  ∀ (s : State) (m : BitVec 11) (v : Word) (b : Byte) (k : Nat), s.pwr.inReset = false →
    let x := s.per
    (s.mayWrite m 0x20 = true → x.tx.length < 16 →
      exec (.uartTxWrite m v) s = .next ({ s with per := { x with tx := x.tx ++ [v.truncate 8] } }.answer 0 0)) ∧
    (s.mayWrite m 0x20 = true → 16 ≤ x.tx.length →
      exec (.uartTxWrite m v) s = .next ({ s with per := { x with txovf := true } }.answer 0 0)) ∧
    (s.mayWrite m 0x20 = false → exec (.uartTxWrite m v) s = .next ({ s with per := { x with refused := true } }.answer 0 0)) ∧
    (∀ r, x.rx = b :: r → exec (.uartRxRead m) s = .next ({ s with per := { x with rx := r } }.answer 0 (b.zeroExtend 32))) ∧
    (x.rx = [] → exec (.uartRxRead m) s = .next (s.answer 0 0)) ∧
    ((s.claim 0x20).held = true → x.rx.length < 16 →
      exec (.uartRxByte b true) s = .next { s with per := { x with rx := x.rx ++ [b] } }) ∧
    ((s.claim 0x20).held = true → 16 ≤ x.rx.length → exec (.uartRxByte b true) s = .next { s with per := { x with overrun := true } }) ∧
    (∀ r, x.tx = b :: r → exec .uartTxByteDone s = .next { s with per := { x with tx := r }, out := .uart b :: s.out }) ∧
    (s.mayWrite m 0x21 = true → v.getLsbD 31 = true → x.i2cBusy = false →
      exec (.i2c1Xfer m v) s = .next ({ s with per := { x with i2cBusy := true, i2cCur := v } }.answer 0 0)) ∧
    (s.mayWrite m 0x21 = false → exec (.i2c1Xfer m v) s = .next ({ s with per := { x with refused := true } }.answer 0 0)) ∧
    (x.i2cBusy = true → ∃ t, exec (.i2c1ByteDone false false b) s = .next t ∧ t.per.i2cBusy = false ∧ t.per.i2cNack = true ∧
      t.per.i2cOpen = none ∧ t.per.i2cRx = x.i2cRx) ∧
    (x.i2cBusy = true → ∃ t, exec (.i2c1ByteDone true true b) s = .next t ∧ t.per.i2cBusy = false ∧ t.per.i2cArb = true ∧
      t.out = s.out) ∧
    (x.i2cBusy = true → x.i2cCur.getLsbD 30 = true → ∃ t, exec (.i2c1ByteDone true false b) s = .next t ∧ t.per.i2cBusy = false ∧
      t.per.i2cRx = b) ∧
    ((s.tmr k).en = true → (s.tmr k).cnt = (s.tmr k).cmp → ((s.tmr k).mode = 1 → ∃ t, exec (.tmrCompare k) s = .next t ∧
        t.tmr k = { s.tmr k with en := false }) ∧
      ((s.tmr k).mode = 2 → ∃ t, exec (.tmrCompare k) s = .next t ∧ t.tmr k = { s.tmr k with cnt := 0 })) ∧
    ((s.tmr k).en = true → (s.tmr k).mode = 3 → s.tmrPin k = true → ∃ t, exec (.tmrCapture k) s = .next t ∧
      t.tmr k = { s.tmr k with cap := (s.tmr k).cnt } ∧ ∀ j, j ≠ k → t.tmr j = s.tmr j) ∧
    ((s.claim 0x23).held = true → s.pacer.open_ = true → s.pacer.state ≠ .stopped → x.tickDone = false →
      (s.claim 0x23).cfg.toNat % 16777216 < s.L →
      s.pacer.elapsed = ((s.claim 0x23).cfg.toNat % 16777216 + 10) % s.L → exec .tickOutPulse s =
        .next { s with per := { x with tickDone := true }, out := .pin 5 (8 * ((s.claim 0x23).cfg.toNat / 16777216)) :: s.out }) ∧
    (x.tickDone = true → exec .tickOutPulse s = .next s) ∧
    (∀ rails w, ∃ t, exec (.pmbusPoll rails w) s = .next t ∧
      t.per.powerMw = ((rails.zipIdx.filter (fun q => (decide (q.2 < 16) && (getW x.rail q.2).getLsbD 31) && q.1.answered)).map
        (fun q => q.1.pinMw)).sum ∧ t.pwr.vddMv = BitVec.ofNat 16 w.vddMv ∧ t.log.utilMax = 0)
end

