-- ==== Sys2Proof/Laws/Core.lean ====
section
/-! SUPPORT. `State.core`, the fuses, the lifecycle record and the queue, through the operations of the units (R416, R429). -/

namespace Sys2Proof.Machine
open Sys2Proof

/-- The fuses and the lifecycle record. -/
structure Vault where
  serial : BitVec 128
  vendorHash : BitVec 256
  ownerHash : BitVec 256
  lcFuse : BitVec 2
  lc : LcRec

/-- The fuses and the lifecycle record of a security block. -/
def Sec.vault (x : Sec) : Vault := ⟨x.serial, x.vendorHash, x.ownerHash, x.lcFuse, x.lc⟩

/-- Heat number, cycle of the heat, and whether a heat has begun. -/
def Pacer.clock (p : Pacer) : BitVec 64 × Nat × Bool := (p.heatNum, p.elapsed, p.open_)

/-- What only lifecycle commands, guns, the passing of time, resets and the queue itself change. -/
def State.core (s : State) : Vault × List Instr × Nat × Bool × BitVec 64 × Nat × Bool :=
  (s.sec.vault, s.pending, s.now, s.pwr.inReset, s.pacer.clock)

@[simp] theorem clock_mk (run src state single flyCnt flag0 flag1 tickAOk tickBOk heatLen heatNum hiLatch tickCfg ptpCfg epochSec epochNs flyLimit trim phaseErr applyLo applyHi applyArmed pend events open_ elapsed gunAt firstGun firstNum rephase edgeA edgeB aLost bLost lockRun unlockRun validRun ptpT ptpSeen ptpNew circGun reload lastDis disabled) :
    (Pacer.mk run src state single flyCnt flag0 flag1 tickAOk tickBOk heatLen heatNum hiLatch tickCfg ptpCfg epochSec epochNs flyLimit trim phaseErr applyLo applyHi applyArmed pend events open_ elapsed gunAt firstGun firstNum rephase edgeA edgeB aLost bLost lockRun unlockRun validRun ptpT ptpSeen ptpNew circGun reload lastDis disabled).clock = (heatNum, elapsed, open_) := (Eq.refl _).trans rfl
@[simp] theorem clock_fold (p : Pacer) : (p.heatNum, p.elapsed, p.open_) = p.clock := (Eq.refl _).trans rfl

@[simp] theorem vault_mk (serial vendorHash ownerHash lcFuse lc tamper tamperCnt meas bootFail fallback image fw debugLeft rng
    needId tamperSince up tamperLate pendTok) :
    (Sec.mk serial vendorHash ownerHash lcFuse lc tamper tamperCnt meas bootFail fallback image fw debugLeft rng needId
      tamperSince up tamperLate pendTok).vault = ⟨serial, vendorHash, ownerHash, lcFuse, lc⟩ := (Eq.refl _).trans rfl
@[simp] theorem vault_fold (x : Sec) : Vault.mk x.serial x.vendorHash x.ownerHash x.lcFuse x.lc = x.vault := (Eq.refl _).trans rfl
@[simp] theorem core_mk (now pacer lanes mems relay mail sm qdr eng mc fab con load ports stw hif ev pair sec snap log pwr per
    resp out free pending) :
    (State.mk now pacer lanes mems relay mail sm qdr eng mc fab con load ports stw hif ev pair sec snap log pwr per resp out
      free pending).core = (sec.vault, pending, now, pwr.inReset, pacer.clock) := (Eq.refl _).trans rfl
@[simp] theorem core_fold (s : State) : (s.sec.vault, s.pending, s.now, s.pwr.inReset, s.pacer.clock) = s.core := (Eq.refl _).trans rfl
@[simp] theorem ite_core (c : Prop) [Decidable c] (a b : State) : (if c then a else b).core = if c then a.core else b.core :=
  apply_ite State.core c a b

@[simp] theorem foldl_core {α : Type} (g : State → α → State) (l : List α) (s : State) (h : ∀ s x, (g s x).core = s.core) :
    (l.foldl g s).core = s.core := by
  induction l generalizing s with
  | nil => rfl
  | cons x r ih => simp [List.foldl, ih, h]
@[simp] theorem foldl_fst_core {α β : Type} (g : State × β → α → State × β) (l : List α) (x : State × β)
    (h : ∀ x a, (g x a).1.core = x.1.core) : (l.foldl g x).1.core = x.1.core := by
  induction l generalizing x with
  | nil => rfl
  | cons a r ih => simp [List.foldl, ih, h]
@[simp] theorem foldl_snd_core {α β : Type} (g : β × State → α → β × State) (l : List α) (x : β × State)
    (h : ∀ x a, (g x a).2.core = x.2.core) : (l.foldl g x).2.core = x.2.core := by
  induction l generalizing x with
  | nil => rfl
  | cons a r ih => simp [List.foldl, ih, h]

/-! ### Ops -/

@[simp] theorem State.setLane_core (s : State) (p : Nat) (l : Lane) : (State.setLane s p l).core = s.core := by
  simp [State.setLane]

@[simp] theorem State.setLmem_core (s : State) (p : Nat) (m : LaneMem) : (State.setLmem s p m).core = s.core := by
  simp [State.setLmem]

@[simp] theorem State.setQch_core (s : State) (k : Nat) (q : Qdr) : (State.setQch s k q).core = s.core := by
  simp [State.setQch]

@[simp] theorem State.setEngine_core (s : State) (e : Nat) (v : Engine) : (State.setEngine s e v).core = s.core := by
  simp [State.setEngine]

@[simp] theorem State.setPort_core (s : State) (k : Nat) (v : Port) : (State.setPort s k v).core = s.core := by
  simp [State.setPort]

@[simp] theorem State.setChan_core (s : State) (c : Nat) (v : Chan) : (State.setChan s c v).core = s.core := by
  simp [State.setChan]

@[simp] theorem State.tally_core (s : State) (k : Nat) : (State.tally s k).core = s.core := by
  simp [State.tally]

@[simp] theorem State.hist4_core (s : State) (o : Nat) : (State.hist4 s o).core = s.core := by
  simp [State.hist4]

@[simp] theorem State.hist8_core (s : State) (o : Nat) : (State.hist8 s o).core = s.core := by
  simp [State.hist8]

@[simp] theorem State.setContract_core (s : State) (c : Contract) : (State.setContract s c).core = s.core := by
  simp [State.setContract]

@[simp] theorem State.live_core (s t : State) : (s.live t).core = if s.pwr.inReset then s.core else t.core := by
  simp [State.live]

@[simp] theorem State.pendInt_core (s : State) (p k : Nat) : (State.pendInt s p k).core = s.core := by
  simp [State.pendInt]

@[simp] theorem State.journal_core (s : State) (e : Event) : (State.journal s e).core = s.core := by
  simp [State.journal]

@[simp] theorem State.enqueue_core (s : State) (code : Nat) (src : Word) (data : BitVec 64) (tied : Bool) :
      (State.enqueue s code src data tied).core = s.core := by
  simp only [State.enqueue]; split <;> simp

@[simp] theorem State.raiseCore_core (s : State) (code : Nat) (src : Word) (data : BitVec 64) (tied : Bool) :
      (State.raiseCore s code src data tied).core = s.core := by
  simp [State.raiseCore]

@[simp] theorem State.pfTrigger_core (s : State) (bit code : Nat) (armBit : Option Nat) :
      (State.pfTrigger s bit code armBit).core = s.core := by
  simp only [State.pfTrigger]; split <;> simp

@[simp] theorem State.raise_core (s : State) (code : Nat) (src : Word) (data : BitVec 64) (tied : Bool := true) :
      (State.raise s code src data tied).core = s.core := by
  simp [State.raise]

@[simp] theorem State.rodRead_core (s : State) (p a src : Nat) : (State.rodRead s p a src).2.core = s.core := by
  simp [State.rodRead]

@[simp] theorem State.rodWrite_core (s : State) (p a : Nat) (d : List Byte) (t : BitVec 2) (mark : Bool) :
      (State.rodWrite s p a d t mark).core = s.core := by
  simp [State.rodWrite]

@[simp] theorem State.dirtyMark_core (s : State) (p a : Nat) : (State.dirtyMark s p a).core = s.core := by
  simp [State.dirtyMark]

@[simp] theorem State.laneWrite_core (s : State) (p a : Nat) (d : List Byte) (t : BitVec 2) (mark : Bool) :
      (State.laneWrite s p a d t mark).core = s.core := by
  simp [State.laneWrite]

@[simp] theorem State.answer_core (s : State) (code : BitVec 2) (v : Word) : (State.answer s code v).core = s.core := by
  simp [State.answer]

@[simp] theorem State.emit_core (s : State) (o : Out) : (State.emit s o).core = s.core := by
  simp [State.emit]

@[simp] theorem State.draw_core (s : State) : (State.draw s).core = s.core := by simp [State.draw]

/-! ### AddrMap -/

@[simp] theorem State.fabSubmit_core (s : State) (rods : List FRod) : (State.fabSubmit s rods).core = s.core := by
  simp [State.fabSubmit]

/-! ### StoreBuf -/

@[simp] theorem State.drainStep_core (s : State) (p j : Nat) : (State.drainStep s p j).core = s.core := by
  simp only [State.drainStep]; split <;> simp

@[simp] theorem State.drainUse_core (s : State) (p j : Nat) : (State.drainUse s p j).core = s.core := by
  simp only [State.drainUse]; split <;> simp

@[simp] theorem State.drainSel_core (s : State) (p : Nat) (sel : SbEntry → Bool) (n : Nat) :
      (s.drainSel p sel n).core = s.core := by
  induction n generalizing s with
  | zero => rfl
  | succ n ih => simp [State.drainSel] <;> (repeat' split) <;> simp [ih]

@[simp] theorem State.drainAll_core (s : State) (p : Nat) : (State.drainAll s p).core = s.core := by
  simp [State.drainAll]

@[simp] theorem State.settleBuf_core (s : State) (p : Nat) : (State.settleBuf s p).core = s.core := by
  simp [State.settleBuf]

@[simp] theorem State.drained_core (s : State) (p : Nat) : (State.drained s p).core = s.core := by
  simp [State.drained]

@[simp] theorem drainNow_core (s : State) (p : Nat) : (drainNow s p).core = s.core := by
  simp only [drainNow]; (repeat' split) <;> simp

@[simp] theorem State.presentDrain_core (s : State) (p : Nat) : (State.presentDrain s p).core = s.core := by
  simp only [State.presentDrain]; (repeat' split) <;> simp

/-! ### LsuUnit -/

@[simp] theorem loadPart_core (s : State) (p at_ : Nat) (part : Nat × BitVec 32) :
      (loadPart s p at_ part).2.core = s.core := by
  simp only [loadPart]; (repeat' split) <;> simp

@[simp] theorem loadBytes_core (s : State) (p a n : Nat) : (loadBytes s p a n).2.core = s.core := by
  simp only [loadBytes]; split <;> simp

@[simp] theorem State.remoteBegin_core (s : State) (p : Nat) (store : Bool) (a n : Nat) (sx : Bool)
      (d : List Byte) : (State.remoteBegin s p store a n sx d).core = s.core := by
  simp [State.remoteBegin]

@[simp] theorem lsuFire_core (s : State) (p op : Nat) (t : Word) : (lsuFire s p op t).core = s.core := by
  simp only [lsuFire]; (repeat' split) <;> simp

/-! ### Sha -/

@[simp] theorem State.extend_core (s : State) (k : Nat) (d : List Byte) : (State.extend s k d).core = s.core := by
  simp [State.extend]

/-! ### MbxUnit -/

@[simp] theorem State.setNochan_core (s : State) (p : Nat) (b : Bool) : (State.setNochan s p b).core = s.core := by
  simp [State.setNochan]

@[simp] theorem State.mpath_core (s : State) (i : MItem) : (State.mpath s i).core = s.core := by
  simp [State.mpath]

@[simp] theorem mbxRdEffect_core (s : State) (p : Nat) : (mbxRdEffect s p).core = s.core := by
  simp [mbxRdEffect]

@[simp] theorem mbxWrOp_core (s : State) (p : Nat) (v : Word) : (mbxWrOp s p v).core = s.core := by
  simp [mbxWrOp]

@[simp] theorem mbxGoOp_core (s : State) (p : Nat) (v : Word) : (mbxGoOp s p v).core = s.core := by
  simp [mbxGoOp]

@[simp] theorem State.postFull_core (s : State) (c n : Nat) (ep : BitVec 8) : (State.postFull s c n ep).core = s.core := by
  simp [State.postFull]

@[simp] theorem State.arrive_core (s : State) (i : MItem) : (State.arrive s i).core = s.core := by
  simp only [State.arrive]; split <;> simp

@[simp] theorem State.takePath_core (s : State) (c : Nat) (sel : MKind → Bool) : (State.takePath s c sel).core = s.core := by
  simp [State.takePath]

@[simp] theorem State.mbxReset_core (s : State) (code : Nat) : (State.mbxReset s code).core = s.core := by
  simp [State.mbxReset]

@[simp] theorem State.flushChan_core (s : State) (c : Nat) : (State.flushChan s c).core = s.core := by
  simp [State.flushChan]

@[simp] theorem State.roleChange_core (s : State) (seat : Nat) : (State.roleChange s seat).core = s.core := by
  simp [State.roleChange]

@[simp] theorem State.reported_core (s : State) (m : BitVec 11) (t a : Nat) : (State.reported s m t a).core = s.core := by
  simp [State.reported]

@[simp] theorem fabricGo_core (s : State) (m : BitVec 11) (c : Nat) (be : BitVec 4) (v : Word) :
      (fabricGo s m c be v).core = s.core := by
  simp [fabricGo]

@[simp] theorem fabricDataWrite_core (s : State) (m : BitVec 11) (c w : Nat) (be : BitVec 4) (v : Word) :
      (fabricDataWrite s m c w be v).core = s.core := by
  simp [fabricDataWrite]

@[simp] theorem fabricDataRead_core (s : State) (m : BitVec 11) (c w : Nat) (be : BitVec 4) :
      (fabricDataRead s m c w be).core = s.core := by
  simp [fabricDataRead]

@[simp] theorem bindOp_core (s : State) (m : BitVec 11) (c : Nat) (v : Word) : (bindOp s m c v).core = s.core := by
  simp [bindOp]

@[simp] theorem mbxLockOp_core (s : State) (m : BitVec 11) (v : Word) : (mbxLockOp s m v).core = s.core := by
  simp [mbxLockOp]

/-! ### RelayNet -/

@[simp] theorem State.setRout_core (s : State) (r : RouterId) (n : Nat) (o : ROut) :
      (State.setRout s r n o).core = s.core := by
  simp [State.setRout]

@[simp] theorem State.setRcnt_core (s : State) (r : RouterId) (c : RCnt) : (State.setRcnt s r c).core = s.core := by
  simp [State.setRcnt]

@[simp] theorem State.rdrop_core (s : State) (r : RouterId) : (State.rdrop s r).core = s.core := by
  simp [State.rdrop]

@[simp] theorem State.untaken_core (s : State) (r : RouterId) (i : Nat) (w : RWord) :
      (State.untaken s r i w).core = s.core := by
  simp only [State.untaken]; (repeat' split) <;> simp

@[simp] theorem State.tableUe_core (s : State) (r : RouterId) (bad : List Nat) : (State.tableUe s r bad).core = s.core := by
  simp [State.tableUe]

@[simp] theorem relayHop_core (s : State) (r : RouterId) (h : HopIn) : (relayHop s r h).core = s.core := by
  simp only [relayHop]; split <;> simp

@[simp] theorem relayArrival_core (s : State) (p : Nat) : (relayArrival s p).core = s.core := by
  simp only [relayArrival]; split <;> simp

@[simp] theorem rlySendOp_core (s : State) (p : Nat) (v : Word) : (rlySendOp s p v).core = s.core := by
  simp [rlySendOp]

end Sys2Proof.Machine
end

