-- ==== Sys2Proof/Laws/CoreLane.lean ====
section
/-! SUPPORT. The lane's operations keep `State.core` (R416, R429). -/

namespace Sys2Proof.Machine
open Sys2Proof

/-! ### TrapUnit -/

@[simp] theorem State.markBroken_core (s : State) (h cause seat w : Nat) :
      (State.markBroken s h cause seat w).core = s.core := by
  simp only [State.markBroken]; split <;> simp

@[simp] theorem State.setSeatState_core (s : State) (n : Nat) (v : BitVec 2) : (State.setSeatState s n v).core = s.core := by
  simp [State.setSeatState]

@[simp] theorem State.singleOff_core (s : State) (n q : Nat) : (State.singleOff s n q).core = s.core := by
  simp [State.singleOff]

@[simp] theorem State.sourceFault_core (s : State) (seat : Nat) : (State.sourceFault s seat).core = s.core := by
  simp only [State.sourceFault]; split <;> simp

@[simp] theorem State.faultCause_core (s : State) (p : Nat) (kind : ActKind) (cause due : Nat) :
      (State.faultCause s p kind cause due).core = s.core := by
  simp only [State.faultCause]; (repeat' split) <;> simp

@[simp] theorem readDesc_core (s : State) (p n : Nat) : (readDesc s p n).2.core = s.core := by
  simp only [readDesc]; (repeat' split) <;> simp

@[simp] theorem State.pushFrame_core (s : State) (p : Nat) (f : Push) : (State.pushFrame s p f).core = s.core := by
  simp [State.pushFrame]

@[simp] theorem State.enterWith_core (s : State) (p : Nat) (q : TrapReq) (d : Desc) (heat : Word) (cyc r : Nat) :
      (State.enterWith s p q d heat cyc r).core = s.core := by
  simp [State.enterWith]

@[simp] theorem State.setDue_core (s : State) (p : Nat) (r : TrapReq) : (State.setDue s p r).core = s.core := by
  simp [State.setDue]

@[simp] theorem State.fence_core (s : State) (p : Nat) (first : TrapReq) (sub : Nat) (heat : Word) (cyc : Nat)
      (at_ : Nat) : (State.fence s p first sub heat cyc at_).core = s.core := by
  simp [State.fence]

@[simp] theorem State.entryStart_core (s : State) (p : Nat) (r : TrapReq) : (State.entryStart s p r).core = s.core := by
  simp only [State.entryStart]; (repeat' split) <;> simp

@[simp] theorem State.entryStep_core (s : State) (p : Nat) (q : TrapReq) (a : Nat) (heat : Word) (cyc : Nat) :
    (s.entryStep p q a heat cyc).core = s.core := by
  have h1 : (if q.n = 0 then s else s.entryStart p q).core = s.core := by simp
  unfold State.entryStep
  generalize (if q.n = 0 then s else s.entryStart p q) = t at h1 ⊢
  have h2 := readDesc_core t p q.n
  rw [h1] at h2
  dsimp only
  generalize readDesc t p q.n = x at h2 ⊢
  rcases x with ⟨⟨_ | sub, _ | d⟩, u⟩ <;> simp_all

@[simp] theorem State.entryAdvance_core (s : State) (p : Nat) (first : Bool) :
      (State.entryAdvance s p first).core = s.core := by
  simp only [State.entryAdvance]; (repeat' split) <;> simp

@[simp] theorem State.pushAdvance_core (s : State) (p : Nat) : (State.pushAdvance s p).core = s.core := by
  simp only [State.pushAdvance]; split <;> simp

@[simp] theorem State.retRead_core (s : State) (p r : Nat) (fa : Word) : (State.retRead s p r fa).core = s.core := by
  simp [State.retRead]

@[simp] theorem State.retAdvance_core (s : State) (p : Nat) : (State.retAdvance s p).core = s.core := by
  simp only [State.retAdvance]; split <;> simp

@[simp] theorem State.trapReturn_core (s : State) (p : Nat) : (State.trapReturn s p).core = s.core := by
  simp [State.trapReturn]

@[simp] theorem State.settle_core (s : State) (p : Nat) : (State.settle s p).core = s.core := by
  simp [State.settle]

@[simp] theorem trapEntry_core (s : State) (p : Nat) : (trapEntry s p).core = s.core := by
  simp [trapEntry]

@[simp] theorem State.pushNow_core (s : State) (p : Nat) : (State.pushNow s p).core = s.core := by
  simp only [State.pushNow]; split <;> simp

@[simp] theorem State.entryFinish_core (s : State) (p : Nat) : (s.entryFinish p).core = s.core := by
  unfold State.entryFinish
  rw [State.pushNow_core, foldl_core]
  · split <;> simp
  · intro s _; split <;> simp

/-! ### SmArray -/

@[simp] theorem State.smRead_core (s : State) (portB : Bool) (rod : Nat) : (State.smRead s portB rod).2.core = s.core := by
  simp [State.smRead]

@[simp] theorem State.smWrite_core (s : State) (portB : Bool) (rod : Nat) (d : List Byte) (be : List Bool)
      (poison : Bool) : (State.smWrite s portB rod d be poison).core = s.core := by
  simp [State.smWrite]

@[simp] theorem State.takeBackB_core (s : State) (u : SmUndo) : (State.takeBackB s u).core = s.core := by
  simp only [State.takeBackB]; (repeat' split) <;> simp

@[simp] theorem State.portAMeet_core (s : State) (rod : Nat) (write again : Bool) :
      (State.portAMeet s rod write again).1.core = s.core := by
  simp only [State.portAMeet]; (repeat' split) <;> simp

@[simp] theorem State.stewFetch_core (s : State) (p len : Nat) : (State.stewFetch s p len).1.core = s.core := by
  simp only [State.stewFetch]; (repeat' split) <;> simp

theorem portAMeet_some {s t : State} {rod : Nat} {write again ok : Bool} (h : s.portAMeet rod write again = (t, ok)) :
    t.core = s.core := by
  rw [← State.portAMeet_core s rod write again, h]

/-! ### LaneExec -/

@[simp] theorem mbxWaitOp_core (s : State) (p : Nat) : (mbxWaitOp s p).core = s.core := by
  simp [mbxWaitOp]

@[simp] theorem State.fire_core (s : State) (p d : Nat) (v : Word) : (State.fire s p d v).core = s.core := by
  simp only [State.fire]; (repeat' split) <;> simp

@[simp] theorem State.fireLate_core (s : State) (p d : Nat) : (State.fireLate s p d).core = s.core := by
  simp only [State.fireLate]; split <;> simp

@[simp] theorem State.instrTrap_core (s : State) (p : Nat) (t : TrapSpec) (next : Word) :
      (State.instrTrap s p t next).core = s.core := by
  simp only [State.instrTrap]; split <;> simp

@[simp] theorem State.actMoves_core (s : State) (p : Nat) (vals : List (Mv × Word)) (l2 : Lane) (next : Word) :
      (State.actMoves s p vals l2 next).core = s.core := by
  simp only [State.actMoves]; split <;> simp

@[simp] theorem State.complete_core (s : State) (p : Nat) (slot : Option Xfer) (next : Word) :
      (State.complete s p slot next).core = s.core := by
  simp only [State.complete]; split <;> simp

@[simp] theorem State.act_core (s : State) (p : Nat) (vals : List (Mv × Word)) (l2 : Lane) (next : Word) :
      (State.act s p vals l2 next).core = s.core := by
  simp only [State.act]; split <;> simp

@[simp] theorem State.iterate_core (s : State) (p : Nat) (r : Rep) (q : Plan) : (s.iterate p r q).core = s.core := by
  cases q <;> simp [State.iterate]

theorem State.inPlace8_core {s t : State} {p : Nat} (h : s.inPlace8 p = some t) : t.core = s.core := by
  simp only [State.inPlace8] at h
  split at h
  · split at h
    · injection h with h; rw [← h]; simp
    · cases h
  · cases h

@[simp] theorem State.fetchUse_core (s : State) (p len : Nat) : (State.fetchUse s p len).core = s.core := by
  simp [State.fetchUse]

@[simp] theorem State.startRep_core (s : State) (p : Nat) (i : Insn) (w : Word) (count : Nat) :
    (s.startRep p i w count).core = s.core := by
  simp only [State.startRep]; split <;> simp

@[simp] theorem State.single_core (s : State) (p : Nat) (i : Insn) : (s.single p i).core = s.core := by
  simp only [State.single]; split <;> simp

theorem stewFetch_some {s t : State} {p len : Nat} {ok : Bool} (h : s.stewFetch p len = (t, ok)) : t.core = s.core := by
  rw [← State.stewFetch_core s p len, h]

@[simp] theorem State.issue_core (s : State) (p n : Nat) : (s.issue p n).core = s.core := by
  induction n generalizing s with
  | zero => rfl
  | succ n ih =>
    simp only [State.issue]
    split
    · split
      · rfl
      · split
        · rename_i h; exact State.inPlace8_core h
        · split <;> rename_i h <;> simp [stewFetch_some h]
    · split
      · rfl
      · split
        · rename_i h; exact State.inPlace8_core h
        · split <;> rename_i h
          · exact stewFetch_some h
          · (repeat' split) <;> simp [ih, stewFetch_some h]

@[simp] theorem transportCycle_core (s : State) (p : Nat) : (transportCycle s p).core = s.core := by
  simp only [transportCycle]; split <;> simp

@[simp] theorem repIteration_core (s : State) (p : Nat) : (repIteration s p).core = s.core := by
  simp only [repIteration]
  split
  · simp
  · split
    · simp
    · split
      · simp
      · split
        · rename_i h; simp [State.inPlace8_core h]
        · simp

/-! ### MemUnit -/

@[simp] theorem memEvents_core (s : State) (p : Nat) (ue full : Bool) : (memEvents s p ue full).core = s.core := by
  simp [memEvents]

@[simp] theorem State.useRods_core (s : State) (p : Nat) (as : List Nat) : (State.useRods s p as).core = s.core := by
  simp only [State.useRods]; (repeat' split) <;> simp

@[simp] theorem scrubVisit_core (s : State) (p : Nat) (hard0 hard1 hardIs : Bool) :
      (scrubVisit s p hard0 hard1 hardIs).core = s.core := by
  simp only [scrubVisit]; (repeat' split) <;> simp

@[simp] theorem memCmd_core (s : State) (m : BitVec 11) (p : Nat) (v : Word) : (memCmd s m p v).core = s.core := by
  simp [memCmd]

@[simp] theorem State.fabAnswer_core (s : State) (id : Nat) (code : BitVec 2) (d : List Byte) :
      (State.fabAnswer s id code d).core = s.core := by
  simp only [State.fabAnswer]; split <;> simp

@[simp] theorem State.fabRod_core (s : State) (id : Nat) (r : RowRead) : (State.fabRod s id r).core = s.core := by
  simp only [State.fabRod]; split <;> simp

@[simp] theorem State.hopFail_core (s : State) : (State.hopFail s).core = s.core := by
  simp only [State.hopFail]; (repeat' split) <;> simp

@[simp] theorem State.shareWrite_core (s : State) (p a : Nat) (rod : Rod) (mask : BitVec 32) (poison : Bool) :
      (State.shareWrite s p a rod mask poison).core = s.core := by
  simp [State.shareWrite]

@[simp] theorem State.shareLate_core (s : State) (p : Nat) (dl : Option Nat) : (State.shareLate s p dl).core = s.core := by
  simp only [State.shareLate]; split <;> simp

@[simp] theorem State.streamRead_core (s : State) (e desc n : Nat) (rod : Rod) (poison late : Bool) :
      (State.streamRead s e desc n rod poison late).core = s.core := by
  simp [State.streamRead]

@[simp] theorem State.sigBad_core (s : State) (p : Nat) (sig : Option Word) (rod : Rod) :
      (State.sigBad s p sig rod).2.core = s.core := by
  simp only [State.sigBad]; (repeat' split) <;> simp

@[simp] theorem State.serve_core (s : State) (p k : Nat) (r : ShReq) (e : HopErr) :
      (State.serve s p k r e).core = s.core := by
  simp only [State.serve]; (repeat' split) <;> simp

@[simp] theorem sharerAccess_core (s : State) (p : Nat) (a : SharePort) : (sharerAccess s p a).core = s.core := by
  simp only [sharerAccess]; (repeat' split) <;> simp

@[simp] theorem State.shAdd_core (s : State) (p k : Nat) (r : ShReq) : (State.shAdd s p k r).core = s.core := by
  simp [State.shAdd]

/-! ### SmUnit -/

@[simp] theorem State.remoteFinish_core (s : State) (p : Nat) (code : BitVec 2) (d : List Byte) :
      (State.remoteFinish s p code d).core = s.core := by
  simp only [State.remoteFinish]; split <;> simp

@[simp] theorem State.setRemote_core (s : State) (p : Nat) (ra : RemoteAcc) : (State.setRemote s p ra).core = s.core := by
  simp only [State.setRemote]; (repeat' split) <;> simp

@[simp] theorem State.portAStep_core (s : State) (p : Nat) : (State.portAStep s p).core = s.core := by
  simp only [State.portAStep]; (repeat' split) <;> simp

@[simp] theorem remoteAccessDone_core (s : State) (p : Nat) : (remoteAccessDone s p).core = s.core := by
  simp only [remoteAccessDone]
  split
  · simp
  · split
    · simp
    · split
      · split
        · simp
        · split <;> rename_i h
          · rw [State.portAStep_core, portAMeet_some h, State.settle_core]
          · exact (portAMeet_some h).trans (State.settle_core s p)
      · split <;> simp

@[simp] theorem State.portBDo_core (s : State) (id addr : Nat) (write : Bool) (d : List Byte) (len : Nat)
      (poison : Bool) (code : BitVec 2) : (State.portBDo s id addr write d len poison code).core = s.core := by
  simp only [State.portBDo]; (repeat' split) <;> simp

@[simp] theorem smBusyRetry_core (s : State) : (smBusyRetry s).core = s.core := by
  simp only [smBusyRetry]; split <;> simp

@[simp] theorem smScrub_core (s : State) (hard : Bool) : (smScrub s hard).core = s.core := by
  simp [smScrub]

/-! ### LaneRows -/

@[simp] theorem State.drainHeld_core (s : State) (p d : Nat) (v : Word) : (State.drainHeld s p d v).core = s.core := by
  simp only [State.drainHeld]; (repeat' split) <;> simp

@[simp] theorem State.step2_core (s : State) (p d : Nat) : (State.step2 s p d).core = s.core := by
  simp only [State.step2]; (repeat' split) <;> simp

@[simp] theorem trigger_core (s : State) (p d : Nat) (v : Word) : (trigger s p d v).core = s.core := by
  simp only [trigger]; (repeat' split) <;> simp

@[simp] theorem resultReady_core (s : State) (p : Nat) (found : LaneCheck) : (resultReady s p found).core = s.core := by
  simp only [resultReady]; (repeat' split) <;> simp

@[simp] theorem fenceReportPost_core (s : State) (p : Nat) : (fenceReportPost s p).core = s.core := by
  simp only [fenceReportPost]; split <;> simp

/-! ### MbxRows -/

@[simp] theorem mbxRdRead_core (s : State) (p : Nat) : (mbxRdRead s p).core = s.core := by
  simp [mbxRdRead]

@[simp] theorem mbxWaitEnd_core (s : State) (p : Nat) : (mbxWaitEnd s p).core = s.core := by
  simp [mbxWaitEnd]

/-! ### RelayRows -/

@[simp] theorem rxRead_core (s : State) (p : Nat) : (rxRead s p).core = s.core := by simp [rxRead]

@[simp] theorem rlyFlush_core (s : State) (p : Nat) (v : Word) : (rlyFlush s p v).core = s.core := by
  simp [rlyFlush]

/-! ### Spl -/

@[simp] theorem splTimerFire_core (s : State) (p : Nat) : (splTimerFire s p).core = s.core := by
  simp [splTimerFire]

@[simp] theorem splLate_core (s : State) (p : Nat) : (splLate s p).core = s.core := by
  simp only [splLate]; (repeat' split) <;> simp

theorem now_of_core {s t : State} (h : t.core = s.core) : t.now = s.now := congrArg (fun x => x.2.2.1) h

@[simp] theorem State.settle_now (s : State) (p : Nat) : (s.settle p).now = s.now := now_of_core (State.settle_core s p)
@[simp] theorem State.settleBuf_now (s : State) (p : Nat) : (s.settleBuf p).now = s.now := now_of_core (State.settleBuf_core s p)
@[simp] theorem State.presentDrain_now (s : State) (p : Nat) : (s.presentDrain p).now = s.now := now_of_core (State.presentDrain_core s p)
@[simp] theorem State.drainHeld_now (s : State) (p d : Nat) (v : Word) : (s.drainHeld p d v).now = s.now := now_of_core (State.drainHeld_core s p d v)

end Sys2Proof.Machine
end

