-- ==== Sys2Proof/Laws/CoreFabric.lean ====
section
/-! SUPPORT. Pacing, channels, pairing, ports and streams keep `State.core` (R416, R429). -/

namespace Sys2Proof.Machine
open Sys2Proof

/-! ### PacerUnit -/

@[simp] theorem Pacer.enter_clock (p : Pacer) (st : PState) : (p.enter st).clock = p.clock := (Eq.refl _).trans rfl
@[simp] theorem Pacer.plan_clock (p : Pacer) (now : Nat) : (p.plan now).clock = p.clock := by
  unfold Pacer.plan; (repeat' split) <;> rfl
@[simp] theorem Pacer.sync_clock (p : Pacer) (now t : Nat) : (p.sync now t).clock = p.clock := by
  simp only [Pacer.sync, Pacer.plan_clock]; rfl

@[simp] theorem Pacer.start_clock (p : Pacer) (now : Nat) : (p.start now).clock = p.clock := (Eq.refl _).trans rfl

@[simp] theorem State.pEvent_core (s : State) (k : Nat) : (State.pEvent s k).core = s.core := by
  simp [State.pEvent]

@[simp] theorem State.pRaise_core (s : State) (k : Nat) : (State.pRaise s k).core = s.core := by
  simp [State.pRaise]

@[simp] theorem State.pRefuse_core (s : State) : (State.pRefuse s).core = s.core := by simp [State.pRefuse]

@[simp] theorem tickEdge_core (s : State) (b : Bool) (frac : BitVec 4) : (tickEdge s b frac).core = s.core := by
  simp [tickEdge]

@[simp] theorem ptpSync_core (s : State) (x : PtpTime) (ns : BitVec 30) : (ptpSync s x ns).core = s.core := by
  simp [ptpSync]

@[simp] theorem State.flywheel_core (s : State) : (State.flywheel s).core = s.core := by simp [State.flywheel]

@[simp] theorem pacerPtpLost_core (s : State) (why : PtpLoss) : (pacerPtpLost s why).core = s.core := by
  simp [pacerPtpLost]

@[simp] theorem State.markUnsync_core (s : State) (b : Bool) : (State.markUnsync s b).core = s.core := by
  simp [State.markUnsync]

@[simp] theorem pacerLocked_core (s : State) : (pacerLocked s).core = s.core := by simp [pacerLocked]

@[simp] theorem pacerUnlock_core (s : State) : (pacerUnlock s).core = s.core := by simp [pacerUnlock]

@[simp] theorem pacerReacquire_core (s : State) : (pacerReacquire s).core = s.core := by simp [pacerReacquire]

@[simp] theorem pacerFreerun_core (s : State) : (pacerFreerun s).core = s.core := by simp [pacerFreerun]

theorem pacerCircDisagree_core (s : State) (c0 c1 : CircView) :
    (pacerCircDisagree s c0 c1).core.1 = s.core.1 ∧ (pacerCircDisagree s c0 c1).core.2.1 = s.core.2.1 := by
  simp only [pacerCircDisagree]; (repeat' split) <;> simp only [State.pRaise_core, core_mk] <;>
    exact ⟨by first | rfl | trivial, by first | rfl | trivial⟩

@[simp] theorem pacerCircReload_core (s : State) (ok : Bool) : (pacerCircReload s ok).core = s.core := by
  simp only [pacerCircReload]; split <;> simp

@[simp] theorem pacerRun_core (s : State) (m : BitVec 11) : (pacerRun s m).core = s.core := by
  simp [pacerRun]

@[simp] theorem pacerStop_core (s : State) (m : BitVec 11) : (pacerStop s m).core = s.core := by
  simp [pacerStop]

@[simp] theorem rephaseOp_core (s : State) (m : BitVec 11) (phase : Nat) : (rephaseOp s m phase).core = s.core := by
  simp [rephaseOp]

@[simp] theorem heatNumLoRead_core (s : State) : (heatNumLoRead s).core = s.core := by simp [heatNumLoRead]

@[simp] theorem applyHiWrite_core (s : State) (m : BitVec 11) (v : Word) : (applyHiWrite s m v).core = s.core := by
  simp [applyHiWrite]

@[simp] theorem State.pacerApply_core (s : State) (n : BitVec 64) : (State.pacerApply s n).core = s.core := by
  simp only [State.pacerApply]; (repeat' split) <;> simp

@[simp] theorem State.pacerRef_core (s : State) (n : BitVec 64) (late : Nat) : (State.pacerRef s n late).core = s.core := by
  simp [State.pacerRef]

/-- Step 1 of R29: the new heat number, and cycle 0. -/
theorem State.pacerGun_core (s : State) :
    s.pacerGun.core = (s.sec.vault, s.pending, s.now, s.pwr.inReset, s.pacer.nextNum, 0, true) := by
  simp only [State.pacerGun]
  split
  · simp only [core_mk, clock_mk, clock_fold, core_fold, State.pacerApply_core]
  · simp only [core_mk, clock_mk, clock_fold, core_fold, State.pacerApply_core, State.pacerRef_core]

/-! ### Qdr -/

@[simp] theorem State.channelLost_core (s : State) (k : Nat) : (State.channelLost s k).core = s.core := by
  simp [State.channelLost]

@[simp] theorem State.channelActs_core (s : State) : (State.channelActs s).core = s.core := by
  simp only [State.channelActs]; (repeat' split) <;> simp

@[simp] theorem State.qFail_core (s : State) (k : Nat) : (State.qFail s k).core = s.core := by
  simp [State.qFail]

@[simp] theorem State.qNote_core (s : State) (k src i : Nat) (portB : Bool) (ok : RodOk) :
      (State.qNote s k src i portB ok).core = s.core := by
  simp only [State.qNote]; split <;> simp

@[simp] theorem State.qRead_core (s : State) (k clk r : Nat) (portB : Bool) (src : Nat) (fid : Option Nat) :
      (State.qRead s k clk r portB src fid).2.core = s.core := by
  simp only [State.qRead]; split <;> simp

@[simp] theorem State.qWrite_core (s : State) (k clk r : Nat) (portB : Bool) (d : List Byte) (poison : Bool) (readAt : Option Nat) :
      (State.qWrite s k clk r portB d poison readAt).core = s.core := by
  simp [State.qWrite]

@[simp] theorem qdrInit_core (s : State) (m : BitVec 11) (k : Nat) : (qdrInit s m k).core = s.core := by
  simp [qdrInit]

@[simp] theorem qdrReady_core (s : State) (k : Nat) (res : QdrStep) : (qdrReady s k res).core = s.core := by
  simp only [qdrReady]; (repeat' split) <;> simp

@[simp] theorem qdrCtrlFail_core (s : State) (m : BitVec 11) (k : Nat) : (qdrCtrlFail s m k).core = s.core := by
  simp [qdrCtrlFail]

@[simp] theorem qdrWriteReplay_core (s : State) (k : Nat) : (qdrWriteReplay s k).core = s.core := by
  simp [qdrWriteReplay]

@[simp] theorem qdrRetrain_core (s : State) (k : Nat) (eyes : List EyeMeas) (driftOk : Bool) :
      (qdrRetrain s k eyes driftOk).core = s.core := by
  simp [qdrRetrain]

@[simp] theorem qdrZqCalibration_core (s : State) (k : Nat) : (qdrZqCalibration s k).core = s.core := by
  simp [qdrZqCalibration]

@[simp] theorem scrubRod_core (s : State) (k clk r : Nat) (hard : Bool) : (scrubRod s k clk r hard).core = s.core := by
  simp only [scrubRod]; split <;> simp

@[simp] theorem qdrScrub_core (s : State) (k : Nat) (hard : List Nat) : (qdrScrub s k hard).core = s.core := by
  simp [qdrScrub]

@[simp] theorem qdrApar_core (s : State) (a : AparIn) : (qdrApar s a).core = s.core := by simp [qdrApar]

/-! ### Stream -/

@[simp] theorem State.toSeats_core (s : State) (seats : List Nat) (home cls : Nat) (dl : Nat → Option Nat)
      (rod : Rod) (poison : Bool) : (State.toSeats s seats home cls dl rod poison).core = s.core := by
  simp only [State.toSeats]
  refine foldl_core _ _ _ (fun s x => ?_)
  (repeat' split) <;> simp

@[simp] theorem State.askRead_core (s : State) (e : Nat) (d : BitVec 128) (f : Nat) :
      (State.askRead s e d f).core = s.core := by
  simp only [State.askRead]; (repeat' split) <;> simp

@[simp] theorem State.issueRead_core (s : State) (e : Nat) (d : BitVec 128) (f : Nat) :
      (State.issueRead s e d f).core = s.core := by
  simp only [State.issueRead]
  split
  · rfl
  · rw [State.setEngine_core]
    split <;> simp

@[simp] theorem State.issueWrite_core (s : State) (e : Nat) (d : BitVec 128) (f : Nat) :
      (State.issueWrite s e d f).core = s.core := by
  simp only [State.issueWrite]; split <;> simp

@[simp] theorem streamRodIssue_core (s : State) (e : Nat) : (streamRodIssue s e).core = s.core := by
  simp [streamRodIssue]

@[simp] theorem streamRodArrive_core (s : State) (e : Nat) : (streamRodArrive s e).core = s.core := by
  simp only [streamRodArrive]; split <;> simp

/-! ### Resets -/

@[simp] theorem State.abortMaster_core (s : State) (m : BitVec 11) : (State.abortMaster s m).core = s.core := by
  simp [State.abortMaster]

@[simp] theorem State.clearLane_core (s : State) (p : Nat) (master : BitVec 11) (team : Word) :
      (State.clearLane s p master team).core = s.core := by
  simp [State.clearLane]

@[simp] theorem State.resetLane_core (s : State) (p : Nat) : (State.resetLane s p).core = s.core := by
  simp [State.resetLane]

@[simp] theorem State.setSeatLane_core (s : State) (n : Nat) (p : Option Nat) : (State.setSeatLane s n p).core = s.core := by
  simp [State.setSeatLane]

@[simp] theorem State.reroute_core (s : State) (p : Nat) : (State.reroute s p).core = s.core := by
  simp [State.reroute]

@[simp] theorem State.reseat_core (s : State) (n p : Nat) (team : Word) : (State.reseat s n p team).core = s.core := by
  simp [State.reseat]

@[simp] theorem State.scratch_core (s : State) (p cause : Nat) : (State.scratch s p cause).core = s.core := by
  simp [State.scratch]

/-! ### Pairing -/

@[simp] theorem State.pcount_core (s : State) (k : Nat) : (State.pcount s k).core = s.core := by
  simp [State.pcount]

@[simp] theorem State.sampleSeat_core (s : State) (n pt : Nat) : (State.sampleSeat s n pt).2.core = s.core := by
  simp only [State.sampleSeat]; (repeat' split) <;> simp

@[simp] theorem State.sampleAll_core (s : State) (c : Contract) (pt : Nat) : (s.sampleAll c pt).2.core = s.core := by
  simp only [State.sampleAll]; rw [foldl_snd_core]; intro x r; simp

@[simp] theorem State.comparePair_core (s : State) (c : Contract) (r : SeatRec) (pt due : Nat) (a b : Word × Bool) :
      (State.comparePair s c r pt due a b).core = s.core := by
  simp [State.comparePair] <;> (repeat' split) <;> simp_all

@[simp] theorem State.singlePair_core (s : State) (c : Contract) (r : SeatRec) (pt : Nat) (a b : Option
      (Word × Bool)) : (State.singlePair s c r pt a b).core = s.core := by
  simp [State.singlePair]

@[simp] theorem State.samplePoint_core (s : State) (h pt due : Nat) : (s.samplePoint h pt due).core = s.core := by
  simp only [State.samplePoint]
  split
  · rfl
  · split
    · rfl
    · split
      · rw [foldl_core]
        · simp
        · intro s r; split <;> simp
      · rw [foldl_core]
        · simp
        · intro s r; (repeat' split) <;> simp

@[simp] theorem comparePoint_core (s : State) (h : Nat) (pt : SamplePoint) : (comparePoint s h pt).core = s.core := by
  simp only [comparePoint]; split <;> simp

@[simp] theorem State.countSide_core (s : State) (h n : Nat) (prev : Bool) (mark : BitVec 2) :
      (State.countSide s h n prev mark).core = s.core := by
  simp only [State.countSide]; split <;> simp

@[simp] theorem State.hold_core (s : State) (p : Nat) : (State.hold s p).core = s.core := by
  simp [State.hold]

@[simp] theorem State.queueCopy_core (s : State) (gid m lp sp : Nat) (reseat : Bool) :
      (State.queueCopy s gid m lp sp reseat).core = s.core := by
  simp only [State.queueCopy]; (repeat' split) <;> simp

@[simp] theorem State.holdMember_core (s : State) (c : Contract) (gid m : Nat) (acted reseat : Bool) :
      (State.holdMember s c gid m acted reseat).core = s.core := by
  simp only [State.holdMember]; split <;> simp

@[simp] theorem State.loseLane_core (s : State) (c : Contract) (n p : Nat) (group : List Nat) :
      (State.loseLane s c n p group).core = s.core := by
  simp [State.loseLane]

@[simp] theorem State.actOn_core (s : State) (a : Act) : (State.actOn s a).core = s.core := by
  simp only [State.actOn]; split <;> simp

@[simp] theorem State.restartSweeps_core (s : State) : (State.restartSweeps s).core = s.core := by
  simp [State.restartSweeps]

@[simp] theorem State.forgetPairs_core (s : State) (c : Contract) : (State.forgetPairs s c).core = s.core := by
  simp [State.forgetPairs]

@[simp] theorem State.copyRod_core (s : State) (src dst i : Nat) (e : HopErr) :
      (State.copyRod s src dst i e).core = s.core := by
  simp [State.copyRod]

@[simp] theorem State.advance_core (s : State) (c : Copy) : (State.advance s c).core = s.core := by
  simp only [State.advance]; (repeat' split) <;> simp

@[simp] theorem State.movedBy_core (s : State) (f n : Nat) : (State.movedBy s f n).core = s.core := by
  simp [State.movedBy]

@[simp] theorem State.sweep_core (s : State) (f : Nat) (e : HopErr) (n : Nat) : (s.sweep f e n).core = s.core := by
  induction n generalizing s with
  | zero => rfl
  | succ n ih => simp only [State.sweep]; split <;> simp [ih]

@[simp] theorem repairSweep_core (s : State) (mv : MoverIn) : (repairSweep s mv).core = s.core := by
  simp [repairSweep]

@[simp] theorem State.finishCopy_core (s : State) (c : Copy) : (State.finishCopy s c).core = s.core := by
  simp [State.finishCopy]

@[simp] theorem groupResume_core (s : State) (h n : Nat) : (groupResume s h n).core = s.core := by
  simp only [groupResume]; (repeat' split) <;> simp

@[simp] theorem State.resumeGroups_core (s : State) : s.resumeGroups.core = s.core := by
  simp only [State.resumeGroups]
  refine foldl_core _ _ _ (fun s g => ?_)
  rw [foldl_core]
  · simp
  · intro s c; (repeat' split) <;> simp

@[simp] theorem shadowTest_core (s : State) (p : Nat) (sigOk copyOk : Bool) :
      (shadowTest s p sigOk copyOk).core = s.core := by
  simp [shadowTest]

@[simp] theorem stewardDuplexMismatch_core (s : State) : (stewardDuplexMismatch s).core = s.core := by
  simp [stewardDuplexMismatch]

@[simp] theorem State.resetPair_core (s : State) (ps : List Nat) : (State.resetPair s ps).core = s.core := by
  simp [State.resetPair]

@[simp] theorem standbySelfTestDone_core (s : State) : (standbySelfTestDone s).core = s.core := by
  simp [standbySelfTestDone]

/-! ### PortUnit -/

@[simp] theorem State.mapRods_core (s : State) (port : Nat) (c : Contract) (h : Nat) (x : Int) (rods : List (Word × Rod)) :
      (State.mapRods s port c h x rods).core = s.core := by
  simp [State.mapRods]

@[simp] theorem State.toSteward_core (s : State) (port : Nat) (f : Frame) : (State.toSteward s port f).core = s.core := by
  simp [State.toSteward]

@[simp] theorem State.mapFrame_core (s : State) (port : Nat) (f : FrameView) (x : Int) :
      (State.mapFrame s port f x).core = s.core := by
  simp only [State.mapFrame]; (repeat' split) <;> simp

@[simp] theorem State.filterFrame_core (s : State) (port : Nat) (b : Frame) :
      (State.filterFrame s port b).core = s.core := by
  simp only [State.filterFrame]; (repeat' split) <;> simp

@[simp] theorem frameReceive_core (s : State) (port : Nat) (f : Frame) : (frameReceive s port f).core = s.core := by
  simp [frameReceive]

@[simp] theorem State.mapCell_core (s : State) (port : Nat) (b : List Byte) (x : Int) :
      (State.mapCell s port b x).core = s.core := by
  simp only [State.mapCell]; (repeat' split) <;> simp

@[simp] theorem State.trainCell_core (s : State) (port : Nat) (b : List Byte) (at_ : Nat) :
      (State.trainCell s port b at_).core = s.core := by
  simp [State.trainCell]

@[simp] theorem State.takeCell_core (s : State) (port : Nat) (b : List Byte) (x : Int) (at_ : Nat) :
      (State.takeCell s port b x at_).core = s.core := by
  simp only [State.takeCell]; (repeat' split) <;> simp

@[simp] theorem kaongCellReceive_core (s : State) (port : Nat) (c : KCell) : (kaongCellReceive s port c).core = s.core := by
  simp only [kaongCellReceive]; (repeat' split) <;> simp

@[simp] theorem kaongLock_core (s : State) (port : Nat) : (kaongLock s port).core = s.core := by
  simp [kaongLock]

@[simp] theorem State.portDown_core (s : State) (port : Nat) : (State.portDown s port).core = s.core := by
  simp [State.portDown]

@[simp] theorem portLinkDown_core (s : State) (port : Nat) (why : LinkLoss) : (portLinkDown s port why).core = s.core := by
  simp [portLinkDown]

@[simp] theorem ingestRodEnter_core (s : State) (port : Nat) (bank : Bool) : (ingestRodEnter s port bank).core = s.core := by
  simp [ingestRodEnter]

@[simp] theorem State.ingestTo_core (s : State) (p : Nat) (x : PRod) : (State.ingestTo s p x).core = s.core := by
  simp [State.ingestTo]

@[simp] theorem ingestRodArrive_core (s : State) (port : Nat) (bank : Bool) :
      (ingestRodArrive s port bank).core = s.core := by
  simp only [ingestRodArrive]; split <;> simp

@[simp] theorem ingestStatusRod_core (s : State) (port rec : Nat) : (ingestStatusRod s port rec).core = s.core := by
  simp only [ingestStatusRod]; (repeat' split) <;> simp

@[simp] theorem ingestMapSwitch_core (s : State) (port : Nat) : (ingestMapSwitch s port).core = s.core := by
  simp only [ingestMapSwitch]; split <;> simp

/-! ### Egress -/

@[simp] theorem State.takeSides_core (s : State) (h : Nat) (prev : Bool) (l : List Word) :
    (s.takeSides h prev l).2.core = s.core := by
  induction l generalizing s with
  | nil => rfl
  | cons e r ih => simp only [State.takeSides]; split <;> simp [ih]

@[simp] theorem State.startRun_core (s : State) (k : Nat) (c : Contract) (recs : List EgressRec) (heat base : Nat)
      (prev : Bool) : (State.startRun s k c recs heat base prev).core = s.core := by
  simp [State.startRun]

@[simp] theorem State.beginRun_core (s : State) (k : Nat) : (State.beginRun s k).core = s.core := by
  simp only [State.beginRun]; split <;> simp

@[simp] theorem State.askElem_core (s : State) (k : Nat) (x : EgRun) : (State.askElem s k x).core = s.core := by
  simp only [State.askElem]; split <;> simp

@[simp] theorem egressReadRequest_core (s : State) (k : Nat) : (egressReadRequest s k).core = s.core := by
  simp only [egressReadRequest]; split <;> simp

@[simp] theorem State.gather_core (s : State) (x : EgRun) (g : Nat) (l : List Word) : (s.gather x g l).2.core = s.core := by
  induction l generalizing s g with
  | nil => rfl
  | cons e r ih => simp only [State.gather]; rw [ih]; split <;> simp

@[simp] theorem State.leftPort_core (s : State) (k : Nat) (late poison sig : Bool) :
      (State.leftPort s k late poison sig).core = s.core := by
  simp [State.leftPort]

@[simp] theorem State.sendFrame_core (s : State) (k : Nat) (x : EgRun) (due : Nat) :
      (State.sendFrame s k x due).core = s.core := by
  simp [State.sendFrame]

@[simp] theorem State.emitCell_core (s : State) (k n : Nat) (b : List Byte) (ok : Bool) :
      (State.emitCell s k n b ok).core = s.core := by
  simp only [State.emitCell]; (repeat' split) <;> simp

@[simp] theorem State.sendCell_core (s : State) (k : Nat) (x : EgRun) (due : Nat) :
      (State.sendCell s k x due).core = s.core := by
  simp [State.sendCell]

@[simp] theorem egressFrameSend_core (s : State) (k : Nat) : (egressFrameSend s k).core = s.core := by
  simp only [egressFrameSend]; (repeat' split) <;> simp

@[simp] theorem kaongCellSend_core (s : State) (k : Nat) : (kaongCellSend s k).core = s.core := by
  simp only [kaongCellSend]; (repeat' split) <;> simp

@[simp] theorem stewardFrameSend_core (s : State) (k : Nat) (bytes : List Byte) :
      (stewardFrameSend s k bytes).core = s.core := by
  simp [stewardFrameSend]

end Sys2Proof.Machine
end

