-- ==== Sys2Proof/Laws/CoreCard.lean ====
section
/-! SUPPORT. The commands of cards and contracts, peripherals, snapshots and the log keep `State.core` (R416, R429). -/

namespace Sys2Proof.Machine
open Sys2Proof

/-! ### Cmd -/

@[simp] theorem State.setSq_core (s : State) (q : Nat) (r : Ring) : (State.setSq s q r).core = s.core := by
  simp [State.setSq]

@[simp] theorem State.setCq_core (s : State) (q : Nat) (r : Ring) : (State.setCq s q r).core = s.core := by
  simp [State.setCq]

@[simp] theorem State.setBusy_core (s : State) (q : Nat) (b : Bool) : (State.setBusy s q b).core = s.core := by
  simp [State.setBusy]

@[simp] theorem State.emits_core (s : State) (l : List Out) : (State.emits s l).core = s.core := by
  simp [State.emits]

@[simp] theorem State.takeEntry_core (s : State) (q : Nat) : (State.takeEntry s q).core = s.core := by
  simp [State.takeEntry]

@[simp] theorem State.finish_core (s : State) (q op : Nat) (cid : BitVec 16) (status : Nat) (r0 r1 : Word) :
      (State.finish s q op cid status r0 r1).core = s.core := by
  simp [State.finish]

@[simp] theorem fail_s (st : Nat) (s : State) : (fail st s).s = s := (Eq.refl _).trans rfl
@[simp] theorem done_s (r0 r1 : Word) (s : State) : (done r0 r1 s).s = s := (Eq.refl _).trans rfl
@[simp] theorem ite_done_s (c : Prop) [Decidable c] (a b : Done) : (if c then a else b).s = if c then a.s else b.s :=
  apply_ite Done.s c a b

@[simp] theorem State.runCmd_core (s : State) (op : Nat) (u : Uses) (e : Sqe) (body : State → Done)
    (h : ∀ s, (body s).s.core = s.core) : (s.runCmd op u e body).core = s.core := by
  simp only [State.runCmd]
  split
  · rfl
  · rw [State.finish_core]; simp [h]

@[simp] theorem State.aer_core (s : State) (b : HostBuf) : (State.aer s b).core = s.core := by
  simp only [State.aer]; (repeat' split) <;> simp

@[simp] theorem State.readBuffer_core (s : State) (e : Sqe) : (State.readBuffer s e).core = s.core := by
  simp only [State.readBuffer]; (repeat' split) <;> simp

@[simp] theorem State.output_core (s : State) (e : Sqe) (d : List Byte) (r0 r1 : Word) :
      (State.output s e d r0 r1).s.core = s.core := by
  simp [State.output]

@[simp] theorem State.dropCompl_core (s : State) (c : Compl) : (State.dropCompl s c).core = s.core := by
  simp [State.dropCompl]

@[simp] theorem State.message_core (s : State) (v : Nat) : (State.message s v).core = s.core := by
  simp [State.message]

@[simp] theorem completionPost_core (s : State) (q : Nat) : (completionPost s q).core = s.core := by
  simp only [completionPost]; split <;> simp

@[simp] theorem invalidOpcode_core (s : State) (e : Sqe) (op : Byte) : (invalidOpcode s e op).core = s.core := by
  simp [invalidOpcode]

/-! ### Contract -/

@[simp] theorem State.writeBanks_core (s : State) (c : Contract) : (State.writeBanks s c).core = s.core := by
  simp [State.writeBanks]

@[simp] theorem State.armBanks_core (s : State) (c : Contract) : (State.armBanks s c).core = s.core := by
  simp [State.armBanks]

@[simp] theorem State.prepare_core (s : State) : (State.prepare s).core = s.core := by simp [State.prepare]

@[simp] theorem State.vacate_core (s : State) (bound n : Nat) : (State.vacate s bound n).core = s.core := by
  simp only [State.vacate]; split <;> simp

@[simp] theorem State.blankLane_core (s : State) (p : Nat) : (State.blankLane s p).core = s.core := by
  simp [State.blankLane]

@[simp] theorem State.endClear_core (s : State) (n : Nat) : (State.endClear s n).core = s.core := by
  simp only [State.endClear]; split <;> simp

@[simp] theorem seatClearDone_core (s : State) (n : Nat) : (seatClearDone s n).core = s.core := by
  simp [seatClearDone]

@[simp] theorem State.clearDue_core (s : State) : (State.clearDue s).core = s.core := by simp [State.clearDue]

@[simp] theorem State.freeResources_core (s : State) (c : Contract) : (State.freeResources s c).core = s.core := by
  simp [State.freeResources]

@[simp] theorem State.dropContract_core (s : State) (h : Nat) : (State.dropContract s h).core = s.core := by
  simp [State.dropContract]

@[simp] theorem State.moveSeat_core (s : State) (n p : Nat) : (State.moveSeat s n p).2.core = s.core := by
  simp only [State.moveSeat]; split <;> simp

@[simp] theorem State.copyLane_core (s : State) (src dst : Nat) : (State.copyLane s src dst).core = s.core := by
  simp [State.copyLane]

@[simp] theorem State.release_core (s : State) (c : Contract) : (State.release s c).core = s.core := by
  simp [State.release]

@[simp] theorem State.scratchIdle_core (s : State) (p cause : Nat) : (State.scratchIdle s p cause).core = s.core := by
  simp only [State.scratchIdle]; (repeat' split) <;> simp

@[simp] theorem State.lastRuns_core (s : State) (c : Contract) (prev : Nat) : (State.lastRuns s c prev).core = s.core := by
  simp [State.lastRuns]

@[simp] theorem State.withdrawNow_core (s : State) (c : Contract) : (State.withdrawNow s c).core = s.core := by
  simp [State.withdrawNow]

@[simp] theorem State.withdrawals_core (s : State) : (State.withdrawals s).core = s.core := by
  simp [State.withdrawals]

@[simp] theorem State.seedSeat_core (s : State) (c : Contract) (r : SeatRec) : (State.seedSeat s c r).core = s.core := by
  simp only [State.seedSeat]; split <;> simp

@[simp] theorem State.writeSeeds_core (s : State) (c : Contract) : (State.writeSeeds s c).core = s.core := by
  simp [State.writeSeeds]

@[simp] theorem seedWrite_core (s : State) (h : Nat) : (seedWrite s h).core = s.core := by
  simp only [seedWrite]; split <;> simp

@[simp] theorem State.startSeat_core (s : State) (c : Contract) (r : SeatRec) : (State.startSeat s c r).core = s.core := by
  simp only [State.startSeat]; split <;> simp

@[simp] theorem State.startNow_core (s : State) (c : Contract) : (State.startNow s c).core = s.core := by
  simp [State.startNow]

@[simp] theorem State.activations_core (s : State) : (State.activations s).core = s.core := by
  simp [State.activations]

@[simp] theorem State.bankSwitch_core (s : State) : (State.bankSwitch s).core = s.core := by
  simp [State.bankSwitch]

/-! ### Admission -/

@[simp] theorem State.writeImage_core (s : State) (p a : Nat) (d : List Byte) (n : Nat) :
      (s.writeImage p a d n).core = s.core := by
  induction n generalizing s a d with
  | zero => simp [State.writeImage]
  | succ n ih => simp [State.writeImage, ih]

@[simp] theorem State.loadImage_core (s : State) (p base : Nat) (i : ImageRec) :
      (State.loadImage s p base i).core = s.core := by
  simp [State.loadImage]

@[simp] theorem State.loadSeat_core (s : State) (c : Card) (r : SeatRec) : (s.loadSeat c r).1.core = s.core := by
  simp only [State.loadSeat]
  split
  · rfl
  · split
    · rfl
    · dsimp only; split <;> split <;> simp

@[simp] theorem State.loadSeats_core (s : State) (c : Card) (l : List SeatRec) : (s.loadSeats c l).1.core = s.core := by
  induction l generalizing s with
  | nil => rfl
  | cons r l ih => simp [State.loadSeats, ih]

@[simp] theorem State.endLoad_core (s : State) (q : Nat) (cid : BitVec 16) (since status : Nat) (r0 : Word) :
      (State.endLoad s q cid since status r0).core = s.core := by
  simp [State.endLoad]

@[simp] theorem loadCard_core (s : State) (e : Sqe) : (loadCard s e).core = s.core := by
  simp only [loadCard]
  split
  · rfl
  · split
    · simp
    · split
      · simp
      · split
        · simp
        · split
          · simp
          · simp only [core_mk, core_fold]
            split <;> simp

@[simp] theorem State.refuseCard_core (s : State) (l : Loading) (status : Nat) :
      (State.refuseCard s l status).core = s.core := by
  simp [State.refuseCard]

@[simp] theorem cardAdmission_core (s : State) : (cardAdmission s).core = s.core := by
  simp only [cardAdmission]; (repeat' split) <;> simp

/-! ### ContractCmd -/

@[simp] theorem State.schedule_core (s : State) (h g : Nat) : (State.schedule s h g).core = s.core := by
  simp only [State.schedule]; split <;> simp

@[simp] theorem activate_core (s : State) (e : Sqe) : (activate s e).core = s.core := by simp [activate]

@[simp] theorem State.withdraw_core (s : State) (c : Contract) (w : Nat) : (State.withdraw s c w).s.core = s.core := by
  simp only [State.withdraw]; split <;> simp

@[simp] theorem withdraw_core (s : State) (e : Sqe) : (withdraw s e).core = s.core := by
  simp only [withdraw]
  refine State.runCmd_core _ _ _ _ _ (fun s => ?_)
  (repeat' split) <;> simp

@[simp] theorem queryContract_core (s : State) (e : Sqe) : (queryContract s e).core = s.core := by
  simp only [queryContract]
  refine State.runCmd_core _ _ _ _ _ (fun s => ?_)
  (repeat' split) <;> simp

/-! ### PeriphUnit -/

@[simp] theorem State.setClaim_core (s : State) (r : Nat) (c : Claim) : (State.setClaim s r c).core = s.core := by
  simp [State.setClaim]

@[simp] theorem State.claimEvent_core (s : State) (r kind : Nat) (owner : BitVec 11) (cfg : Word) :
      (State.claimEvent s r kind owner cfg).core = s.core := by
  simp [State.claimEvent]

@[simp] theorem State.applyConfig_core (s : State) (r : Nat) (cfg : Word) : (State.applyConfig s r cfg).core = s.core := by
  simp [State.applyConfig]

@[simp] theorem State.disable_core (s : State) (r : Nat) : (State.disable s r).core = s.core := by
  simp [State.disable]

@[simp] theorem State.takePins_core (s : State) (r : Nat) (owner : BitVec 11) (ps : List Nat) :
      (State.takePins s r owner ps).core = s.core := by
  simp [State.takePins]

@[simp] theorem State.freePins_core (s : State) (ps : List Nat) : (State.freePins s ps).core = s.core := by
  simp [State.freePins]

@[simp] theorem State.claimRes_core (s : State) (r : Nat) (cfg : Word) : (State.claimRes s r cfg).s.core = s.core := by
  simp only [State.claimRes]; (repeat' split) <;> simp

@[simp] theorem State.releaseRes_core (s : State) (r : Nat) : (State.releaseRes s r).s.core = s.core := by
  simp [State.releaseRes]

@[simp] theorem State.queryRes_core (s : State) (r : Nat) : (State.queryRes s r).s.core = s.core := by
  simp [State.queryRes]

@[simp] theorem State.resourceCmd_core (s : State) (e : Sqe) : (State.resourceCmd s e).core = s.core := by
  simp only [State.resourceCmd]
  refine State.runCmd_core _ _ _ _ _ (fun s => ?_)
  (repeat' split) <;> simp

@[simp] theorem resourceClaim_core (s : State) (e : Sqe) : (resourceClaim s e).core = s.core := by
  simp [resourceClaim]

@[simp] theorem resourceRelease_core (s : State) (e : Sqe) : (resourceRelease s e).core = s.core := by
  simp [resourceRelease]

@[simp] theorem resourceQuery_core (s : State) (e : Sqe) : (resourceQuery s e).core = s.core := by
  simp [resourceQuery]

@[simp] theorem State.perRefuse_core (s : State) : (State.perRefuse s).core = s.core := by
  simp [State.perRefuse]

@[simp] theorem uartTxWrite_core (s : State) (m : BitVec 11) (v : Word) : (uartTxWrite s m v).core = s.core := by
  simp [uartTxWrite]

@[simp] theorem uartRxRead_core (s : State) : (uartRxRead s).core = s.core := by
  simp only [uartRxRead]; split <;> simp

@[simp] theorem uartRxByte_core (s : State) (b : Byte) (stopOk : Bool) : (uartRxByte s b stopOk).core = s.core := by
  simp [uartRxByte]

@[simp] theorem uartTxByteDone_core (s : State) : (uartTxByteDone s).core = s.core := by
  simp only [uartTxByteDone]; split <;> simp

@[simp] theorem i2c1Xfer_core (s : State) (m : BitVec 11) (v : Word) : (i2c1Xfer s m v).core = s.core := by
  simp [i2c1Xfer]

@[simp] theorem i2c1ByteDone_core (s : State) (ack arb : Bool) (b : Byte) : (i2c1ByteDone s ack arb b).core = s.core := by
  simp [i2c1ByteDone]

@[simp] theorem State.setTmr_core (s : State) (k : Nat) (t : Tmr) : (State.setTmr s k t).core = s.core := by
  simp [State.setTmr]

@[simp] theorem tmrCompare_core (s : State) (k : Nat) : (tmrCompare s k).core = s.core := by
  simp [tmrCompare]

@[simp] theorem tmrCapture_core (s : State) (k : Nat) : (tmrCapture s k).core = s.core := by
  simp [tmrCapture]

@[simp] theorem tickOutPulse_core (s : State) : (tickOutPulse s).core = s.core := by simp [tickOutPulse]

@[simp] theorem State.pollRail_core (s : State) (i : Nat) (r : PmbRail) : (State.pollRail s i r).core = s.core := by
  simp [State.pollRail]

@[simp] theorem pmbusPoll_core (s : State) (rails : List PmbRail) (x : Sensors) : (pmbusPoll s rails x).core = s.core := by
  simp only [pmbusPoll]; split <;> simp

@[simp] theorem photoInEdge_core (s : State) : (photoInEdge s).core = s.core := by simp [photoInEdge]

/-! ### Snapshot -/

@[simp] theorem pfCapture_core (s : State) : (pfCapture s).core = s.core := by
  simp only [pfCapture]; split <;> simp

@[simp] theorem State.pfRelease_core (s : State) : (State.pfRelease s).core = s.core := by
  simp [State.pfRelease]

@[simp] theorem pfProgTrigger_core (s : State) : (pfProgTrigger s).core = s.core := by simp [pfProgTrigger]

@[simp] theorem pfCmdTrig_core (s : State) (m : BitVec 11) : (pfCmdTrig s m).core = s.core := by
  simp [pfCmdTrig]

@[simp] theorem pfCmdRelease_core (s : State) (m : BitVec 11) : (pfCmdRelease s m).core = s.core := by
  simp [pfCmdRelease]

@[simp] theorem snapshotHoldExpire_core (s : State) : (snapshotHoldExpire s).core = s.core := by
  simp [snapshotHoldExpire]

@[simp] theorem snapshotArm_core (s : State) (e : Sqe) : (snapshotArm s e).core = s.core := by
  simp only [snapshotArm]
  refine State.runCmd_core _ _ _ _ _ (fun s => ?_)
  (repeat' split) <;> simp

@[simp] theorem snapshotRead_core (s : State) (e : Sqe) : (snapshotRead s e).core = s.core := by
  simp only [snapshotRead]
  refine State.runCmd_core _ _ _ _ _ (fun s => ?_)
  (repeat' split) <;> simp

/-! ### LogUnit -/

@[simp] theorem State.foldWord_core (s : State) (o : Nat) : (State.foldWord s o).core = s.core := by
  simp [State.foldWord]

@[simp] theorem State.logPass_core (s : State) : (State.logPass s).core = s.core := by simp [State.logPass]

@[simp] theorem State.logWrite_core (s : State) (o : Nat) (b : List Byte) (ok : Bool) :
      (State.logWrite s o b ok).core = s.core := by
  simp [State.logWrite]

@[simp] theorem logSliceWrite_core (s : State) (verify1 verify2 : Bool) :
      (logSliceWrite s verify1 verify2).core = s.core := by
  simp [logSliceWrite]

@[simp] theorem State.logBoot_core (s : State) : (State.logBoot s).core = s.core := by simp [State.logBoot]

@[simp] theorem readLog_core (s : State) (e : Sqe) : (readLog s e).core = s.core := by
  simp only [readLog]
  refine State.runCmd_core _ _ _ _ _ (fun s => ?_)
  (repeat' split) <;> simp

end Sys2Proof.Machine
end

