-- ==== Sys2Proof/Laws/CoreSec.lean ====
section
/-! SUPPORT. What the security operations may change of `State.core` (`State.grows`) (R416, R429). -/

namespace Sys2Proof.Machine
open Sys2Proof

/-! ### Security -/

/-! ### What may change in the fuses and the lifecycle record -/

/-- Fuses of `b` hold every bit blown in `a`, and the last token accepted is no older (R416, R429). -/
def Vault.grows (a b : Vault) : Prop :=
  b.serial = a.serial ∧ b.vendorHash = a.vendorHash ∧ a.ownerHash &&& b.ownerHash = a.ownerHash ∧
    a.lcFuse &&& b.lcFuse = a.lcFuse ∧ a.lc.tokenSeq ≤ b.lc.tokenSeq

theorem Vault.grows_refl (a : Vault) : a.grows a := ⟨rfl, rfl, by simp, by simp, Nat.le_refl _⟩

theorem and_grows {w : Nat} {a b c : BitVec w} (h1 : a &&& b = a) (h2 : b &&& c = b) : a &&& c = a := by
  rw [← h1, BitVec.and_assoc, h2]

theorem and_or_self {w : Nat} (a b : BitVec w) : a &&& (a ||| b) = a := by
  ext i; simp; exact fun h => Or.inl h

theorem Vault.grows_trans {a b c : Vault} (h1 : a.grows b) (h2 : b.grows c) : a.grows c :=
  ⟨h2.1.trans h1.1, h2.2.1.trans h1.2.1, and_grows h1.2.2.1 h2.2.2.1, and_grows h1.2.2.2.1 h2.2.2.2.1,
    Nat.le_trans h1.2.2.2.2 h2.2.2.2.2⟩

/-- The queue is the same, and the fuses and the record have only grown. -/
def State.grows (s t : State) : Prop := t.core.2 = s.core.2 ∧ s.core.1.grows t.core.1

theorem State.grows_of_core {s t : State} (h : t.core = s.core) : s.grows t := by
  simp [State.grows, h, Vault.grows_refl]

theorem State.grows_trans {s t u : State} (h1 : s.grows t) (h2 : t.grows u) : s.grows u :=
  ⟨h2.1.trans h1.1, Vault.grows_trans h1.2 h2.2⟩

theorem State.grows_then {s t u : State} (h1 : s.grows t) (h2 : u.core = t.core) : s.grows u :=
  State.grows_trans h1 (State.grows_of_core h2)

theorem State.grows_after {s t u : State} (h1 : t.core = s.core) (h2 : t.grows u) : s.grows u :=
  State.grows_trans (State.grows_of_core h1) h2

/-- The queue is the same, and the fuses and the record have only grown; time may have passed. -/
def State.fuses (s t : State) : Prop := t.pending = s.pending ∧ s.sec.vault.grows t.sec.vault

theorem State.fuses_refl (s : State) : s.fuses s := ⟨rfl, Vault.grows_refl _⟩

theorem State.fuses_of_grows {s t : State} (h : s.grows t) : s.fuses t := ⟨congrArg (fun x => x.1) h.1, h.2⟩

theorem State.fuses_of_core {s t : State} (h : t.core = s.core) : s.fuses t := State.fuses_of_grows (State.grows_of_core h)

theorem State.fuses_after {s t u : State} (h1 : t.core = s.core) (h2 : t.fuses u) : s.fuses u :=
  ⟨h2.1.trans (congrArg (fun x => x.2.1) h1), (congrArg (fun x => x.1) h1 : t.sec.vault = s.sec.vault) ▸ h2.2⟩

theorem State.fuses_after2 {s t u : State} (h1 : s.fuses t) (h2 : u.core = t.core) : s.fuses u :=
  ⟨(congrArg (fun x => x.2.1) h2).trans h1.1, (congrArg (fun x => x.1) h2 : u.sec.vault = t.sec.vault) ▸ h1.2⟩

/-- TOKEN_SEQ is part of what `core` keeps. -/
theorem tokenSeq_of_core {s t : State} (h : t.core = s.core) : t.sec.lc.tokenSeq = s.sec.lc.tokenSeq :=
  congrArg (fun x => x.1.lc.tokenSeq) h

/-- A record whose TOKEN_SEQ is no older. -/
theorem State.writeRecord_grows (s : State) (r : LcRec) (h : s.sec.lc.tokenSeq ≤ r.tokenSeq) : s.grows (s.writeRecord r) :=
  ⟨rfl, rfl, rfl, BitVec.and_self, BitVec.and_self, h⟩

@[simp] theorem State.wipeBank_core (s : State) : (State.wipeBank s).core = s.core := by simp [State.wipeBank]

@[simp] theorem State.smPoke_core (s : State) (o : Nat) (d : List Byte) : (State.smPoke s o d).core = s.core := by
  simp [State.smPoke]

@[simp] theorem State.makeIdentity_core (s : State) : (State.makeIdentity s).core = s.core := by
  simp [State.makeIdentity]

@[simp] theorem State.identityNew_core (s : State) : (State.identityNew s).core = s.core := by
  simp [State.identityNew]

@[simp] theorem State.debugEdge_core (s : State) (was : Bool) (heats : Nat) :
      (State.debugEdge s was heats).core = s.core := by
  simp [State.debugEdge]

@[simp] theorem attest_core (s : State) (e : Sqe) : (attest s e).core = s.core := by
  simp only [attest]
  split
  · rfl
  · (repeat' split) <;> (try simp)
    exact (congrArg (fun x => (_, x)) (congrArg Prod.snd (State.smPoke_core ..))).trans
      (show (((s.takeEntry e.sq).emits (listReads e)).aer e.buf).core = s.core by simp)

@[simp] theorem State.cutAttest_core (s : State) : (State.cutAttest s).core = s.core := by
  simp [State.cutAttest]

@[simp] theorem secTamper_core (s : State) (src : Nat) : (secTamper s src).core = s.core := by
  simp [secTamper]

@[simp] theorem State.setFw_core (s : State) (img : Bool) (f : Fw) : (State.setFw s img f).core = s.core := by
  simp [State.setFw]

@[simp] theorem State.loadBody_core (s : State) (r : Nat) (d : List Byte) (n : Nat) : (s.loadBody r d n).core = s.core := by
  induction n generalizing s r d with
  | zero => simp [State.loadBody]
  | succ n ih => simp [State.loadBody, ih]

@[simp] theorem State.jumpEntry_core (s : State) (entry : Nat) : (State.jumpEntry s entry).core = s.core := by
  simp [State.jumpEntry]

@[simp] theorem State.bootFlags_core (s : State) (img fell : Bool) : (State.bootFlags s img fell).core = s.core := by
  simp [State.bootFlags]

@[simp] theorem State.bootTamper_core (s : State) : (State.bootTamper s).core = s.core := by
  simp [State.bootTamper]

@[simp] theorem State.fwStart_core (s : State) (b : List Byte) (img fell : Bool) : (s.fwStart b img fell).core = s.core := by
  simp only [State.fwStart]
  split
  · split <;> simp
  · split <;> simp

@[simp] theorem State.haltStewards_core (s : State) : (State.haltStewards s).core = s.core := by
  simp only [State.haltStewards]; (repeat' split) <;> simp

@[simp] theorem stewardBoot_core (s : State) (imgA imgB : List Byte) : (stewardBoot s imgA imgB).core = s.core := by
  simp [stewardBoot]

@[simp] theorem State.endTransition_core (s : State) (old new q : Nat) (cid : BitVec 16) :
      (State.endTransition s old new q cid).core = s.core := by
  simp [State.endTransition]

@[simp] theorem identityGenerate_core (s : State) (healthOk : Bool) : (identityGenerate s healthOk).core = s.core := by
  simp only [identityGenerate]; (repeat' split) <;> simp

@[simp] theorem secExtend_core (s : State) (m : BitVec 11) (v : Word) : (secExtend s m v).core = s.core := by
  simp [secExtend]

/-- A token that R429 accepts is newer than the last. -/
theorem State.tokenOk_seq {s : State} {b : List Byte} {target : Nat} (h : s.tokenOk b target = true) :
    s.sec.lc.tokenSeq ≤ tokSeq b := by
  simp only [State.tokenOk, Bool.and_eq_true, decide_eq_true_eq] at h
  omega

theorem State.acceptToken_grows (s : State) (b : List Byte) (r : LcRec) (h : s.sec.lc.tokenSeq ≤ tokSeq b) :
    s.grows (s.acceptToken b r) := s.writeRecord_grows _ h

/-- Fuses are blown: what was blown stays, and the record is as before. -/
theorem State.blow_grows (s : State) (o : BitVec 256) (f : BitVec 2) : s.grows (s.blow o f) :=
  ⟨rfl, rfl, rfl, and_or_self _ _, and_or_self _ _, Nat.le_refl _⟩

@[simp] theorem State.blow_lc (s : State) (o : BitVec 256) (f : BitVec 2) : (s.blow o f).sec.lc = s.sec.lc :=
  (Eq.refl _).trans rfl

/-- The fuses of a transition are blown, then its token is accepted. -/
theorem State.transition_grows (s : State) (b : List Byte) (new q : Nat) (cid : BitVec 16)
    (h : s.sec.lc.tokenSeq ≤ tokSeq b) : s.grows (s.transition b new q cid) := by
  simp only [State.transition]
  have h0 : (s.wipeBank.tally 10).core = s.core := by simp
  generalize s.wipeBank.tally 10 = s0 at h0 ⊢
  have h1 : s0.grows (if s.sec.lcState = 0 then s0.blow (digest (tokKey b)) 1 else s0) ∧
      (if s.sec.lcState = 0 then s0.blow (digest (tokKey b)) 1 else s0).sec.lc = s0.sec.lc := by
    split
    · exact ⟨State.blow_grows _ _ _, State.blow_lc _ _ _⟩
    · exact ⟨State.grows_of_core rfl, rfl⟩
  generalize (if s.sec.lcState = 0 then s0.blow (digest (tokKey b)) 1 else s0) = s1 at h1 ⊢
  have h2 : s1.grows (if new = 4 then s1.blow 0 2 else s1) ∧
      (if new = 4 then s1.blow 0 2 else s1).sec.lc = s1.sec.lc := by
    split
    · exact ⟨State.blow_grows _ _ _, State.blow_lc _ _ _⟩
    · exact ⟨State.grows_of_core rfl, rfl⟩
  generalize (if new = 4 then s1.blow 0 2 else s1) = s2 at h2 ⊢
  have hs : s2.sec.lc.tokenSeq ≤ tokSeq b := by rw [h2.2, h1.2, tokenSeq_of_core h0]; exact h
  have h3 := State.acceptToken_grows s2 b { s2.sec.lc with state := if new = 4 then s2.sec.lc.state else BitVec.ofNat 3 new } hs
  refine State.grows_then (State.grows_after h0 (State.grows_trans h1.1 (State.grows_trans h2.1 h3))) ?_
  (repeat' split) <;> simp

theorem State.tokenCmd_grows (s : State) (e : Sqe) (kind : Nat → Bool) (body : State → List Byte → Nat → State)
    (h : ∀ (s : State) b n, s.grows (body s b n)) : s.grows (s.tokenCmd e kind body) := by
  simp only [State.tokenCmd]
  split
  · exact State.grows_of_core rfl
  · split
    · split
      · exact State.grows_of_core rfl
      · exact State.grows_of_core (by simp)
    · split
      · exact State.grows_of_core rfl
      · split
        · exact State.grows_of_core (by simp)
        · split
          · exact State.grows_of_core (by simp)
          · split
            · exact State.grows_of_core (by simp)
            · exact State.grows_after (t := (s.takeEntry e.sq).readBuffer e) (by simp) (h _ _ _)

theorem lifecycleTransition_grows (s : State) (e : Sqe) : s.grows (lifecycleTransition s e) := by
  unfold lifecycleTransition
  refine State.tokenCmd_grows _ _ _ _ (fun s b n => ?_)
  dsimp only
  split
  · exact State.grows_of_core (by simp)
  · split
    · exact State.grows_of_core (by simp)
    · split
      · exact State.grows_of_core (by simp)
      · split
        · exact State.grows_of_core (by simp)
        · split
          · exact State.grows_of_core (by simp)
          · rename_i h
            exact State.transition_grows _ _ _ _ _ (State.tokenOk_seq (by simpa using h))

theorem State.otherToken_grows (s : State) (e : Sqe) (k : Nat) (eff : State → List Byte → State)
    (h : ∀ (s : State) b, s.sec.lc.tokenSeq ≤ tokSeq b → s.grows (eff s b)) : s.grows (s.otherToken e k eff) := by
  unfold State.otherToken
  refine State.tokenCmd_grows _ _ _ _ (fun s b n => ?_)
  dsimp only
  split
  · exact State.grows_of_core (by simp)
  · rename_i hk
    have hk : s.tokenOk b n = true := by simp at hk; exact hk.1
    exact State.grows_then (h s b (State.tokenOk_seq hk)) (by simp)

@[simp] theorem State.keyChange_core (s : State) (slot : Nat) (key : List Byte) (on : Bool) :
      (State.keyChange s slot key on).core = s.core := by
  simp [State.keyChange]

theorem keyEnrol_grows (s : State) (e : Sqe) : s.grows (keyEnrol s e) :=
  State.otherToken_grows _ _ _ _ (fun s b h => State.grows_then (s.acceptToken_grows b { s.sec.lc with keys := tput keyDflt s.sec.lc.keys (tokTarget b) (some (tokKey b)) } h) (by simp))

theorem keyRevoke_grows (s : State) (e : Sqe) : s.grows (keyRevoke s e) :=
  State.otherToken_grows _ _ _ _ (fun s b h => State.grows_then (s.acceptToken_grows b { s.sec.lc with keys := tput keyDflt s.sec.lc.keys (tokTarget b) none } h) (by simp))

theorem debugOpenCmd_grows (s : State) (e : Sqe) : s.grows (debugOpenCmd s e) := by
  refine State.otherToken_grows _ _ _ _ (fun s b h => State.grows_then (s.acceptToken_grows b s.sec.lc h) ?_)
  dsimp only
  split <;> simp

theorem debugCloseCmd_grows (s : State) (e : Sqe) : s.grows (debugCloseCmd s e) :=
  State.otherToken_grows _ _ _ _ (fun s b h => State.grows_then (s.acceptToken_grows b s.sec.lc h) (by simp))

@[simp] theorem debugExpire_core (s : State) : (debugExpire s).core = s.core := by simp [debugExpire]

@[simp] theorem fwStage_core (s : State) (e : Sqe) : (fwStage s e).core = s.core := by
  simp only [fwStage]; (repeat' split) <;> simp

@[simp] theorem fwCommit_core (s : State) (e : Sqe) : (fwCommit s e).core = s.core := by simp [fwCommit]

theorem State.takeImage_grows (s : State) (img : Bool) : s.grows (s.takeImage img) := by
  simp only [State.takeImage]
  refine State.grows_then ?_ (State.extend_core _ _ _)
  exact State.grows_after (t := { s with sec := { s.sec with image := img } }) rfl (State.writeRecord_grows _ _ (Nat.le_refl _))

theorem State.handover_grows (s : State) : s.grows s.handover := by
  simp only [State.handover]
  split
  · exact State.grows_of_core (by simp)
  · refine State.grows_after (t := { s with pair := { s.pair with svc := !s.pair.svc, stbyImage := s.sec.image } }) rfl ?_
    exact State.grows_then (State.takeImage_grows _ s.pair.stbyImage) (by simp)

@[simp] theorem State.endCommit_core (s : State) : (State.endCommit s).core = s.core := by
  simp only [State.endCommit]; split <;> simp

theorem State.passService_grows (s : State) : s.grows s.passService := by
  simp only [State.passService]
  split
  · refine State.grows_after (t := { s with pair := { s.pair with takeover := false, stbyOk := false, selfTest := true } }) rfl ?_
    exact State.grows_then (State.handover_grows _) (by simp)
  · split
    · split
      · exact State.grows_then (State.handover_grows s) (by simp)
      · exact State.grows_of_core rfl
    · exact State.grows_of_core rfl

/-! ### Rings -/

@[simp] theorem Pacer.await_clock (p : Pacer) (a : PacerArgs) : (p.await a).clock = p.clock := by
  simp only [Pacer.await]; split <;> rfl

@[simp] theorem State.setRing_core (s : State) (k : Nat) (r : Ring) : (State.setRing s k r).core = s.core := by
  simp [State.setRing]

@[simp] theorem State.bellInt_core (s : State) : (State.bellInt s).core = s.core := by simp [State.bellInt]

@[simp] theorem State.doorbell_core (s : State) (k : Nat) (v : Word) (put : Ring → Nat → Ring) :
      (State.doorbell s k v put).core = s.core := by
  simp [State.doorbell]

@[simp] theorem sqTail_core (s : State) (q : Nat) (v : Word) : (sqTail s q v).core = s.core := by
  simp [sqTail]

@[simp] theorem cqHead_core (s : State) (q : Nat) (v : Word) : (cqHead s q v).core = s.core := by
  simp [cqHead]

@[simp] theorem evtHead_core (s : State) (v : Word) : (evtHead s v).core = s.core := by simp [evtHead]

@[simp] theorem telemHead_core (s : State) (v : Word) : (telemHead s v).core = s.core := by
  simp [telemHead]

@[simp] theorem State.hifRefuse_core (s : State) : (State.hifRefuse s).core = s.core := by
  simp [State.hifRefuse]

@[simp] theorem State.holdEvents_core (s : State) : (State.holdEvents s).core = s.core := by
  simp [State.holdEvents]

@[simp] theorem State.cfgWrite_core (s : State) (k : Nat) (v : Word) : (State.cfgWrite s k v).core = s.core := by
  simp [State.cfgWrite]

@[simp] theorem State.baseWrite_core (s : State) (k : Nat) (hi : Bool) (v : Word) :
      (State.baseWrite s k hi v).core = s.core := by
  simp [State.baseWrite]

@[simp] theorem ringEnable_core (s : State) (k : Nat) (v : Word) : (ringEnable s k v).core = s.core := by
  simp [ringEnable]

theorem State.popEvent_core {s u : State} {e : Event} (h : s.popEvent = some (e, u)) : u.core = s.core := by
  simp only [State.popEvent] at h
  split at h
  · injection h with h; injection h with _ h; rw [← h]; exact (core_mk ..).trans (core_fold s)
  · split at h
    · cases h
    · injection h with h; injection h with _ h; rw [← h, State.journal_core]; exact (core_mk ..).trans (core_fold s)

@[simp] theorem State.moveEvents_core (s : State) (n : Nat) : (s.moveEvents n).2.core = s.core := by
  induction n generalizing s with
  | zero => rfl
  | succ n ih =>
    simp only [State.moveEvents]
    split
    · rfl
    · split
      · rfl
      · rename_i h; simp [ih, State.popEvent_core h]

@[simp] theorem eventDeliver_core (s : State) : (eventDeliver s).core = s.core := by
  simp only [eventDeliver]; (repeat' split) <;> simp

@[simp] theorem msixUnmask_core (s : State) (v : Nat) : (msixUnmask s v).core = s.core := by
  simp [msixUnmask]

@[simp] theorem State.msixWrite_core (s : State) (v w : Nat) (d : Word) : (State.msixWrite s v w d).core = s.core := by
  simp only [State.msixWrite]; split <;> simp

@[simp] theorem State.setTelem_core (s : State) (t : Telem) : (State.setTelem s t).core = s.core := by
  simp [State.setTelem]

@[simp] theorem telemetryRecord_core (s : State) : (telemetryRecord s).core = s.core := by
  simp [telemetryRecord]

@[simp] theorem telemetryCfg_core (s : State) (e : Sqe) : (telemetryCfg s e).core = s.core := by
  simp only [telemetryCfg]
  refine State.runCmd_core _ _ _ _ _ (fun s => ?_)
  (repeat' split) <;> simp

@[simp] theorem identify_core (s : State) (e : Sqe) : (identify s e).core = s.core := by
  simp only [identify]
  refine State.runCmd_core _ _ _ _ _ (fun s => ?_)
  (repeat' split) <;> simp

@[simp] theorem State.pacerCtrl_core (s : State) (v : Word) : (State.pacerCtrl s v).core = s.core := by
  simp [State.pacerCtrl]

@[simp] theorem pacerCfg_core (s : State) (e : Sqe) : (pacerCfg s e).core = s.core := by
  simp only [pacerCfg]
  refine State.runCmd_core _ _ _ _ _ (fun s => ?_)
  (repeat' split) <;> simp

@[simp] theorem hostReset_core (s : State) (k : HostReset) : (hostReset s k).core = s.core := by
  simp [hostReset]

@[simp] theorem d3hotEntry_core (s : State) : (d3hotEntry s).core = s.core := by simp [d3hotEntry]

@[simp] theorem d3hotExit_core (s : State) : (d3hotExit s).core = s.core := by simp [d3hotExit]

end Sys2Proof.Machine
end

