-- ==== Sys2Proof/Laws/CoreTop.lean ====
section
/-! SUPPORT. Power, register writes, the fabric, guns and ticks on `State.core`, and every command on it (R416, R429). -/

namespace Sys2Proof.Machine
open Sys2Proof

/-! ### Power -/

@[simp] theorem State.setPwr_core (s : State) (p : Pwr) (h : p.inReset = s.pwr.inReset) : (s.setPwr p).core = s.core :=
  (core_mk ..).trans (by rw [h]; exact core_fold s)

@[simp] theorem State.pwrEvent_core (s : State) (k : Nat) : (State.pwrEvent s k).core = s.core := by
  simp [State.pwrEvent]

@[simp] theorem State.pickDomain_core (s : State) : (State.pickDomain s).core = s.core := by
  simp [State.pickDomain]

@[simp] theorem pwrReq_core (s : State) (m : BitVec 11) (v : Word) : (pwrReq s m v).core = s.core := by
  simp [pwrReq]

@[simp] theorem State.resetRouters_core (s : State) (f : Nat) : (State.resetRouters s f).core = s.core := by
  simp [State.resetRouters]

@[simp] theorem State.fieldOn_core (s : State) (f : Nat) : (State.fieldOn s f).core = s.core := by
  simp [State.fieldOn]

@[simp] theorem State.domReset_core (s : State) (d : Nat) : (State.domReset s d).core = s.core := by
  simp [State.domReset]

@[simp] theorem State.setClk_core (s : State) (k : Nat) (b : Bool) : (State.setClk s k b).core = s.core := by
  simp [State.setClk]

@[simp] theorem pwrDomainOn_core (s : State) (d : Nat) : (pwrDomainOn s d).core = s.core := by
  simp only [pwrDomainOn]; (repeat' split) <;> simp

@[simp] theorem State.domOff_core (s : State) (d : Nat) : (State.domOff s d).core = s.core := by
  simp only [State.domOff]; split <;> simp

@[simp] theorem State.powerGun_core (s : State) : (State.powerGun s).core = s.core := by simp [State.powerGun]

theorem kept_grows (x : Sec) : x.vault.grows x.kept.vault := ⟨rfl, rfl, BitVec.and_self, BitVec.and_self, Nat.le_refl _⟩

theorem deviceReset_core (s : State) (c : ResetCause) :
    (deviceReset s c).core = (s.sec.kept.vault, s.pending, 0, true, (0, 0, false)) := core_mk ..

theorem deviceReset_fuses (s : State) (c : ResetCause) : s.fuses (deviceReset s c) := by
  have h := deviceReset_core s c
  exact ⟨congrArg (fun x => x.2.1) h, by
    show s.sec.vault.grows (deviceReset s c).core.1; rw [h]; exact kept_grows s.sec⟩

theorem resetRelease_fuses (s : State) : s.fuses (resetRelease s) := by
  simp only [resetRelease]; split
  · exact State.fuses_refl s
  · exact ⟨rfl, Vault.grows_refl _⟩

theorem mainPowerFail_core (s : State) : (mainPowerFail s).core = (s.sec.kept.vault, s.pending, 0, true, (0, 0, false)) := by
  simp only [mainPowerFail]
  split
  · exact (core_mk ..).trans (deviceReset_core s .por)
  · exact (State.wipeBank_core _).trans ((core_mk ..).trans (deviceReset_core s .por))

theorem mainPowerFail_fuses (s : State) : s.fuses (mainPowerFail s) := by
  have h := mainPowerFail_core s
  exact ⟨congrArg (fun x => x.2.1) h, by
    show s.sec.vault.grows (mainPowerFail s).core.1; rw [h]; exact kept_grows s.sec⟩

@[simp] theorem vbatApplication_core (s : State) : (vbatApplication s).core = s.core := by
  simp only [vbatApplication]; split
  · rfl
  · exact (core_mk ..).trans (congrArg (fun x => (x, s.pending, s.now, s.pwr.inReset, s.pacer.clock)) (vault_mk ..))

@[simp] theorem State.groupDown_core (s : State) (g : Nat) : (State.groupDown s g).core = s.core := by
  simp [State.groupDown]

@[simp] theorem clkFail_core (s : State) (c : Clock) : (clkFail s c).core = s.core := by
  simp only [clkFail]; (repeat' split) <;> simp

@[simp] theorem clkLockReturn_core (s : State) (c : Clock) : (clkLockReturn s c).core = s.core := by
  simp [clkLockReturn]

theorem corePllLockLoss_fuses (s : State) : s.fuses (corePllLockLoss s) := deviceReset_fuses s _

@[simp] theorem State.wdtCfg_core (s : State) (v : Word) : (State.wdtCfg s v).core = s.core := by
  simp [State.wdtCfg]

@[simp] theorem wdtKick_core (s : State) (m : BitVec 11) (v : Word) : (wdtKick s m v).core = s.core := by
  simp [wdtKick]

theorem wdtExpired_fuses (s : State) (st : Nat) : s.fuses (wdtExpired s st) := by
  simp only [wdtExpired]; split
  · exact State.fuses_refl s
  · split
    · split
      · exact State.fuses_of_core (by simp)
      · exact State.fuses_after (by simp) (deviceReset_fuses _ _)
    · exact State.fuses_of_core (by simp)

@[simp] theorem pwrTjWarn_core (s : State) (i : Nat) (tj : BitVec 16) : (pwrTjWarn s i tj).core = s.core := by
  simp [pwrTjWarn]

theorem thermalTrip_fuses (s : State) (i : Nat) : s.fuses (thermalTrip s i) := by
  simp only [thermalTrip]; split
  · exact deviceReset_fuses s _
  · exact State.fuses_refl s

@[simp] theorem State.pwrReset1_core (s : State) (p : Nat) : (State.pwrReset1 s p).core = s.core := by
  simp [State.pwrReset1]

@[simp] theorem pwrLaneRst_core (s : State) (m : BitVec 11) (v : Word) : (pwrLaneRst s m v).core = s.core := by
  simp [pwrLaneRst]

@[simp] theorem pwrFieldRst_core (s : State) (m : BitVec 11) (v : Word) : (pwrFieldRst s m v).core = s.core := by
  simp [pwrFieldRst]

@[simp] theorem rtcLoRead_core (s : State) : (rtcLoRead s).core = s.core := by simp [rtcLoRead]

/-! ### RegWrite -/

@[simp] theorem State.regRead_core (s : State) (a : Nat) : (State.regRead s a).2.core = s.core := by
  simp only [State.regRead]; (repeat' split) <;> simp

@[simp] theorem hifWrite_core (s : State) (o : Nat) (v : Word) : (hifWrite s o v).core = s.core := by
  simp only [hifWrite]; (repeat' split) <;> simp

@[simp] theorem State.setPend_core (s : State) (f : PacerPend → PacerPend) : (State.setPend s f).core = s.core := by
  simp [State.setPend]

@[simp] theorem State.pacerCtrlWrite_core (s : State) (v : Word) : (State.pacerCtrlWrite s v).core = s.core := by
  simp [State.pacerCtrlWrite]

@[simp] theorem pacerWrite_core (s : State) (o : Nat) (v : Word) : (pacerWrite s o v).core = s.core := by
  simp only [pacerWrite]; split <;> simp

@[simp] theorem secWrite_core (s : State) (m : BitVec 11) (o : Nat) (v : Word) : (secWrite s m o v).core = s.core := by
  simp only [secWrite]; split <;> simp

@[simp] theorem pfWrite_core (s : State) (o : Nat) (v : Word) : (pfWrite s o v).core = s.core := by
  simp only [pfWrite]; split <;> simp

@[simp] theorem pwrWrite_core (s : State) (m : BitVec 11) (o : Nat) (v : Word) : (pwrWrite s m o v).core = s.core := by
  simp only [pwrWrite]; split <;> simp

@[simp] theorem State.gpioWrite_core (s : State) (m : BitVec 11) (dir : Bool) (v : Word) :
      (State.gpioWrite s m dir v).core = s.core := by
  simp [State.gpioWrite]

@[simp] theorem tmrWrite_core (s : State) (m : BitVec 11) (k o : Nat) (v : Word) : (tmrWrite s m k o v).core = s.core := by
  simp only [tmrWrite]; (repeat' split) <;> simp

@[simp] theorem perWrite_core (s : State) (m : BitVec 11) (o : Nat) (v : Word) : (perWrite s m o v).core = s.core := by
  simp only [perWrite]; (repeat' split) <;> simp

@[simp] theorem memWrite_core (s : State) (m : BitVec 11) (p o : Nat) (v : Word) : (memWrite s m p o v).core = s.core := by
  simp only [memWrite]; split <;> simp

@[simp] theorem smWriteReg_core (s : State) (o : Nat) (v : Word) : (smWriteReg s o v).core = s.core := by
  simp [smWriteReg]

@[simp] theorem routerWrite_core (s : State) (stw : Bool) (r : RouterId) (o cnt : Nat) (v : Word) :
      (routerWrite s stw r o cnt v).core = s.core := by
  simp [routerWrite]

@[simp] theorem qdrWrite_core (s : State) (m : BitVec 11) (k o : Nat) (v : Word) : (qdrWrite s m k o v).core = s.core := by
  simp only [qdrWrite]; split <;> simp

@[simp] theorem portWrite_core (s : State) (k o : Nat) (v : Word) : (portWrite s k o v).core = s.core := by
  simp only [portWrite]; split <;> simp

@[simp] theorem slotWriteAt_core (s : State) (stw inp : Bool) (k o : Nat) (v : Word) :
      (slotWriteAt s stw inp k o v).core = s.core := by
  simp [slotWriteAt]

@[simp] theorem fabWaitMaxClear_core (s : State) (m : BitVec 11) (t : Nat) : (fabWaitMaxClear s m t).core = s.core := by
  simp [fabWaitMaxClear]

@[simp] theorem fabWrite_core (s : State) (m : BitVec 11) (o : Nat) (v : Word) : (fabWrite s m o v).core = s.core := by
  simp only [fabWrite]; (repeat' split) <;> simp

@[simp] theorem mbxRead_core (s : State) (m : BitVec 11) (c o : Nat) (be : BitVec 4) :
      (mbxRead s m c o be).core = s.core := by
  simp [mbxRead]

@[simp] theorem mbxWrite_core (s : State) (m : BitVec 11) (c o : Nat) (be : BitVec 4) (v : Word) :
      (mbxWrite s m c o be v).core = s.core := by
  simp [mbxWrite]

@[simp] theorem State.regPut_core (s : State) (m : BitVec 11) (a : Nat) (v w : Word) :
      (State.regPut s m a v w).core = s.core := by
  simp [State.regPut] <;> (repeat' split) <;> simp_all

@[simp] theorem State.regWrite_core (s : State) (m : BitVec 11) (a : Nat) (be : BitVec 4) (v : Word) :
      (State.regWrite s m a be v).2.core = s.core := by
  simp only [State.regWrite]; (repeat' split) <;> simp

@[simp] theorem bar2Write_core (s : State) (o : Nat) (v : Word) : (bar2Write s o v).core = s.core := by
  simp [bar2Write]

@[simp] theorem State.advise_core (s : State) (m : BitVec 11) (code : BitVec 2) : (State.advise s m code).core = s.core := by
  simp only [State.advise]; (repeat' split) <;> simp

@[simp] theorem State.targetWrite_core (s : State) (m : BitVec 11) (n : Nat) (v : Word) (t : Option Nat) :
      (State.targetWrite s m n v t).core = s.core := by
  simp only [State.targetWrite]; (repeat' split) <;> simp

@[simp] theorem State.writeAt_core (s : State) (m : BitVec 11) (n : Nat) (v : Word) :
      (State.writeAt s m n v).core = s.core := by
  simp only [State.writeAt]; (repeat' split) <;> simp

@[simp] theorem registerWrite_core (s : State) (m : BitVec 11) (a v : Word) : (registerWrite s m a v).core = s.core := by
  simp only [registerWrite]; (repeat' split) <;> simp

/-! ### Fabric -/

@[simp] theorem State.stwData_core (s : State) (r : FabReq) : (State.stwData s r).2.core = s.core := by
  simp only [State.stwData]; (repeat' split) <;> simp

@[simp] theorem State.hostRefused_core (s : State) (write : Bool) : (State.hostRefused s write).core = s.core := by
  simp only [State.hostRefused]; (repeat' split) <;> simp

@[simp] theorem State.bar2Access_core (s : State) (q : FabReq) : (State.bar2Access s q).core = s.core := by
  simp only [State.bar2Access]; (repeat' split) <;> simp

@[simp] theorem State.fabRequest_core (s : State) (q : FabReq) : (State.fabRequest s q).core = s.core := by
  simp only [State.fabRequest]; (repeat' split) <;> simp

@[simp] theorem fabricRequest_core (s : State) (q : FabReq) : (fabricRequest s q).core = s.core := by
  simp [fabricRequest]

@[simp] theorem State.arbitrate_core (s : State) (key : Nat) (w : List Nat) : (State.arbitrate s key w).2.core = s.core := by
  simp [State.arbitrate]

@[simp] theorem State.grantLeaf_core (s : State) (t : Nat) (l : List Nat) : (State.grantLeaf s t l).2.core = s.core := by
  simp only [State.grantLeaf]; (repeat' split) <;> simp

@[simp] theorem State.qdrRod_core (s : State) (r : FRod) (poison : Bool) : (State.qdrRod s r poison).core = s.core := by
  simp [State.qdrRod]

@[simp] theorem State.smRod_core (s : State) (r : FRod) (poison : Bool) : (State.smRod s r poison).core = s.core := by
  simp [State.smRod]

@[simp] theorem State.wordAccess_core (s : State) (m : BitVec 11) (write : Bool) (a : Nat) (be : BitVec 4)
      (v : Word) : (State.wordAccess s m write a be v).2.2.core = s.core := by
  simp only [State.wordAccess]; (repeat' split) <;> simp

@[simp] theorem State.wordsAccess_core (s : State) (m : BitVec 11) (w : Bool) (l : List (Nat × BitVec 4 × Word)) :
    (s.wordsAccess m w l).2.2.core = s.core := by
  induction l generalizing s with
  | nil => rfl
  | cons x r ih =>
    obtain ⟨a, be, v⟩ := x
    simp only [State.wordsAccess]; (repeat' split) <;> simp [ih]

@[simp] theorem State.wordRod_core (s : State) (r : FRod) (poison : Bool) : (State.wordRod s r poison).core = s.core := by
  simp [State.wordRod]

@[simp] theorem State.perform_core (s : State) (r : FRod) (poison : Bool) : (State.perform s r poison).core = s.core := by
  simp [State.perform] <;> (repeat' split) <;> simp_all

@[simp] theorem State.deliver_core (s : State) (r : FRod) (e : RodErr) : (State.deliver s r e).core = s.core := by
  simp only [State.deliver]; (repeat' split) <;> simp

@[simp] theorem fabricGrant_core (s : State) (t : Nat) (err : RodErr) : (fabricGrant s t err).core = s.core := by
  simp only [fabricGrant]; (repeat' split) <;> simp

@[simp] theorem State.hostAnswer_core (s : State) (r : FResp) (code : BitVec 2) (data : List Byte) :
      (State.hostAnswer s r code data).core = s.core := by
  simp only [State.hostAnswer]; (repeat' split) <;> simp

@[simp] theorem fabricResponse_core (s : State) (m : BitVec 11) (e : HopErr) : (fabricResponse s m e).core = s.core := by
  simp only [fabricResponse]; split <;> simp

@[simp] theorem periphBusAccess_core (s : State) : (periphBusAccess s).core = s.core := by
  simp only [periphBusAccess]; split <;> simp

/-! ### Gun -/

theorem State.noteUsage_nextNum (s : State) : s.noteUsage.pacer.nextNum = s.pacer.nextNum := by
  simp only [State.noteUsage]; split <;> rfl

@[simp] theorem State.gunSamples_core (s : State) : (State.gunSamples s).core = s.core := by
  simp [State.gunSamples]

@[simp] theorem State.noteUsage_core (s : State) : (State.noteUsage s).core = s.core := by
  simp [State.noteUsage]

@[simp] theorem State.gunLanes_core (s : State) : (State.gunLanes s).core = s.core := by simp [State.gunLanes]

@[simp] theorem State.gunTrap_core (s : State) (p n : Nat) : (State.gunTrap s p n).core = s.core := by
  simp [State.gunTrap]

@[simp] theorem State.overrun_core (s : State) (h seat p : Nat) : (State.overrun s h seat p).core = s.core := by
  simp only [State.overrun]; split <;> simp

@[simp] theorem State.overruns_core (s : State) : (State.overruns s).core = s.core := by simp [State.overruns]

@[simp] theorem State.mbxWaitsEnd_core (s : State) : (State.mbxWaitsEnd s).core = s.core := by
  simp [State.mbxWaitsEnd]

@[simp] theorem State.doAct_core (s : State) (a : Act) : (State.doAct s a).core = s.core := by
  simp only [State.doAct]; (repeat' split) <;> simp

@[simp] theorem State.dueActs_core (s : State) : (State.dueActs s).core = s.core := by simp [State.dueActs]

@[simp] theorem State.startHeats_core (s : State) : (State.startHeats s).core = s.core := by
  simp [State.startHeats]

@[simp] theorem State.gunInts_core (s : State) : (State.gunInts s).core = s.core := by simp [State.gunInts]

@[simp] theorem State.gunBlocks_core (s : State) : (State.gunBlocks s).core = s.core := by
  simp [State.gunBlocks]

@[simp] theorem State.newSelections_core (s : State) : (State.newSelections s).core = s.core := by
  simp [State.newSelections]

@[simp] theorem State.notePhase_core (s : State) : (State.notePhase s).core = s.core := by
  simp [State.notePhase]

@[simp] theorem State.settleLanes_core (s : State) : (State.settleLanes s).core = s.core := by simp [State.settleLanes]

/-- The steps of the gun after the pacer's only blow fuses. -/
theorem gun_grows (s : State) : s.grows
    (s.notePhase.gunSamples.newSelections.gunLanes.overruns.mbxWaitsEnd.withdrawals.activations.bankSwitch.dueActs.restartSweeps.resumeGroups.channelActs.prepare.clearDue.passService.powerGun.startHeats.gunBlocks.gunInts) := by
  refine State.grows_then (State.grows_after
    (t := s.notePhase.gunSamples.newSelections.gunLanes.overruns.mbxWaitsEnd.withdrawals.activations.bankSwitch.dueActs.restartSweeps.resumeGroups.channelActs.prepare.clearDue)
    ?_ (State.passService_grows _)) ?_
  · simp
  · simp

end Sys2Proof.Machine
end

