-- ==== Sys2Proof/Laws/State.lean ====
section
/-! SUPPORT. One lemma per field per update of State, and what the tables of State hold after an update. -/

namespace Sys2Proof.Machine
open Sys2Proof

/-! ### setLane -/

@[simp] theorem State.setLane_now (s : State) (p : Nat) (l : Lane) : (s.setLane p l).now = s.now := rfl
@[simp] theorem State.setLane_pacer (s : State) (p : Nat) (l : Lane) : (s.setLane p l).pacer = s.pacer := rfl
@[simp] theorem State.setLane_mems (s : State) (p : Nat) (l : Lane) : (s.setLane p l).mems = s.mems := rfl
@[simp] theorem State.setLane_relay (s : State) (p : Nat) (l : Lane) : (s.setLane p l).relay = s.relay := rfl
@[simp] theorem State.setLane_mail (s : State) (p : Nat) (l : Lane) : (s.setLane p l).mail = s.mail := rfl
@[simp] theorem State.setLane_sm (s : State) (p : Nat) (l : Lane) : (s.setLane p l).sm = s.sm := rfl
@[simp] theorem State.setLane_qdr (s : State) (p : Nat) (l : Lane) : (s.setLane p l).qdr = s.qdr := rfl
@[simp] theorem State.setLane_eng (s : State) (p : Nat) (l : Lane) : (s.setLane p l).eng = s.eng := rfl
@[simp] theorem State.setLane_mc (s : State) (p : Nat) (l : Lane) : (s.setLane p l).mc = s.mc := rfl
@[simp] theorem State.setLane_fab (s : State) (p : Nat) (l : Lane) : (s.setLane p l).fab = s.fab := rfl
@[simp] theorem State.setLane_con (s : State) (p : Nat) (l : Lane) : (s.setLane p l).con = s.con := rfl
@[simp] theorem State.setLane_load (s : State) (p : Nat) (l : Lane) : (s.setLane p l).load = s.load := rfl
@[simp] theorem State.setLane_ports (s : State) (p : Nat) (l : Lane) : (s.setLane p l).ports = s.ports := rfl
@[simp] theorem State.setLane_stw (s : State) (p : Nat) (l : Lane) : (s.setLane p l).stw = s.stw := rfl
@[simp] theorem State.setLane_hif (s : State) (p : Nat) (l : Lane) : (s.setLane p l).hif = s.hif := rfl
@[simp] theorem State.setLane_ev (s : State) (p : Nat) (l : Lane) : (s.setLane p l).ev = s.ev := rfl
@[simp] theorem State.setLane_pair (s : State) (p : Nat) (l : Lane) : (s.setLane p l).pair = s.pair := rfl
@[simp] theorem State.setLane_sec (s : State) (p : Nat) (l : Lane) : (s.setLane p l).sec = s.sec := rfl
@[simp] theorem State.setLane_snap (s : State) (p : Nat) (l : Lane) : (s.setLane p l).snap = s.snap := rfl
@[simp] theorem State.setLane_log (s : State) (p : Nat) (l : Lane) : (s.setLane p l).log = s.log := rfl
@[simp] theorem State.setLane_pwr (s : State) (p : Nat) (l : Lane) : (s.setLane p l).pwr = s.pwr := rfl
@[simp] theorem State.setLane_per (s : State) (p : Nat) (l : Lane) : (s.setLane p l).per = s.per := rfl
@[simp] theorem State.setLane_resp (s : State) (p : Nat) (l : Lane) : (s.setLane p l).resp = s.resp := rfl
@[simp] theorem State.setLane_out (s : State) (p : Nat) (l : Lane) : (s.setLane p l).out = s.out := rfl
@[simp] theorem State.setLane_free (s : State) (p : Nat) (l : Lane) : (s.setLane p l).free = s.free := rfl
@[simp] theorem State.setLane_pending (s : State) (p : Nat) (l : Lane) : (s.setLane p l).pending = s.pending := rfl

/-! ### setLmem -/

@[simp] theorem State.setLmem_now (s : State) (p : Nat) (m : LaneMem) : (s.setLmem p m).now = s.now := rfl
@[simp] theorem State.setLmem_pacer (s : State) (p : Nat) (m : LaneMem) : (s.setLmem p m).pacer = s.pacer := rfl
@[simp] theorem State.setLmem_lanes (s : State) (p : Nat) (m : LaneMem) : (s.setLmem p m).lanes = s.lanes := rfl
@[simp] theorem State.setLmem_relay (s : State) (p : Nat) (m : LaneMem) : (s.setLmem p m).relay = s.relay := rfl
@[simp] theorem State.setLmem_mail (s : State) (p : Nat) (m : LaneMem) : (s.setLmem p m).mail = s.mail := rfl
@[simp] theorem State.setLmem_sm (s : State) (p : Nat) (m : LaneMem) : (s.setLmem p m).sm = s.sm := rfl
@[simp] theorem State.setLmem_qdr (s : State) (p : Nat) (m : LaneMem) : (s.setLmem p m).qdr = s.qdr := rfl
@[simp] theorem State.setLmem_eng (s : State) (p : Nat) (m : LaneMem) : (s.setLmem p m).eng = s.eng := rfl
@[simp] theorem State.setLmem_mc (s : State) (p : Nat) (m : LaneMem) : (s.setLmem p m).mc = s.mc := rfl
@[simp] theorem State.setLmem_fab (s : State) (p : Nat) (m : LaneMem) : (s.setLmem p m).fab = s.fab := rfl
@[simp] theorem State.setLmem_con (s : State) (p : Nat) (m : LaneMem) : (s.setLmem p m).con = s.con := rfl
@[simp] theorem State.setLmem_load (s : State) (p : Nat) (m : LaneMem) : (s.setLmem p m).load = s.load := rfl
@[simp] theorem State.setLmem_ports (s : State) (p : Nat) (m : LaneMem) : (s.setLmem p m).ports = s.ports := rfl
@[simp] theorem State.setLmem_stw (s : State) (p : Nat) (m : LaneMem) : (s.setLmem p m).stw = s.stw := rfl
@[simp] theorem State.setLmem_hif (s : State) (p : Nat) (m : LaneMem) : (s.setLmem p m).hif = s.hif := rfl
@[simp] theorem State.setLmem_ev (s : State) (p : Nat) (m : LaneMem) : (s.setLmem p m).ev = s.ev := rfl
@[simp] theorem State.setLmem_pair (s : State) (p : Nat) (m : LaneMem) : (s.setLmem p m).pair = s.pair := rfl
@[simp] theorem State.setLmem_sec (s : State) (p : Nat) (m : LaneMem) : (s.setLmem p m).sec = s.sec := rfl
@[simp] theorem State.setLmem_snap (s : State) (p : Nat) (m : LaneMem) : (s.setLmem p m).snap = s.snap := rfl
@[simp] theorem State.setLmem_log (s : State) (p : Nat) (m : LaneMem) : (s.setLmem p m).log = s.log := rfl
@[simp] theorem State.setLmem_pwr (s : State) (p : Nat) (m : LaneMem) : (s.setLmem p m).pwr = s.pwr := rfl
@[simp] theorem State.setLmem_per (s : State) (p : Nat) (m : LaneMem) : (s.setLmem p m).per = s.per := rfl
@[simp] theorem State.setLmem_resp (s : State) (p : Nat) (m : LaneMem) : (s.setLmem p m).resp = s.resp := rfl
@[simp] theorem State.setLmem_out (s : State) (p : Nat) (m : LaneMem) : (s.setLmem p m).out = s.out := rfl
@[simp] theorem State.setLmem_free (s : State) (p : Nat) (m : LaneMem) : (s.setLmem p m).free = s.free := rfl
@[simp] theorem State.setLmem_pending (s : State) (p : Nat) (m : LaneMem) : (s.setLmem p m).pending = s.pending := rfl

/-! ### setQch -/

@[simp] theorem State.setQch_now (s : State) (k : Nat) (q : Qdr) : (s.setQch k q).now = s.now := rfl
@[simp] theorem State.setQch_pacer (s : State) (k : Nat) (q : Qdr) : (s.setQch k q).pacer = s.pacer := rfl
@[simp] theorem State.setQch_lanes (s : State) (k : Nat) (q : Qdr) : (s.setQch k q).lanes = s.lanes := rfl
@[simp] theorem State.setQch_mems (s : State) (k : Nat) (q : Qdr) : (s.setQch k q).mems = s.mems := rfl
@[simp] theorem State.setQch_relay (s : State) (k : Nat) (q : Qdr) : (s.setQch k q).relay = s.relay := rfl
@[simp] theorem State.setQch_mail (s : State) (k : Nat) (q : Qdr) : (s.setQch k q).mail = s.mail := rfl
@[simp] theorem State.setQch_sm (s : State) (k : Nat) (q : Qdr) : (s.setQch k q).sm = s.sm := rfl
@[simp] theorem State.setQch_eng (s : State) (k : Nat) (q : Qdr) : (s.setQch k q).eng = s.eng := rfl
@[simp] theorem State.setQch_mc (s : State) (k : Nat) (q : Qdr) : (s.setQch k q).mc = s.mc := rfl
@[simp] theorem State.setQch_fab (s : State) (k : Nat) (q : Qdr) : (s.setQch k q).fab = s.fab := rfl
@[simp] theorem State.setQch_con (s : State) (k : Nat) (q : Qdr) : (s.setQch k q).con = s.con := rfl
@[simp] theorem State.setQch_load (s : State) (k : Nat) (q : Qdr) : (s.setQch k q).load = s.load := rfl
@[simp] theorem State.setQch_ports (s : State) (k : Nat) (q : Qdr) : (s.setQch k q).ports = s.ports := rfl
@[simp] theorem State.setQch_stw (s : State) (k : Nat) (q : Qdr) : (s.setQch k q).stw = s.stw := rfl
@[simp] theorem State.setQch_hif (s : State) (k : Nat) (q : Qdr) : (s.setQch k q).hif = s.hif := rfl
@[simp] theorem State.setQch_ev (s : State) (k : Nat) (q : Qdr) : (s.setQch k q).ev = s.ev := rfl
@[simp] theorem State.setQch_pair (s : State) (k : Nat) (q : Qdr) : (s.setQch k q).pair = s.pair := rfl
@[simp] theorem State.setQch_sec (s : State) (k : Nat) (q : Qdr) : (s.setQch k q).sec = s.sec := rfl
@[simp] theorem State.setQch_snap (s : State) (k : Nat) (q : Qdr) : (s.setQch k q).snap = s.snap := rfl
@[simp] theorem State.setQch_log (s : State) (k : Nat) (q : Qdr) : (s.setQch k q).log = s.log := rfl
@[simp] theorem State.setQch_pwr (s : State) (k : Nat) (q : Qdr) : (s.setQch k q).pwr = s.pwr := rfl
@[simp] theorem State.setQch_per (s : State) (k : Nat) (q : Qdr) : (s.setQch k q).per = s.per := rfl
@[simp] theorem State.setQch_resp (s : State) (k : Nat) (q : Qdr) : (s.setQch k q).resp = s.resp := rfl
@[simp] theorem State.setQch_out (s : State) (k : Nat) (q : Qdr) : (s.setQch k q).out = s.out := rfl
@[simp] theorem State.setQch_free (s : State) (k : Nat) (q : Qdr) : (s.setQch k q).free = s.free := rfl
@[simp] theorem State.setQch_pending (s : State) (k : Nat) (q : Qdr) : (s.setQch k q).pending = s.pending := rfl

/-! ### setEngine -/

@[simp] theorem State.setEngine_now (s : State) (e : Nat) (v : Engine) : (s.setEngine e v).now = s.now := rfl
@[simp] theorem State.setEngine_pacer (s : State) (e : Nat) (v : Engine) : (s.setEngine e v).pacer = s.pacer := rfl
@[simp] theorem State.setEngine_lanes (s : State) (e : Nat) (v : Engine) : (s.setEngine e v).lanes = s.lanes := rfl
@[simp] theorem State.setEngine_mems (s : State) (e : Nat) (v : Engine) : (s.setEngine e v).mems = s.mems := rfl
@[simp] theorem State.setEngine_relay (s : State) (e : Nat) (v : Engine) : (s.setEngine e v).relay = s.relay := rfl
@[simp] theorem State.setEngine_mail (s : State) (e : Nat) (v : Engine) : (s.setEngine e v).mail = s.mail := rfl
@[simp] theorem State.setEngine_sm (s : State) (e : Nat) (v : Engine) : (s.setEngine e v).sm = s.sm := rfl
@[simp] theorem State.setEngine_qdr (s : State) (e : Nat) (v : Engine) : (s.setEngine e v).qdr = s.qdr := rfl
@[simp] theorem State.setEngine_mc (s : State) (e : Nat) (v : Engine) : (s.setEngine e v).mc = s.mc := rfl
@[simp] theorem State.setEngine_fab (s : State) (e : Nat) (v : Engine) : (s.setEngine e v).fab = s.fab := rfl
@[simp] theorem State.setEngine_con (s : State) (e : Nat) (v : Engine) : (s.setEngine e v).con = s.con := rfl
@[simp] theorem State.setEngine_load (s : State) (e : Nat) (v : Engine) : (s.setEngine e v).load = s.load := rfl
@[simp] theorem State.setEngine_ports (s : State) (e : Nat) (v : Engine) : (s.setEngine e v).ports = s.ports := rfl
@[simp] theorem State.setEngine_stw (s : State) (e : Nat) (v : Engine) : (s.setEngine e v).stw = s.stw := rfl
@[simp] theorem State.setEngine_hif (s : State) (e : Nat) (v : Engine) : (s.setEngine e v).hif = s.hif := rfl
@[simp] theorem State.setEngine_ev (s : State) (e : Nat) (v : Engine) : (s.setEngine e v).ev = s.ev := rfl
@[simp] theorem State.setEngine_pair (s : State) (e : Nat) (v : Engine) : (s.setEngine e v).pair = s.pair := rfl
@[simp] theorem State.setEngine_sec (s : State) (e : Nat) (v : Engine) : (s.setEngine e v).sec = s.sec := rfl
@[simp] theorem State.setEngine_snap (s : State) (e : Nat) (v : Engine) : (s.setEngine e v).snap = s.snap := rfl
@[simp] theorem State.setEngine_log (s : State) (e : Nat) (v : Engine) : (s.setEngine e v).log = s.log := rfl
@[simp] theorem State.setEngine_pwr (s : State) (e : Nat) (v : Engine) : (s.setEngine e v).pwr = s.pwr := rfl
@[simp] theorem State.setEngine_per (s : State) (e : Nat) (v : Engine) : (s.setEngine e v).per = s.per := rfl
@[simp] theorem State.setEngine_resp (s : State) (e : Nat) (v : Engine) : (s.setEngine e v).resp = s.resp := rfl
@[simp] theorem State.setEngine_out (s : State) (e : Nat) (v : Engine) : (s.setEngine e v).out = s.out := rfl
@[simp] theorem State.setEngine_free (s : State) (e : Nat) (v : Engine) : (s.setEngine e v).free = s.free := rfl
@[simp] theorem State.setEngine_pending (s : State) (e : Nat) (v : Engine) : (s.setEngine e v).pending = s.pending := rfl

/-! ### setPort -/

@[simp] theorem State.setPort_now (s : State) (k : Nat) (v : Port) : (s.setPort k v).now = s.now := rfl
@[simp] theorem State.setPort_pacer (s : State) (k : Nat) (v : Port) : (s.setPort k v).pacer = s.pacer := rfl
@[simp] theorem State.setPort_lanes (s : State) (k : Nat) (v : Port) : (s.setPort k v).lanes = s.lanes := rfl
@[simp] theorem State.setPort_mems (s : State) (k : Nat) (v : Port) : (s.setPort k v).mems = s.mems := rfl
@[simp] theorem State.setPort_relay (s : State) (k : Nat) (v : Port) : (s.setPort k v).relay = s.relay := rfl
@[simp] theorem State.setPort_mail (s : State) (k : Nat) (v : Port) : (s.setPort k v).mail = s.mail := rfl
@[simp] theorem State.setPort_sm (s : State) (k : Nat) (v : Port) : (s.setPort k v).sm = s.sm := rfl
@[simp] theorem State.setPort_qdr (s : State) (k : Nat) (v : Port) : (s.setPort k v).qdr = s.qdr := rfl
@[simp] theorem State.setPort_eng (s : State) (k : Nat) (v : Port) : (s.setPort k v).eng = s.eng := rfl
@[simp] theorem State.setPort_mc (s : State) (k : Nat) (v : Port) : (s.setPort k v).mc = s.mc := rfl
@[simp] theorem State.setPort_fab (s : State) (k : Nat) (v : Port) : (s.setPort k v).fab = s.fab := rfl
@[simp] theorem State.setPort_con (s : State) (k : Nat) (v : Port) : (s.setPort k v).con = s.con := rfl
@[simp] theorem State.setPort_load (s : State) (k : Nat) (v : Port) : (s.setPort k v).load = s.load := rfl
@[simp] theorem State.setPort_stw (s : State) (k : Nat) (v : Port) : (s.setPort k v).stw = s.stw := rfl
@[simp] theorem State.setPort_hif (s : State) (k : Nat) (v : Port) : (s.setPort k v).hif = s.hif := rfl
@[simp] theorem State.setPort_ev (s : State) (k : Nat) (v : Port) : (s.setPort k v).ev = s.ev := rfl
@[simp] theorem State.setPort_pair (s : State) (k : Nat) (v : Port) : (s.setPort k v).pair = s.pair := rfl
@[simp] theorem State.setPort_sec (s : State) (k : Nat) (v : Port) : (s.setPort k v).sec = s.sec := rfl
@[simp] theorem State.setPort_snap (s : State) (k : Nat) (v : Port) : (s.setPort k v).snap = s.snap := rfl
@[simp] theorem State.setPort_log (s : State) (k : Nat) (v : Port) : (s.setPort k v).log = s.log := rfl
@[simp] theorem State.setPort_pwr (s : State) (k : Nat) (v : Port) : (s.setPort k v).pwr = s.pwr := rfl
@[simp] theorem State.setPort_per (s : State) (k : Nat) (v : Port) : (s.setPort k v).per = s.per := rfl
@[simp] theorem State.setPort_resp (s : State) (k : Nat) (v : Port) : (s.setPort k v).resp = s.resp := rfl
@[simp] theorem State.setPort_out (s : State) (k : Nat) (v : Port) : (s.setPort k v).out = s.out := rfl
@[simp] theorem State.setPort_free (s : State) (k : Nat) (v : Port) : (s.setPort k v).free = s.free := rfl
@[simp] theorem State.setPort_pending (s : State) (k : Nat) (v : Port) : (s.setPort k v).pending = s.pending := rfl

/-! ### setChan -/

@[simp] theorem State.setChan_now (s : State) (c : Nat) (v : Chan) : (s.setChan c v).now = s.now := rfl
@[simp] theorem State.setChan_pacer (s : State) (c : Nat) (v : Chan) : (s.setChan c v).pacer = s.pacer := rfl
@[simp] theorem State.setChan_lanes (s : State) (c : Nat) (v : Chan) : (s.setChan c v).lanes = s.lanes := rfl
@[simp] theorem State.setChan_mems (s : State) (c : Nat) (v : Chan) : (s.setChan c v).mems = s.mems := rfl
@[simp] theorem State.setChan_relay (s : State) (c : Nat) (v : Chan) : (s.setChan c v).relay = s.relay := rfl
@[simp] theorem State.setChan_sm (s : State) (c : Nat) (v : Chan) : (s.setChan c v).sm = s.sm := rfl
@[simp] theorem State.setChan_qdr (s : State) (c : Nat) (v : Chan) : (s.setChan c v).qdr = s.qdr := rfl
@[simp] theorem State.setChan_eng (s : State) (c : Nat) (v : Chan) : (s.setChan c v).eng = s.eng := rfl
@[simp] theorem State.setChan_mc (s : State) (c : Nat) (v : Chan) : (s.setChan c v).mc = s.mc := rfl
@[simp] theorem State.setChan_fab (s : State) (c : Nat) (v : Chan) : (s.setChan c v).fab = s.fab := rfl
@[simp] theorem State.setChan_con (s : State) (c : Nat) (v : Chan) : (s.setChan c v).con = s.con := rfl
@[simp] theorem State.setChan_load (s : State) (c : Nat) (v : Chan) : (s.setChan c v).load = s.load := rfl
@[simp] theorem State.setChan_ports (s : State) (c : Nat) (v : Chan) : (s.setChan c v).ports = s.ports := rfl
@[simp] theorem State.setChan_stw (s : State) (c : Nat) (v : Chan) : (s.setChan c v).stw = s.stw := rfl
@[simp] theorem State.setChan_hif (s : State) (c : Nat) (v : Chan) : (s.setChan c v).hif = s.hif := rfl
@[simp] theorem State.setChan_ev (s : State) (c : Nat) (v : Chan) : (s.setChan c v).ev = s.ev := rfl
@[simp] theorem State.setChan_pair (s : State) (c : Nat) (v : Chan) : (s.setChan c v).pair = s.pair := rfl
@[simp] theorem State.setChan_sec (s : State) (c : Nat) (v : Chan) : (s.setChan c v).sec = s.sec := rfl
@[simp] theorem State.setChan_snap (s : State) (c : Nat) (v : Chan) : (s.setChan c v).snap = s.snap := rfl
@[simp] theorem State.setChan_log (s : State) (c : Nat) (v : Chan) : (s.setChan c v).log = s.log := rfl
@[simp] theorem State.setChan_pwr (s : State) (c : Nat) (v : Chan) : (s.setChan c v).pwr = s.pwr := rfl
@[simp] theorem State.setChan_per (s : State) (c : Nat) (v : Chan) : (s.setChan c v).per = s.per := rfl
@[simp] theorem State.setChan_resp (s : State) (c : Nat) (v : Chan) : (s.setChan c v).resp = s.resp := rfl
@[simp] theorem State.setChan_out (s : State) (c : Nat) (v : Chan) : (s.setChan c v).out = s.out := rfl
@[simp] theorem State.setChan_free (s : State) (c : Nat) (v : Chan) : (s.setChan c v).free = s.free := rfl
@[simp] theorem State.setChan_pending (s : State) (c : Nat) (v : Chan) : (s.setChan c v).pending = s.pending := rfl

/-! ### setContract -/

@[simp] theorem State.setContract_now (s : State) (c : Contract) : (s.setContract c).now = s.now := rfl
@[simp] theorem State.setContract_pacer (s : State) (c : Contract) : (s.setContract c).pacer = s.pacer := rfl
@[simp] theorem State.setContract_lanes (s : State) (c : Contract) : (s.setContract c).lanes = s.lanes := rfl
@[simp] theorem State.setContract_mems (s : State) (c : Contract) : (s.setContract c).mems = s.mems := rfl
@[simp] theorem State.setContract_relay (s : State) (c : Contract) : (s.setContract c).relay = s.relay := rfl
@[simp] theorem State.setContract_mail (s : State) (c : Contract) : (s.setContract c).mail = s.mail := rfl
@[simp] theorem State.setContract_sm (s : State) (c : Contract) : (s.setContract c).sm = s.sm := rfl
@[simp] theorem State.setContract_qdr (s : State) (c : Contract) : (s.setContract c).qdr = s.qdr := rfl
@[simp] theorem State.setContract_eng (s : State) (c : Contract) : (s.setContract c).eng = s.eng := rfl
@[simp] theorem State.setContract_mc (s : State) (c : Contract) : (s.setContract c).mc = s.mc := rfl
@[simp] theorem State.setContract_fab (s : State) (c : Contract) : (s.setContract c).fab = s.fab := rfl
@[simp] theorem State.setContract_load (s : State) (c : Contract) : (s.setContract c).load = s.load := rfl
@[simp] theorem State.setContract_ports (s : State) (c : Contract) : (s.setContract c).ports = s.ports := rfl
@[simp] theorem State.setContract_stw (s : State) (c : Contract) : (s.setContract c).stw = s.stw := rfl
@[simp] theorem State.setContract_hif (s : State) (c : Contract) : (s.setContract c).hif = s.hif := rfl
@[simp] theorem State.setContract_ev (s : State) (c : Contract) : (s.setContract c).ev = s.ev := rfl
@[simp] theorem State.setContract_pair (s : State) (c : Contract) : (s.setContract c).pair = s.pair := rfl
@[simp] theorem State.setContract_sec (s : State) (c : Contract) : (s.setContract c).sec = s.sec := rfl
@[simp] theorem State.setContract_snap (s : State) (c : Contract) : (s.setContract c).snap = s.snap := rfl
@[simp] theorem State.setContract_log (s : State) (c : Contract) : (s.setContract c).log = s.log := rfl
@[simp] theorem State.setContract_pwr (s : State) (c : Contract) : (s.setContract c).pwr = s.pwr := rfl
@[simp] theorem State.setContract_per (s : State) (c : Contract) : (s.setContract c).per = s.per := rfl
@[simp] theorem State.setContract_resp (s : State) (c : Contract) : (s.setContract c).resp = s.resp := rfl
@[simp] theorem State.setContract_out (s : State) (c : Contract) : (s.setContract c).out = s.out := rfl
@[simp] theorem State.setContract_free (s : State) (c : Contract) : (s.setContract c).free = s.free := rfl
@[simp] theorem State.setContract_pending (s : State) (c : Contract) : (s.setContract c).pending = s.pending := rfl

/-! ### setPwr -/

@[simp] theorem State.setPwr_now (s : State) (p : Pwr) : (s.setPwr p).now = s.now := rfl
@[simp] theorem State.setPwr_pacer (s : State) (p : Pwr) : (s.setPwr p).pacer = s.pacer := rfl
@[simp] theorem State.setPwr_lanes (s : State) (p : Pwr) : (s.setPwr p).lanes = s.lanes := rfl
@[simp] theorem State.setPwr_mems (s : State) (p : Pwr) : (s.setPwr p).mems = s.mems := rfl
@[simp] theorem State.setPwr_relay (s : State) (p : Pwr) : (s.setPwr p).relay = s.relay := rfl
@[simp] theorem State.setPwr_mail (s : State) (p : Pwr) : (s.setPwr p).mail = s.mail := rfl
@[simp] theorem State.setPwr_sm (s : State) (p : Pwr) : (s.setPwr p).sm = s.sm := rfl
@[simp] theorem State.setPwr_qdr (s : State) (p : Pwr) : (s.setPwr p).qdr = s.qdr := rfl
@[simp] theorem State.setPwr_eng (s : State) (p : Pwr) : (s.setPwr p).eng = s.eng := rfl
@[simp] theorem State.setPwr_mc (s : State) (p : Pwr) : (s.setPwr p).mc = s.mc := rfl
@[simp] theorem State.setPwr_fab (s : State) (p : Pwr) : (s.setPwr p).fab = s.fab := rfl
@[simp] theorem State.setPwr_con (s : State) (p : Pwr) : (s.setPwr p).con = s.con := rfl
@[simp] theorem State.setPwr_load (s : State) (p : Pwr) : (s.setPwr p).load = s.load := rfl
@[simp] theorem State.setPwr_ports (s : State) (p : Pwr) : (s.setPwr p).ports = s.ports := rfl
@[simp] theorem State.setPwr_stw (s : State) (p : Pwr) : (s.setPwr p).stw = s.stw := rfl
@[simp] theorem State.setPwr_hif (s : State) (p : Pwr) : (s.setPwr p).hif = s.hif := rfl
@[simp] theorem State.setPwr_ev (s : State) (p : Pwr) : (s.setPwr p).ev = s.ev := rfl
@[simp] theorem State.setPwr_pair (s : State) (p : Pwr) : (s.setPwr p).pair = s.pair := rfl
@[simp] theorem State.setPwr_sec (s : State) (p : Pwr) : (s.setPwr p).sec = s.sec := rfl
@[simp] theorem State.setPwr_snap (s : State) (p : Pwr) : (s.setPwr p).snap = s.snap := rfl
@[simp] theorem State.setPwr_log (s : State) (p : Pwr) : (s.setPwr p).log = s.log := rfl
@[simp] theorem State.setPwr_per (s : State) (p : Pwr) : (s.setPwr p).per = s.per := rfl
@[simp] theorem State.setPwr_resp (s : State) (p : Pwr) : (s.setPwr p).resp = s.resp := rfl
@[simp] theorem State.setPwr_out (s : State) (p : Pwr) : (s.setPwr p).out = s.out := rfl
@[simp] theorem State.setPwr_free (s : State) (p : Pwr) : (s.setPwr p).free = s.free := rfl
@[simp] theorem State.setPwr_pending (s : State) (p : Pwr) : (s.setPwr p).pending = s.pending := rfl

/-! ### answer -/

@[simp] theorem State.answer_now (s : State) (c : BitVec 2) (v : Word) : (s.answer c v).now = s.now := rfl
@[simp] theorem State.answer_pacer (s : State) (c : BitVec 2) (v : Word) : (s.answer c v).pacer = s.pacer := rfl
@[simp] theorem State.answer_lanes (s : State) (c : BitVec 2) (v : Word) : (s.answer c v).lanes = s.lanes := rfl
@[simp] theorem State.answer_mems (s : State) (c : BitVec 2) (v : Word) : (s.answer c v).mems = s.mems := rfl
@[simp] theorem State.answer_relay (s : State) (c : BitVec 2) (v : Word) : (s.answer c v).relay = s.relay := rfl
@[simp] theorem State.answer_mail (s : State) (c : BitVec 2) (v : Word) : (s.answer c v).mail = s.mail := rfl
@[simp] theorem State.answer_sm (s : State) (c : BitVec 2) (v : Word) : (s.answer c v).sm = s.sm := rfl
@[simp] theorem State.answer_qdr (s : State) (c : BitVec 2) (v : Word) : (s.answer c v).qdr = s.qdr := rfl
@[simp] theorem State.answer_eng (s : State) (c : BitVec 2) (v : Word) : (s.answer c v).eng = s.eng := rfl
@[simp] theorem State.answer_mc (s : State) (c : BitVec 2) (v : Word) : (s.answer c v).mc = s.mc := rfl
@[simp] theorem State.answer_fab (s : State) (c : BitVec 2) (v : Word) : (s.answer c v).fab = s.fab := rfl
@[simp] theorem State.answer_con (s : State) (c : BitVec 2) (v : Word) : (s.answer c v).con = s.con := rfl
@[simp] theorem State.answer_load (s : State) (c : BitVec 2) (v : Word) : (s.answer c v).load = s.load := rfl
@[simp] theorem State.answer_ports (s : State) (c : BitVec 2) (v : Word) : (s.answer c v).ports = s.ports := rfl
@[simp] theorem State.answer_stw (s : State) (c : BitVec 2) (v : Word) : (s.answer c v).stw = s.stw := rfl
@[simp] theorem State.answer_hif (s : State) (c : BitVec 2) (v : Word) : (s.answer c v).hif = s.hif := rfl
@[simp] theorem State.answer_ev (s : State) (c : BitVec 2) (v : Word) : (s.answer c v).ev = s.ev := rfl
@[simp] theorem State.answer_pair (s : State) (c : BitVec 2) (v : Word) : (s.answer c v).pair = s.pair := rfl
@[simp] theorem State.answer_sec (s : State) (c : BitVec 2) (v : Word) : (s.answer c v).sec = s.sec := rfl
@[simp] theorem State.answer_snap (s : State) (c : BitVec 2) (v : Word) : (s.answer c v).snap = s.snap := rfl
@[simp] theorem State.answer_log (s : State) (c : BitVec 2) (v : Word) : (s.answer c v).log = s.log := rfl
@[simp] theorem State.answer_pwr (s : State) (c : BitVec 2) (v : Word) : (s.answer c v).pwr = s.pwr := rfl
@[simp] theorem State.answer_per (s : State) (c : BitVec 2) (v : Word) : (s.answer c v).per = s.per := rfl
@[simp] theorem State.answer_out (s : State) (c : BitVec 2) (v : Word) : (s.answer c v).out = s.out := rfl
@[simp] theorem State.answer_free (s : State) (c : BitVec 2) (v : Word) : (s.answer c v).free = s.free := rfl
@[simp] theorem State.answer_pending (s : State) (c : BitVec 2) (v : Word) : (s.answer c v).pending = s.pending := rfl

/-! ### emit -/

@[simp] theorem State.emit_now (s : State) (o : Out) : (s.emit o).now = s.now := rfl
@[simp] theorem State.emit_pacer (s : State) (o : Out) : (s.emit o).pacer = s.pacer := rfl
@[simp] theorem State.emit_lanes (s : State) (o : Out) : (s.emit o).lanes = s.lanes := rfl
@[simp] theorem State.emit_mems (s : State) (o : Out) : (s.emit o).mems = s.mems := rfl
@[simp] theorem State.emit_relay (s : State) (o : Out) : (s.emit o).relay = s.relay := rfl
@[simp] theorem State.emit_mail (s : State) (o : Out) : (s.emit o).mail = s.mail := rfl
@[simp] theorem State.emit_sm (s : State) (o : Out) : (s.emit o).sm = s.sm := rfl
@[simp] theorem State.emit_qdr (s : State) (o : Out) : (s.emit o).qdr = s.qdr := rfl
@[simp] theorem State.emit_eng (s : State) (o : Out) : (s.emit o).eng = s.eng := rfl
@[simp] theorem State.emit_mc (s : State) (o : Out) : (s.emit o).mc = s.mc := rfl
@[simp] theorem State.emit_fab (s : State) (o : Out) : (s.emit o).fab = s.fab := rfl
@[simp] theorem State.emit_con (s : State) (o : Out) : (s.emit o).con = s.con := rfl
@[simp] theorem State.emit_load (s : State) (o : Out) : (s.emit o).load = s.load := rfl
@[simp] theorem State.emit_ports (s : State) (o : Out) : (s.emit o).ports = s.ports := rfl
@[simp] theorem State.emit_stw (s : State) (o : Out) : (s.emit o).stw = s.stw := rfl
@[simp] theorem State.emit_hif (s : State) (o : Out) : (s.emit o).hif = s.hif := rfl
@[simp] theorem State.emit_ev (s : State) (o : Out) : (s.emit o).ev = s.ev := rfl
@[simp] theorem State.emit_pair (s : State) (o : Out) : (s.emit o).pair = s.pair := rfl
@[simp] theorem State.emit_sec (s : State) (o : Out) : (s.emit o).sec = s.sec := rfl
@[simp] theorem State.emit_snap (s : State) (o : Out) : (s.emit o).snap = s.snap := rfl
@[simp] theorem State.emit_log (s : State) (o : Out) : (s.emit o).log = s.log := rfl
@[simp] theorem State.emit_pwr (s : State) (o : Out) : (s.emit o).pwr = s.pwr := rfl
@[simp] theorem State.emit_per (s : State) (o : Out) : (s.emit o).per = s.per := rfl
@[simp] theorem State.emit_resp (s : State) (o : Out) : (s.emit o).resp = s.resp := rfl
@[simp] theorem State.emit_free (s : State) (o : Out) : (s.emit o).free = s.free := rfl
@[simp] theorem State.emit_pending (s : State) (o : Out) : (s.emit o).pending = s.pending := rfl

/-! ### draw -/

@[simp] theorem State.draw_now (s : State) : s.draw.now = s.now := rfl
@[simp] theorem State.draw_pacer (s : State) : s.draw.pacer = s.pacer := rfl
@[simp] theorem State.draw_lanes (s : State) : s.draw.lanes = s.lanes := rfl
@[simp] theorem State.draw_mems (s : State) : s.draw.mems = s.mems := rfl
@[simp] theorem State.draw_relay (s : State) : s.draw.relay = s.relay := rfl
@[simp] theorem State.draw_mail (s : State) : s.draw.mail = s.mail := rfl
@[simp] theorem State.draw_sm (s : State) : s.draw.sm = s.sm := rfl
@[simp] theorem State.draw_qdr (s : State) : s.draw.qdr = s.qdr := rfl
@[simp] theorem State.draw_eng (s : State) : s.draw.eng = s.eng := rfl
@[simp] theorem State.draw_mc (s : State) : s.draw.mc = s.mc := rfl
@[simp] theorem State.draw_fab (s : State) : s.draw.fab = s.fab := rfl
@[simp] theorem State.draw_con (s : State) : s.draw.con = s.con := rfl
@[simp] theorem State.draw_load (s : State) : s.draw.load = s.load := rfl
@[simp] theorem State.draw_ports (s : State) : s.draw.ports = s.ports := rfl
@[simp] theorem State.draw_stw (s : State) : s.draw.stw = s.stw := rfl
@[simp] theorem State.draw_hif (s : State) : s.draw.hif = s.hif := rfl
@[simp] theorem State.draw_ev (s : State) : s.draw.ev = s.ev := rfl
@[simp] theorem State.draw_pair (s : State) : s.draw.pair = s.pair := rfl
@[simp] theorem State.draw_sec (s : State) : s.draw.sec = s.sec := rfl
@[simp] theorem State.draw_snap (s : State) : s.draw.snap = s.snap := rfl
@[simp] theorem State.draw_log (s : State) : s.draw.log = s.log := rfl
@[simp] theorem State.draw_pwr (s : State) : s.draw.pwr = s.pwr := rfl
@[simp] theorem State.draw_per (s : State) : s.draw.per = s.per := rfl
@[simp] theorem State.draw_resp (s : State) : s.draw.resp = s.resp := rfl
@[simp] theorem State.draw_out (s : State) : s.draw.out = s.out := rfl
@[simp] theorem State.draw_pending (s : State) : s.draw.pending = s.pending := rfl

@[simp] theorem State.setPwr_pwr (s : State) (p : Pwr) : (s.setPwr p).pwr = p := rfl
@[simp] theorem State.answer_resp (s : State) (c : BitVec 2) (v : Word) : (s.answer c v).resp = ⟨c, v⟩ := rfl
@[simp] theorem State.emit_out (s : State) (o : Out) : (s.emit o).out = o :: s.out := rfl
@[simp] theorem State.draw_free (s : State) : s.draw.free = s.free + 1 := rfl

/-! ### Reading a table after a write -/

theorem State.lane_setLane (s : State) (p q : Nat) (v : Lane) :
    (s.setLane p v).lane q = if q = p then v else s.lane q := tget_tput s.lanes p q v

@[simp] theorem State.lane_setLane_same (s : State) (p : Nat) (v : Lane) : (s.setLane p v).lane p = v := by
  simp [State.lane_setLane]

theorem State.lane_setLane_other (s : State) (v : Lane) {p q : Nat} (h : q ≠ p) : (s.setLane p v).lane q = s.lane q := by
  simp [State.lane_setLane, h]

@[simp] theorem State.lane_setLmem (s : State) (p : Nat) (m : LaneMem) (q : Nat) : (s.setLmem p m).lane q = s.lane q := rfl
@[simp] theorem State.lane_setQch (s : State) (k : Nat) (q : Qdr) (i : Nat) : (s.setQch k q).lane i = s.lane i := rfl
@[simp] theorem State.lane_setEngine (s : State) (e : Nat) (v : Engine) (q : Nat) : (s.setEngine e v).lane q = s.lane q := rfl
@[simp] theorem State.lane_setPort (s : State) (k : Nat) (v : Port) (q : Nat) : (s.setPort k v).lane q = s.lane q := rfl
@[simp] theorem State.lane_setChan (s : State) (c : Nat) (v : Chan) (q : Nat) : (s.setChan c v).lane q = s.lane q := rfl
@[simp] theorem State.lane_setContract (s : State) (c : Contract) (q : Nat) : (s.setContract c).lane q = s.lane q := rfl
@[simp] theorem State.lane_setPwr (s : State) (p : Pwr) (q : Nat) : (s.setPwr p).lane q = s.lane q := rfl
@[simp] theorem State.lane_answer (s : State) (c : BitVec 2) (v : Word) (q : Nat) : (s.answer c v).lane q = s.lane q := rfl
@[simp] theorem State.lane_emit (s : State) (o : Out) (q : Nat) : (s.emit o).lane q = s.lane q := rfl
@[simp] theorem State.lane_draw (s : State) (q : Nat) : s.draw.lane q = s.lane q := rfl

theorem State.lmem_setLmem (s : State) (p q : Nat) (v : LaneMem) :
    (s.setLmem p v).lmem q = if q = p then v else s.lmem q := tget_tput s.mems p q v

@[simp] theorem State.lmem_setLmem_same (s : State) (p : Nat) (v : LaneMem) : (s.setLmem p v).lmem p = v := by
  simp [State.lmem_setLmem]

theorem State.lmem_setLmem_other (s : State) (v : LaneMem) {p q : Nat} (h : q ≠ p) : (s.setLmem p v).lmem q = s.lmem q := by
  simp [State.lmem_setLmem, h]

@[simp] theorem State.lmem_setLane (s : State) (p : Nat) (l : Lane) (q : Nat) : (s.setLane p l).lmem q = s.lmem q := rfl
@[simp] theorem State.lmem_setQch (s : State) (k : Nat) (q : Qdr) (i : Nat) : (s.setQch k q).lmem i = s.lmem i := rfl
@[simp] theorem State.lmem_setEngine (s : State) (e : Nat) (v : Engine) (q : Nat) : (s.setEngine e v).lmem q = s.lmem q := rfl
@[simp] theorem State.lmem_setPort (s : State) (k : Nat) (v : Port) (q : Nat) : (s.setPort k v).lmem q = s.lmem q := rfl
@[simp] theorem State.lmem_setChan (s : State) (c : Nat) (v : Chan) (q : Nat) : (s.setChan c v).lmem q = s.lmem q := rfl
@[simp] theorem State.lmem_setContract (s : State) (c : Contract) (q : Nat) : (s.setContract c).lmem q = s.lmem q := rfl
@[simp] theorem State.lmem_setPwr (s : State) (p : Pwr) (q : Nat) : (s.setPwr p).lmem q = s.lmem q := rfl
@[simp] theorem State.lmem_answer (s : State) (c : BitVec 2) (v : Word) (q : Nat) : (s.answer c v).lmem q = s.lmem q := rfl
@[simp] theorem State.lmem_emit (s : State) (o : Out) (q : Nat) : (s.emit o).lmem q = s.lmem q := rfl
@[simp] theorem State.lmem_draw (s : State) (q : Nat) : s.draw.lmem q = s.lmem q := rfl

theorem State.qch_setQch (s : State) (p q : Nat) (v : Qdr) :
    (s.setQch p v).qch q = if q = p then v else s.qch q := tget_tput s.qdr p q v

@[simp] theorem State.qch_setQch_same (s : State) (p : Nat) (v : Qdr) : (s.setQch p v).qch p = v := by
  simp [State.qch_setQch]

theorem State.qch_setQch_other (s : State) (v : Qdr) {p q : Nat} (h : q ≠ p) : (s.setQch p v).qch q = s.qch q := by
  simp [State.qch_setQch, h]

@[simp] theorem State.qch_setLane (s : State) (p : Nat) (l : Lane) (q : Nat) : (s.setLane p l).qch q = s.qch q := rfl
@[simp] theorem State.qch_setLmem (s : State) (p : Nat) (m : LaneMem) (q : Nat) : (s.setLmem p m).qch q = s.qch q := rfl
@[simp] theorem State.qch_setEngine (s : State) (e : Nat) (v : Engine) (q : Nat) : (s.setEngine e v).qch q = s.qch q := rfl
@[simp] theorem State.qch_setPort (s : State) (k : Nat) (v : Port) (q : Nat) : (s.setPort k v).qch q = s.qch q := rfl
@[simp] theorem State.qch_setChan (s : State) (c : Nat) (v : Chan) (q : Nat) : (s.setChan c v).qch q = s.qch q := rfl
@[simp] theorem State.qch_setContract (s : State) (c : Contract) (q : Nat) : (s.setContract c).qch q = s.qch q := rfl
@[simp] theorem State.qch_setPwr (s : State) (p : Pwr) (q : Nat) : (s.setPwr p).qch q = s.qch q := rfl
@[simp] theorem State.qch_answer (s : State) (c : BitVec 2) (v : Word) (q : Nat) : (s.answer c v).qch q = s.qch q := rfl
@[simp] theorem State.qch_emit (s : State) (o : Out) (q : Nat) : (s.emit o).qch q = s.qch q := rfl
@[simp] theorem State.qch_draw (s : State) (q : Nat) : s.draw.qch q = s.qch q := rfl

theorem State.engine_setEngine (s : State) (p q : Nat) (v : Engine) :
    (s.setEngine p v).engine q = if q = p then v else s.engine q := tget_tput s.eng p q v

@[simp] theorem State.engine_setEngine_same (s : State) (p : Nat) (v : Engine) : (s.setEngine p v).engine p = v := by
  simp [State.engine_setEngine]

theorem State.engine_setEngine_other (s : State) (v : Engine) {p q : Nat} (h : q ≠ p) : (s.setEngine p v).engine q = s.engine q := by
  simp [State.engine_setEngine, h]

@[simp] theorem State.engine_setLane (s : State) (p : Nat) (l : Lane) (q : Nat) : (s.setLane p l).engine q = s.engine q := rfl
@[simp] theorem State.engine_setLmem (s : State) (p : Nat) (m : LaneMem) (q : Nat) : (s.setLmem p m).engine q = s.engine q := rfl
@[simp] theorem State.engine_setQch (s : State) (k : Nat) (q : Qdr) (i : Nat) : (s.setQch k q).engine i = s.engine i := rfl
@[simp] theorem State.engine_setPort (s : State) (k : Nat) (v : Port) (q : Nat) : (s.setPort k v).engine q = s.engine q := rfl
@[simp] theorem State.engine_setChan (s : State) (c : Nat) (v : Chan) (q : Nat) : (s.setChan c v).engine q = s.engine q := rfl
@[simp] theorem State.engine_setContract (s : State) (c : Contract) (q : Nat) : (s.setContract c).engine q = s.engine q := rfl
@[simp] theorem State.engine_setPwr (s : State) (p : Pwr) (q : Nat) : (s.setPwr p).engine q = s.engine q := rfl
@[simp] theorem State.engine_answer (s : State) (c : BitVec 2) (v : Word) (q : Nat) : (s.answer c v).engine q = s.engine q := rfl
@[simp] theorem State.engine_emit (s : State) (o : Out) (q : Nat) : (s.emit o).engine q = s.engine q := rfl
@[simp] theorem State.engine_draw (s : State) (q : Nat) : s.draw.engine q = s.engine q := rfl

theorem State.port_setPort (s : State) (p q : Nat) (v : Port) :
    (s.setPort p v).port q = if q = p then v else s.port q := tget_tput s.ports p q v

@[simp] theorem State.port_setPort_same (s : State) (p : Nat) (v : Port) : (s.setPort p v).port p = v := by
  simp [State.port_setPort]

theorem State.port_setPort_other (s : State) (v : Port) {p q : Nat} (h : q ≠ p) : (s.setPort p v).port q = s.port q := by
  simp [State.port_setPort, h]

@[simp] theorem State.port_setLane (s : State) (p : Nat) (l : Lane) (q : Nat) : (s.setLane p l).port q = s.port q := rfl
@[simp] theorem State.port_setLmem (s : State) (p : Nat) (m : LaneMem) (q : Nat) : (s.setLmem p m).port q = s.port q := rfl
@[simp] theorem State.port_setQch (s : State) (k : Nat) (q : Qdr) (i : Nat) : (s.setQch k q).port i = s.port i := rfl
@[simp] theorem State.port_setEngine (s : State) (e : Nat) (v : Engine) (q : Nat) : (s.setEngine e v).port q = s.port q := rfl
@[simp] theorem State.port_setChan (s : State) (c : Nat) (v : Chan) (q : Nat) : (s.setChan c v).port q = s.port q := rfl
@[simp] theorem State.port_setContract (s : State) (c : Contract) (q : Nat) : (s.setContract c).port q = s.port q := rfl
@[simp] theorem State.port_setPwr (s : State) (p : Pwr) (q : Nat) : (s.setPwr p).port q = s.port q := rfl
@[simp] theorem State.port_answer (s : State) (c : BitVec 2) (v : Word) (q : Nat) : (s.answer c v).port q = s.port q := rfl
@[simp] theorem State.port_emit (s : State) (o : Out) (q : Nat) : (s.emit o).port q = s.port q := rfl
@[simp] theorem State.port_draw (s : State) (q : Nat) : s.draw.port q = s.port q := rfl

theorem State.chan_setChan (s : State) (c d : Nat) (v : Chan) : (s.setChan c v).chan d = if d = c then v else s.chan d :=
  tget_tput s.mail.chans c d v

@[simp] theorem State.chan_setChan_same (s : State) (c : Nat) (v : Chan) : (s.setChan c v).chan c = v := by
  simp [State.chan_setChan]

theorem State.chan_setChan_other (s : State) (v : Chan) {c d : Nat} (h : d ≠ c) : (s.setChan c v).chan d = s.chan d := by
  simp [State.chan_setChan, h]

@[simp] theorem State.chan_setLane (s : State) (p : Nat) (l : Lane) (c : Nat) : (s.setLane p l).chan c = s.chan c := rfl
@[simp] theorem State.chan_setLmem (s : State) (p : Nat) (m : LaneMem) (c : Nat) : (s.setLmem p m).chan c = s.chan c := rfl
@[simp] theorem State.chan_setQch (s : State) (k : Nat) (q : Qdr) (c : Nat) : (s.setQch k q).chan c = s.chan c := rfl
@[simp] theorem State.chan_setEngine (s : State) (e : Nat) (v : Engine) (c : Nat) : (s.setEngine e v).chan c = s.chan c := rfl
@[simp] theorem State.chan_setPort (s : State) (k : Nat) (v : Port) (c : Nat) : (s.setPort k v).chan c = s.chan c := rfl
@[simp] theorem State.chan_setContract (s : State) (c : Contract) (i : Nat) : (s.setContract c).chan i = s.chan i := rfl
@[simp] theorem State.chan_setPwr (s : State) (p : Pwr) (c : Nat) : (s.setPwr p).chan c = s.chan c := rfl
@[simp] theorem State.chan_answer (s : State) (c : BitVec 2) (v : Word) (i : Nat) : (s.answer c v).chan i = s.chan i := rfl
@[simp] theorem State.chan_emit (s : State) (o : Out) (c : Nat) : (s.emit o).chan c = s.chan c := rfl
@[simp] theorem State.chan_draw (s : State) (c : Nat) : s.draw.chan c = s.chan c := rfl

/-! ### A small table of words or numbers -/

theorem getW_putW (t : Tab Word) (k j : Nat) (v : Word) : getW (putW t k v) j = if j = k then v else getW t j :=
  tget_tput t k j v
theorem getN_putN (t : Tab Nat) (k j v : Nat) : getN (putN t k v) j = if j = k then v else getN t j :=
  tget_tput t k j v
@[simp] theorem getW_putW_same (t : Tab Word) (k : Nat) (v : Word) : getW (putW t k v) k = v := by simp [getW_putW]
@[simp] theorem getN_putN_same (t : Tab Nat) (k v : Nat) : getN (putN t k v) k = v := by simp [getN_putN]

/-! ### Out of device reset a command has its effect -/

@[simp] theorem State.live_true (s t : State) (h : s.pwr.inReset = true) : s.live t = s := by simp [State.live, h]
@[simp] theorem State.live_false (s t : State) (h : s.pwr.inReset = false) : s.live t = t := by simp [State.live, h]

/-! ### A result in flight -/

@[simp] theorem Lane.fly_mode (l : Lane) (d k : Nat) (r : Res) : (l.fly d k r).mode = l.mode := rfl
@[simp] theorem Lane.fly_w (l : Lane) (d k : Nat) (r : Res) : (l.fly d k r).w = l.w := rfl
@[simp] theorem Lane.fly_g (l : Lane) (d k : Nat) (r : Res) : (l.fly d k r).g = l.g := rfl
@[simp] theorem Lane.fly_u (l : Lane) (d k : Nat) (r : Res) : (l.fly d k r).u = l.u := rfl
@[simp] theorem Lane.fly_c (l : Lane) (d k : Nat) (r : Res) : (l.fly d k r).c = l.c := rfl
@[simp] theorem Lane.fly_fcap (l : Lane) (d k : Nat) (r : Res) : (l.fly d k r).fcap = l.fcap := rfl
@[simp] theorem Lane.fly_tdt (l : Lane) (d k : Nat) (r : Res) : (l.fly d k r).tdt = l.tdt := rfl
@[simp] theorem Lane.fly_ctl (l : Lane) (d k : Nat) (r : Res) : (l.fly d k r).ctl = l.ctl := rfl
@[simp] theorem Lane.fly_trap (l : Lane) (d k : Nat) (r : Res) : (l.fly d k r).trap = l.trap := rfl
@[simp] theorem Lane.fly_lsu (l : Lane) (d k : Nat) (r : Res) : (l.fly d k r).lsu = l.lsu := rfl
@[simp] theorem Lane.fly_spl (l : Lane) (d k : Nat) (r : Res) : (l.fly d k r).spl = l.spl := rfl
@[simp] theorem Lane.fly_rly (l : Lane) (d k : Nat) (r : Res) : (l.fly d k r).rly = l.rly := rfl
@[simp] theorem Lane.fly_nochan (l : Lane) (d k : Nat) (r : Res) : (l.fly d k r).nochan = l.nochan := rfl
@[simp] theorem Lane.fly_master (l : Lane) (d k : Nat) (r : Res) : (l.fly d k r).master = l.master := rfl
@[simp] theorem Lane.fly_cfg (l : Lane) (d k : Nat) (r : Res) : (l.fly d k r).cfg = l.cfg := rfl

end Sys2Proof.Machine
end

