-- ==== Sys2Proof/Laws/CoreExec.lean ====
section
/-! SUPPORT. Settling a lane keeps the pacer; the gun, the tick and every command on `State.core` (R416, R429). -/

namespace Sys2Proof.Machine
open Sys2Proof

@[simp] theorem ite_pacer (c : Prop) [Decidable c] (a b : State) : (if c then a else b).pacer = if c then a.pacer else b.pacer :=
  apply_ite State.pacer c a b

@[simp] theorem foldl_pacer {α : Type} (g : State → α → State) (l : List α) (s : State) (h : ∀ s x, (g s x).pacer = s.pacer) :
    (l.foldl g s).pacer = s.pacer := by
  induction l generalizing s with
  | nil => rfl
  | cons x r ih => simp [List.foldl, ih, h]
@[simp] theorem foldl_fst_pacer {α β : Type} (g : State × β → α → State × β) (l : List α) (x : State × β)
    (h : ∀ x a, (g x a).1.pacer = x.1.pacer) : (l.foldl g x).1.pacer = x.1.pacer := by
  induction l generalizing x with
  | nil => rfl
  | cons a r ih => simp [List.foldl, ih, h]
@[simp] theorem foldl_snd_pacer {α β : Type} (g : β × State → α → β × State) (l : List α) (x : β × State)
    (h : ∀ x a, (g x a).2.pacer = x.2.pacer) : (l.foldl g x).2.pacer = x.2.pacer := by
  induction l generalizing x with
  | nil => rfl
  | cons a r ih => simp [List.foldl, ih, h]

@[simp] theorem State.tally_pacer (s : State) (k : Nat) : (State.tally s k).pacer = s.pacer := by
  simp [State.tally]

@[simp] theorem State.pendInt_pacer (s : State) (p k : Nat) : (State.pendInt s p k).pacer = s.pacer := by
  simp [State.pendInt]

@[simp] theorem State.journal_pacer (s : State) (e : Event) : (State.journal s e).pacer = s.pacer := by
  simp [State.journal]

@[simp] theorem State.enqueue_pacer (s : State) (code : Nat) (src : Word) (data : BitVec 64) (tied : Bool) :
      (State.enqueue s code src data tied).pacer = s.pacer := by
  simp only [State.enqueue]; split <;> simp

@[simp] theorem State.raiseCore_pacer (s : State) (code : Nat) (src : Word) (data : BitVec 64) (tied : Bool) :
      (State.raiseCore s code src data tied).pacer = s.pacer := by
  simp [State.raiseCore]

@[simp] theorem State.pfTrigger_pacer (s : State) (bit code : Nat) (armBit : Option Nat) :
      (State.pfTrigger s bit code armBit).pacer = s.pacer := by
  simp only [State.pfTrigger]; split <;> simp

@[simp] theorem State.raise_pacer (s : State) (code : Nat) (src : Word) (data : BitVec 64) (tied : Bool := true) :
      (State.raise s code src data tied).pacer = s.pacer := by
  simp [State.raise]

@[simp] theorem State.rodRead_pacer (s : State) (p a src : Nat) : (State.rodRead s p a src).2.pacer = s.pacer := by
  simp [State.rodRead]

@[simp] theorem State.rodWrite_pacer (s : State) (p a : Nat) (d : List Byte) (t : BitVec 2) (mark : Bool) :
      (State.rodWrite s p a d t mark).pacer = s.pacer := by
  simp [State.rodWrite]

@[simp] theorem State.dirtyMark_pacer (s : State) (p a : Nat) : (State.dirtyMark s p a).pacer = s.pacer := by
  simp only [State.dirtyMark]; rw [foldl_pacer _ _ _ (fun s x => by simp)]

@[simp] theorem State.laneWrite_pacer (s : State) (p a : Nat) (d : List Byte) (t : BitVec 2) (mark : Bool) :
      (State.laneWrite s p a d t mark).pacer = s.pacer := by
  simp [State.laneWrite]

@[simp] theorem State.drainStep_pacer (s : State) (p j : Nat) : (State.drainStep s p j).pacer = s.pacer := by
  simp only [State.drainStep]; split <;> simp

@[simp] theorem State.drainSel_pacer (s : State) (p : Nat) (sel : SbEntry → Bool) (n : Nat) :
      (s.drainSel p sel n).pacer = s.pacer := by
  induction n generalizing s with
  | zero => rfl
  | succ n ih => simp [State.drainSel] <;> (repeat' split) <;> simp [ih]

@[simp] theorem State.drainAll_pacer (s : State) (p : Nat) : (State.drainAll s p).pacer = s.pacer := by
  simp [State.drainAll]

@[simp] theorem State.settleBuf_pacer (s : State) (p : Nat) : (State.settleBuf s p).pacer = s.pacer := by
  simp [State.settleBuf]

@[simp] theorem State.markBroken_pacer (s : State) (h cause seat w : Nat) :
      (State.markBroken s h cause seat w).pacer = s.pacer := by
  simp only [State.markBroken]; split <;> simp

@[simp] theorem State.sourceFault_pacer (s : State) (seat : Nat) : (State.sourceFault s seat).pacer = s.pacer := by
  simp only [State.sourceFault]; split <;> simp

@[simp] theorem State.faultCause_pacer (s : State) (p : Nat) (kind : ActKind) (cause due : Nat) :
      (State.faultCause s p kind cause due).pacer = s.pacer := by
  simp only [State.faultCause]; (repeat' split) <;> simp

@[simp] theorem readDesc_pacer (s : State) (p n : Nat) : (readDesc s p n).2.pacer = s.pacer := by
  simp only [readDesc]; (repeat' split) <;> simp

@[simp] theorem State.pushFrame_pacer (s : State) (p : Nat) (f : Push) : (State.pushFrame s p f).pacer = s.pacer := by
  simp [State.pushFrame]

@[simp] theorem State.enterWith_pacer (s : State) (p : Nat) (q : TrapReq) (d : Desc) (heat : Word) (cyc r : Nat) :
      (State.enterWith s p q d heat cyc r).pacer = s.pacer := by
  simp [State.enterWith]

@[simp] theorem State.setDue_pacer (s : State) (p : Nat) (r : TrapReq) : (State.setDue s p r).pacer = s.pacer := by
  simp [State.setDue]

@[simp] theorem State.fence_pacer (s : State) (p : Nat) (first : TrapReq) (sub : Nat) (heat : Word) (cyc : Nat)
      (at_ : Nat) : (State.fence s p first sub heat cyc at_).pacer = s.pacer := by
  simp [State.fence]

@[simp] theorem State.entryStart_pacer (s : State) (p : Nat) (r : TrapReq) : (State.entryStart s p r).pacer = s.pacer := by
  simp only [State.entryStart]; (repeat' split) <;> simp

@[simp] theorem State.entryStep_pacer (s : State) (p : Nat) (q : TrapReq) (a : Nat) (heat : Word) (cyc : Nat) :
    (s.entryStep p q a heat cyc).pacer = s.pacer := by
  have h1 : (if q.n = 0 then s else s.entryStart p q).pacer = s.pacer := by simp
  unfold State.entryStep
  generalize (if q.n = 0 then s else s.entryStart p q) = t at h1 ⊢
  have h2 := readDesc_pacer t p q.n
  rw [h1] at h2
  dsimp only
  generalize readDesc t p q.n = x at h2 ⊢
  rcases x with ⟨⟨_ | sub, _ | d⟩, u⟩ <;> simp_all

@[simp] theorem State.entryAdvance_pacer (s : State) (p : Nat) (first : Bool) :
      (State.entryAdvance s p first).pacer = s.pacer := by
  simp only [State.entryAdvance]; (repeat' split) <;> simp

@[simp] theorem State.pushAdvance_pacer (s : State) (p : Nat) : (State.pushAdvance s p).pacer = s.pacer := by
  simp only [State.pushAdvance]; split <;> simp

@[simp] theorem State.retRead_pacer (s : State) (p r : Nat) (fa : Word) : (State.retRead s p r fa).pacer = s.pacer := by
  simp [State.retRead]

@[simp] theorem State.retAdvance_pacer (s : State) (p : Nat) : (State.retAdvance s p).pacer = s.pacer := by
  simp only [State.retAdvance]; split <;> simp

@[simp] theorem State.settle_pacer (s : State) (p : Nat) : (State.settle s p).pacer = s.pacer := by
  simp [State.settle]

@[simp] theorem State.scratch_pacer (s : State) (p cause : Nat) : (State.scratch s p cause).pacer = s.pacer := by
  simp [State.scratch]

/-- Settling every lane keeps the pacer. -/
@[simp] theorem State.settleLanes_pacer (s : State) : s.settleLanes.pacer = s.pacer := by simp [State.settleLanes]

/-- The gun's own steps: the pacer's, and every step after it. -/
theorem gun_core (s : State) (h : s.pacer.gunDue s.now = true) :
    (gun s).core.2 = (s.pending, s.now, s.pwr.inReset, s.pacer.nextNum, 0, true) ∧ s.fuses (gun s) := by
  simp only [gun, h]
  have h1 : (s.settleLanes.noteUsage.pacerGun).core = (s.sec.vault, s.pending, s.now, s.pwr.inReset, s.pacer.nextNum, 0, true) := by
    rw [State.pacerGun_core, State.noteUsage_nextNum, State.settleLanes_pacer]
    exact congrArg (fun x => (x.1, x.2.1, x.2.2.1, x.2.2.2.1, s.pacer.nextNum, 0, true))
      ((State.noteUsage_core s.settleLanes).trans s.settleLanes_core)
  have h2 := gun_grows s.settleLanes.noteUsage.pacerGun
  refine ⟨h2.1.trans (congrArg Prod.snd h1), (congrArg (fun x => x.1) h2.1).trans (congrArg (fun x => x.2.1) h1), ?_⟩
  have h3 := h2.2
  rw [h1] at h3
  exact h3

theorem gun_idle (s : State) (h : s.pacer.gunDue s.now = false) : gun s = s := by simp [gun, h]

theorem gun_fuses (s : State) : s.fuses (gun s) := by
  cases h : s.pacer.gunDue s.now
  · rw [gun_idle s h]; exact State.fuses_refl s
  · exact (gun_core s h).2

/-! ### Tick -/

@[simp] theorem Pwr.rtcTick_inReset (p : Pwr) : p.rtcTick.inReset = p.inReset := by
  simp only [Pwr.rtcTick]; (repeat' split) <;> rfl

@[simp] theorem State.tickTimers_core (s : State) : (State.tickTimers s).core = s.core := by
  simp [State.tickTimers]

@[simp] theorem State.tickSecond_core (s : State) : (State.tickSecond s).core = s.core := by
  simp [State.tickSecond]

@[simp] theorem State.tickReady_core (s : State) : (State.tickReady s).core = s.core := by
  simp only [State.tickReady]; (repeat' split) <;> simp

theorem tick_fuses (s : State) : s.fuses (tick s) := by
  simp only [tick]; split
  · exact State.fuses_of_core (by simp)
  · refine State.fuses_after2 (t := { s with pwr := s.pwr.rtcTick, now := s.now + 1, pacer := s.pacer.tick }) ⟨rfl, Vault.grows_refl _⟩ ?_
    simp

theorem live_grows {s t : State} (h : s.grows t) : s.grows (s.live t) := by
  unfold State.live; split
  · exact State.grows_of_core rfl
  · exact h

theorem live_fuses {s t : State} (h : s.fuses t) : s.fuses (s.live t) := by
  unfold State.live; split
  · exact State.fuses_refl s
  · exact h

theorem pacerCircDisagree_fuses (s : State) (c0 c1 : CircView) : s.fuses (pacerCircDisagree s c0 c1) := by
  have h := pacerCircDisagree_core s c0 c1
  exact ⟨h.2, by show s.sec.vault.grows (pacerCircDisagree s c0 c1).core.1; rw [h.1]; exact Vault.grows_refl _⟩

/-- A command that keeps the clock. -/
theorem still_of {c : Instr} {s t : State} (h : s.grows t) :
    ∃ u, Host.Outcome.next (σ := State) (φ := Fault) (ρ := Refusal) t = .next u ∧ s.fuses u ∧ (movesClock c = false → s.grows u) :=
  ⟨t, rfl, State.fuses_of_grows h, fun _ => h⟩

/-- Every command answers a next state, keeps the queue, only blows fuses, and keeps the clock unless it is one that moves it. -/
theorem exec_fuses (c : Instr) (s : State) :
    ∃ t, exec c s = .next t ∧ s.fuses t ∧ (movesClock c = false → s.grows t) := by
  match c with
  | .gun => exact ⟨_, rfl, live_fuses (gun_fuses s), fun h => by cases h⟩
  | .tickEdge b frac => exact still_of (live_grows (State.grows_of_core (tickEdge_core s b frac)))
  | .ptpSync sec ns => exact still_of (live_grows (State.grows_of_core (ptpSync_core s sec ns)))
  | .pacerPtpLost why => exact still_of (live_grows (State.grows_of_core (pacerPtpLost_core s why)))
  | .pacerLocked => exact still_of (live_grows (State.grows_of_core (pacerLocked_core s)))
  | .pacerUnlock => exact still_of (live_grows (State.grows_of_core (pacerUnlock_core s)))
  | .pacerReacquire => exact still_of (live_grows (State.grows_of_core (pacerReacquire_core s)))
  | .pacerFreerun => exact still_of (live_grows (State.grows_of_core (pacerFreerun_core s)))
  | .pacerCircDisagree c0 c1 => exact ⟨_, rfl, live_fuses (pacerCircDisagree_fuses s c0 c1), fun h => by cases h⟩
  | .pacerCircReload ok => exact still_of (live_grows (State.grows_of_core (pacerCircReload_core s ok)))
  | .pacerRun m => exact still_of (live_grows (State.grows_of_core (pacerRun_core s m)))
  | .pacerStop m => exact still_of (live_grows (State.grows_of_core (pacerStop_core s m)))
  | .rephase m phase => exact still_of (live_grows (State.grows_of_core (rephaseOp_core s m phase)))
  | .heatNumLoRead m => exact still_of (live_grows (State.grows_of_core (heatNumLoRead_core s)))
  | .applyHiWrite m v => exact still_of (live_grows (State.grows_of_core (applyHiWrite_core s m v)))
  | .transportCycle p => exact still_of (live_grows (State.grows_of_core (transportCycle_core s p)))
  | .repIteration p => exact still_of (live_grows (State.grows_of_core (repIteration_core s p)))
  | .resultReady p mismatch => exact still_of (live_grows (State.grows_of_core (resultReady_core s p mismatch)))
  | .trapEntry p => exact still_of (live_grows (State.grows_of_core (trapEntry_core s p)))
  | .fenceReportPost p => exact still_of (live_grows (State.grows_of_core (fenceReportPost_core s p)))
  | .storeBufferDrain p => exact still_of (live_grows (State.grows_of_core (drainNow_core s p)))
  | .remoteAccessDone p => exact still_of (live_grows (State.grows_of_core (remoteAccessDone_core s p)))
  | .aluAdd p n t => exact still_of (live_grows (State.grows_of_core (trigger_core s p ((if n then 0x30 else 0x20) + 1) t)))
  | .aluSub p n t => exact still_of (live_grows (State.grows_of_core (trigger_core s p ((if n then 0x30 else 0x20) + 2) t)))
  | .aluAnd p n t => exact still_of (live_grows (State.grows_of_core (trigger_core s p ((if n then 0x30 else 0x20) + 3) t)))
  | .aluOr p n t => exact still_of (live_grows (State.grows_of_core (trigger_core s p ((if n then 0x30 else 0x20) + 4) t)))
  | .aluXor p n t => exact still_of (live_grows (State.grows_of_core (trigger_core s p ((if n then 0x30 else 0x20) + 5) t)))
  | .aluAndn p n t => exact still_of (live_grows (State.grows_of_core (trigger_core s p ((if n then 0x30 else 0x20) + 6) t)))
  | .aluShl p n t => exact still_of (live_grows (State.grows_of_core (trigger_core s p ((if n then 0x30 else 0x20) + 7) t)))
  | .aluShr p n t => exact still_of (live_grows (State.grows_of_core (trigger_core s p ((if n then 0x30 else 0x20) + 8) t)))
  | .aluSra p n t => exact still_of (live_grows (State.grows_of_core (trigger_core s p ((if n then 0x30 else 0x20) + 9) t)))
  | .aluRotl p n t => exact still_of (live_grows (State.grows_of_core (trigger_core s p ((if n then 0x30 else 0x20) + 10) t)))
  | .aluEq p n t => exact still_of (live_grows (State.grows_of_core (trigger_core s p ((if n then 0x30 else 0x20) + 11) t)))
  | .aluLt p n t => exact still_of (live_grows (State.grows_of_core (trigger_core s p ((if n then 0x30 else 0x20) + 12) t)))
  | .aluLtu p n t => exact still_of (live_grows (State.grows_of_core (trigger_core s p ((if n then 0x30 else 0x20) + 13) t)))
  | .aluMin p n t => exact still_of (live_grows (State.grows_of_core (trigger_core s p ((if n then 0x30 else 0x20) + 14) t)))
  | .aluMax p n t => exact still_of (live_grows (State.grows_of_core (trigger_core s p ((if n then 0x30 else 0x20) + 15) t)))
  | .mulMul p t => exact still_of (live_grows (State.grows_of_core (trigger_core s p 0x41 t)))
  | .mulMulu p t => exact still_of (live_grows (State.grows_of_core (trigger_core s p 0x42 t)))
  | .mulMulsu p t => exact still_of (live_grows (State.grows_of_core (trigger_core s p 0x43 t)))
  | .fpuAdd p t => exact still_of (live_grows (State.grows_of_core (trigger_core s p 0x4A t)))
  | .fpuMul p t => exact still_of (live_grows (State.grows_of_core (trigger_core s p 0x4B t)))
  | .fpuFma p t => exact still_of (live_grows (State.grows_of_core (trigger_core s p 0x4C t)))
  | .fpuCvt p t => exact still_of (live_grows (State.grows_of_core (trigger_core s p 0x4D t)))
  | .fpuCmp p t => exact still_of (live_grows (State.grows_of_core (trigger_core s p 0x4E t)))
  | .macF p k t => exact still_of (live_grows (State.grows_of_core (trigger_core s p (0x52 + k.toNat) t)))
  | .macClr p t => exact still_of (live_grows (State.grows_of_core (trigger_core s p 0x56 t)))
  | .macSet p t => exact still_of (live_grows (State.grows_of_core (trigger_core s p 0x57 t)))
  | .lsuLd p t => exact still_of (live_grows (State.grows_of_core (trigger_core s p 0x5C t)))
  | .lsuSt p t => exact still_of (live_grows (State.grows_of_core (trigger_core s p 0x5D t)))
  | .lsuLr p t => exact still_of (live_grows (State.grows_of_core (trigger_core s p 0x5E t)))
  | .lsuSc p t => exact still_of (live_grows (State.grows_of_core (trigger_core s p 0x5F t)))
  | .lsuLdc p t => exact still_of (live_grows (State.grows_of_core (trigger_core s p 0x60 t)))
  | .lsuStc p t => exact still_of (live_grows (State.grows_of_core (trigger_core s p 0x61 t)))
  | .lsuFence p t => exact still_of (live_grows (State.grows_of_core (trigger_core s p 0x62 t)))
  | .ctlJump p t => exact still_of (live_grows (State.grows_of_core (trigger_core s p 0x64 t)))
  | .ctlCall p t => exact still_of (live_grows (State.grows_of_core (trigger_core s p 0x65 t)))
  | .ctlRet p t => exact still_of (live_grows (State.grows_of_core (trigger_core s p 0x66 t)))
  | .ctlSync p t => exact still_of (live_grows (State.grows_of_core (trigger_core s p 0x67 t)))
  | .splWait p t => exact still_of (live_grows (State.grows_of_core (trigger_core s p 0x68 t)))
  | .splChk p t => exact still_of (live_grows (State.grows_of_core (trigger_core s p 0x69 t)))
  | .splCmp p t => exact still_of (live_grows (State.grows_of_core (trigger_core s p 0x6A t)))
  | .splTimerFire p => exact still_of (live_grows (State.grows_of_core (splTimerFire_core s p)))
  | .splLate p => exact still_of (live_grows (State.grows_of_core (splLate_core s p)))
  | .comparePoint h pt => exact still_of (live_grows (State.grows_of_core (comparePoint_core s h pt)))
  | .trapT p t => exact still_of (live_grows (State.grows_of_core (trigger_core s p 0x70 t)))
  | .trapRet p t => exact still_of (live_grows (State.grows_of_core (trigger_core s p 0x71 t)))
  | .gpos p => exact still_of (live_grows (State.grows_of_core (trigger_core s p 0x76 0x00)))
  | .gbase p => exact still_of (live_grows (State.grows_of_core (trigger_core s p 0x76 0x01)))
  | .glim p => exact still_of (live_grows (State.grows_of_core (trigger_core s p 0x76 0x02)))
  | .gperm p => exact still_of (live_grows (State.grows_of_core (trigger_core s p 0x76 0x03)))
  | .gtag p => exact still_of (live_grows (State.grows_of_core (trigger_core s p 0x76 0x04)))
  | .glen p => exact still_of (live_grows (State.grows_of_core (trigger_core s p 0x76 0x05)))
  | .move p => exact still_of (live_grows (State.grows_of_core (trigger_core s p 0x76 0x08)))
  | .spos p => exact still_of (live_grows (State.grows_of_core (trigger_core s p 0x76 0x09)))
  | .ipos p => exact still_of (live_grows (State.grows_of_core (trigger_core s p 0x76 0x0A)))
  | .sbnd p => exact still_of (live_grows (State.grows_of_core (trigger_core s p 0x76 0x0B)))
  | .aperm p => exact still_of (live_grows (State.grows_of_core (trigger_core s p 0x76 0x0C)))
  | .cltag p => exact still_of (live_grows (State.grows_of_core (trigger_core s p 0x76 0x0D)))
  | .seal p => exact still_of (live_grows (State.grows_of_core (trigger_core s p 0x76 0x0E)))
  | .unseal p => exact still_of (live_grows (State.grows_of_core (trigger_core s p 0x76 0x0F)))
  | .cmpb p => exact still_of (live_grows (State.grows_of_core (trigger_core s p 0x76 0x10)))
  | .rdsys p => exact still_of (live_grows (State.grows_of_core (trigger_core s p 0x76 0x11)))
  | .wrsys p => exact still_of (live_grows (State.grows_of_core (trigger_core s p 0x76 0x12)))
  | .rlySend p v => exact still_of (live_grows (State.grows_of_core (trigger_core s p 0x78 v)))
  | .relayHop r input => exact still_of (live_grows (State.grows_of_core (relayHop_core s r input)))
  | .relayArrival p => exact still_of (live_grows (State.grows_of_core (relayArrival_core s p)))
  | .rlyRxRead p => exact still_of (live_grows (State.grows_of_core (rxRead_core s p)))
  | .rlyFlush p v => exact still_of (live_grows (State.grows_of_core (rlyFlush_core s p v)))
  | .mbxWr p v => exact still_of (live_grows (State.grows_of_core (trigger_core s p 0x7B v)))
  | .mbxGo p v => exact still_of (live_grows (State.grows_of_core (trigger_core s p 0x7C v)))
  | .mbxWait p v => exact still_of (live_grows (State.grows_of_core (trigger_core s p 0x7D v)))
  | .mbxRdRead p => exact still_of (live_grows (State.grows_of_core (mbxRdRead_core s p)))
  | .mbxPostArrive c => exact still_of (live_grows (State.grows_of_core (by simp)))
  | .mbxReleaseArrive c => exact still_of (live_grows (State.grows_of_core (by simp)))
  | .mbxWaitEnd p => exact still_of (live_grows (State.grows_of_core (mbxWaitEnd_core s p)))
  | .mbxFabricGo m c be v => exact still_of (live_grows (State.grows_of_core (fabricGo_core s m c be v)))
  | .mbxFabricRead m c w be => exact still_of (live_grows (State.grows_of_core (fabricDataRead_core s m c w be)))
  | .bind m c v => exact still_of (live_grows (State.grows_of_core (bindOp_core s m c v)))
  | .mbxLock m v => exact still_of (live_grows (State.grows_of_core (mbxLockOp_core s m v)))
  | .sysWr p v => exact still_of (live_grows (State.grows_of_core (trigger_core s p 0x7F v)))
  | .scrubVisit p hard0 hard1 hardIs => exact still_of (live_grows (State.grows_of_core (scrubVisit_core s p hard0 hard1 hardIs)))
  | .memCmd m p v => exact still_of (live_grows (State.grows_of_core (memCmd_core s m p v)))
  | .sharerAccess p arr => exact still_of (live_grows (State.grows_of_core (sharerAccess_core s p arr)))
  | .smBusyRetry => exact still_of (live_grows (State.grows_of_core (smBusyRetry_core s)))
  | .smScrub hard => exact still_of (live_grows (State.grows_of_core (smScrub_core s hard)))
  | .qdrInit m k => exact still_of (live_grows (State.grows_of_core (qdrInit_core s m k)))
  | .qdrReady k failStep => exact still_of (live_grows (State.grows_of_core (qdrReady_core s k failStep)))
  | .qdrCtrlFail m k => exact still_of (live_grows (State.grows_of_core (qdrCtrlFail_core s m k)))
  | .qdrRetrain k eyes driftOk => exact still_of (live_grows (State.grows_of_core (qdrRetrain_core s k eyes driftOk)))
  | .qdrZqCalibration k => exact still_of (live_grows (State.grows_of_core (qdrZqCalibration_core s k)))
  | .qdrScrub k hard => exact still_of (live_grows (State.grows_of_core (qdrScrub_core s k hard)))
  | .qdrApar k => exact still_of (live_grows (State.grows_of_core (qdrApar_core s k)))
  | .qdrWriteReplay k => exact still_of (live_grows (State.grows_of_core (qdrWriteReplay_core s k)))
  | .streamRodIssue e => exact still_of (live_grows (State.grows_of_core (streamRodIssue_core s e)))
  | .streamRodArrive e => exact still_of (live_grows (State.grows_of_core (streamRodArrive_core s e)))
  | .fabricRequest r => exact still_of (live_grows (State.grows_of_core (fabricRequest_core s r)))
  | .fabricGrant t hopOk => exact still_of (live_grows (State.grows_of_core (fabricGrant_core s t hopOk)))
  | .fabricResponse m hopOk => exact still_of (live_grows (State.grows_of_core (fabricResponse_core s m hopOk)))
  | .periphBusAccess => exact still_of (live_grows (State.grows_of_core (periphBusAccess_core s)))
  | .fabWaitMaxClear m t => exact still_of (live_grows (State.grows_of_core (fabWaitMaxClear_core s m t)))
  | .loadCard e => exact still_of (live_grows (State.grows_of_core (loadCard_core s e)))
  | .cardAdmission => exact still_of (live_grows (State.grows_of_core (cardAdmission_core s)))
  | .activate e => exact still_of (live_grows (State.grows_of_core (activate_core s e)))
  | .withdraw e => exact still_of (live_grows (State.grows_of_core (withdraw_core s e)))
  | .seedWrite h => exact still_of (live_grows (State.grows_of_core (seedWrite_core s h)))
  | .seatClearDone seat => exact still_of (live_grows (State.grows_of_core (seatClearDone_core s seat)))
  | .frameReceive port f => exact still_of (live_grows (State.grows_of_core (frameReceive_core s port f)))
  | .kaongCellReceive port c => exact still_of (live_grows (State.grows_of_core (kaongCellReceive_core s port c)))
  | .kaongLock port => exact still_of (live_grows (State.grows_of_core (kaongLock_core s port)))
  | .portLinkDown port why => exact still_of (live_grows (State.grows_of_core (portLinkDown_core s port why)))
  | .ingestRodEnter port bank => exact still_of (live_grows (State.grows_of_core (ingestRodEnter_core s port bank)))
  | .ingestRodArrive port bank => exact still_of (live_grows (State.grows_of_core (ingestRodArrive_core s port bank)))
  | .ingestStatusRod port rec => exact still_of (live_grows (State.grows_of_core (ingestStatusRod_core s port rec)))
  | .ingestMapSwitch port => exact still_of (live_grows (State.grows_of_core (ingestMapSwitch_core s port)))
  | .egressReadRequest port => exact still_of (live_grows (State.grows_of_core (egressReadRequest_core s port)))
  | .egressFrameSend port => exact still_of (live_grows (State.grows_of_core (egressFrameSend_core s port)))
  | .kaongCellSend port => exact still_of (live_grows (State.grows_of_core (kaongCellSend_core s port)))
  | .stewardFrameSend port bytes => exact still_of (live_grows (State.grows_of_core (stewardFrameSend_core s port bytes)))
  | .identify e => exact still_of (live_grows (State.grows_of_core (identify_core s e)))
  | .attest e => exact still_of (live_grows (State.grows_of_core (attest_core s e)))
  | .queryContract e => exact still_of (live_grows (State.grows_of_core (queryContract_core s e)))
  | .readLog e => exact still_of (live_grows (State.grows_of_core (readLog_core s e)))
  | .snapshotArm e => exact still_of (live_grows (State.grows_of_core (snapshotArm_core s e)))
  | .snapshotRead e => exact still_of (live_grows (State.grows_of_core (snapshotRead_core s e)))
  | .fwStage e => exact still_of (live_grows (State.grows_of_core (fwStage_core s e)))
  | .fwCommit e => exact still_of (live_grows (State.grows_of_core (fwCommit_core s e)))
  | .pacerCfg e => exact still_of (live_grows (State.grows_of_core (pacerCfg_core s e)))
  | .resourceClaim e => exact still_of (live_grows (State.grows_of_core (resourceClaim_core s e)))
  | .resourceRelease e => exact still_of (live_grows (State.grows_of_core (resourceRelease_core s e)))
  | .resourceQuery e => exact still_of (live_grows (State.grows_of_core (resourceQuery_core s e)))
  | .lifecycleTransition e => exact still_of (live_grows (lifecycleTransition_grows s e))
  | .keyEnrol e => exact still_of (live_grows (keyEnrol_grows s e))
  | .keyRevoke e => exact still_of (live_grows (keyRevoke_grows s e))
  | .debugOpen e => exact still_of (live_grows (debugOpenCmd_grows s e))
  | .debugClose e => exact still_of (live_grows (debugCloseCmd_grows s e))
  | .debugExpire => exact still_of (live_grows (State.grows_of_core (debugExpire_core s)))
  | .telemetryCfg e => exact still_of (live_grows (State.grows_of_core (telemetryCfg_core s e)))
  | .invalidOpcode e op => exact still_of (live_grows (State.grows_of_core (invalidOpcode_core s e op)))
  | .sqTail q v => exact still_of (live_grows (State.grows_of_core (sqTail_core s q v)))
  | .cqHead q v => exact still_of (live_grows (State.grows_of_core (cqHead_core s q v)))
  | .evtHead v => exact still_of (live_grows (State.grows_of_core (evtHead_core s v)))
  | .telemHead v => exact still_of (live_grows (State.grows_of_core (telemHead_core s v)))
  | .ringEnable ring cfg => exact still_of (live_grows (State.grows_of_core (ringEnable_core s ring cfg)))
  | .completionPost q => exact still_of (live_grows (State.grows_of_core (completionPost_core s q)))
  | .eventDeliver => exact still_of (live_grows (State.grows_of_core (eventDeliver_core s)))
  | .telemetryRecord => exact still_of (live_grows (State.grows_of_core (telemetryRecord_core s)))
  | .hostReset k => exact still_of (live_grows (State.grows_of_core (hostReset_core s k)))
  | .d3hotEntry => exact still_of (live_grows (State.grows_of_core (d3hotEntry_core s)))
  | .repairSweep f => exact still_of (live_grows (State.grows_of_core (repairSweep_core s f)))
  | .groupResume h seat => exact still_of (live_grows (State.grows_of_core (groupResume_core s h seat)))
  | .shadowTest p sigOk copyOk => exact still_of (live_grows (State.grows_of_core (shadowTest_core s p sigOk copyOk)))
  | .stewardDuplexMismatch => exact still_of (live_grows (State.grows_of_core (stewardDuplexMismatch_core s)))
  | .stewardBoot imgA imgB => exact still_of (live_grows (State.grows_of_core (stewardBoot_core s imgA imgB)))
  | .identityGenerate healthOk => exact still_of (live_grows (State.grows_of_core (identityGenerate_core s healthOk)))
  | .secExtend m v => exact still_of (live_grows (State.grows_of_core (secExtend_core s m v)))
  | .secTamper src => exact still_of (State.grows_of_core (secTamper_core s src))
  | .photoInEdge => exact still_of (live_grows (State.grows_of_core (photoInEdge_core s)))
  | .pfProgTrigger => exact still_of (live_grows (State.grows_of_core (pfProgTrigger_core s)))
  | .pfCmdTrig m => exact still_of (live_grows (State.grows_of_core (pfCmdTrig_core s m)))
  | .pfCmdRelease m => exact still_of (live_grows (State.grows_of_core (pfCmdRelease_core s m)))
  | .pfCapture => exact still_of (live_grows (State.grows_of_core (pfCapture_core s)))
  | .snapshotHoldExpire => exact still_of (live_grows (State.grows_of_core (snapshotHoldExpire_core s)))
  | .logSliceWrite verify1 verify2 => exact still_of (live_grows (State.grows_of_core (logSliceWrite_core s verify1 verify2)))
  | .pwrReq m v => exact still_of (live_grows (State.grows_of_core (pwrReq_core s m v)))
  | .pwrDomainOn d => exact still_of (live_grows (State.grows_of_core (pwrDomainOn_core s d)))
  | .deviceReset c => exact ⟨_, rfl, deviceReset_fuses s c, fun h => by cases h⟩
  | .resetRelease => exact ⟨_, rfl, resetRelease_fuses s, fun h => by cases h⟩
  | .mainPowerFail => exact ⟨_, rfl, mainPowerFail_fuses s, fun h => by cases h⟩
  | .clkFail c => exact still_of (live_grows (State.grows_of_core (clkFail_core s c)))
  | .corePllLockLoss => exact ⟨_, rfl, live_fuses (corePllLockLoss_fuses s), fun h => by cases h⟩
  | .wdtKick m v => exact still_of (live_grows (State.grows_of_core (wdtKick_core s m v)))
  | .wdtExpired st => exact ⟨_, rfl, live_fuses (wdtExpired_fuses s st), fun h => by cases h⟩
  | .pwrTjWarn sensor tj => exact still_of (live_grows (State.grows_of_core (pwrTjWarn_core s sensor tj)))
  | .thermalTrip sensor => exact ⟨_, rfl, live_fuses (thermalTrip_fuses s sensor), fun h => by cases h⟩
  | .pwrLaneRst m v => exact still_of (live_grows (State.grows_of_core (pwrLaneRst_core s m v)))
  | .pwrFieldRst m v => exact still_of (live_grows (State.grows_of_core (pwrFieldRst_core s m v)))
  | .rtcLoRead m => exact still_of (live_grows (State.grows_of_core (rtcLoRead_core s)))
  | .uartTxWrite m v => exact still_of (live_grows (State.grows_of_core (uartTxWrite_core s m v)))
  | .uartRxRead m => exact still_of (live_grows (State.grows_of_core (uartRxRead_core s)))
  | .uartRxByte b stopOk => exact still_of (live_grows (State.grows_of_core (uartRxByte_core s b stopOk)))
  | .uartTxByteDone => exact still_of (live_grows (State.grows_of_core (uartTxByteDone_core s)))
  | .i2c1Xfer m v => exact still_of (live_grows (State.grows_of_core (i2c1Xfer_core s m v)))
  | .i2c1ByteDone ack arb b => exact still_of (live_grows (State.grows_of_core (i2c1ByteDone_core s ack arb b)))
  | .tmrCompare k => exact still_of (live_grows (State.grows_of_core (tmrCompare_core s k)))
  | .tmrCapture k => exact still_of (live_grows (State.grows_of_core (tmrCapture_core s k)))
  | .tickOutPulse => exact still_of (live_grows (State.grows_of_core (tickOutPulse_core s)))
  | .pmbusPoll rails x => exact still_of (live_grows (State.grows_of_core (pmbusPoll_core s rails x)))
  | .registerWrite m a v => exact still_of (live_grows (State.grows_of_core (registerWrite_core s m a v)))
  | .clkLockReturn c => exact still_of (live_grows (State.grows_of_core (clkLockReturn_core s c)))
  | .d3hotExit => exact still_of (live_grows (State.grows_of_core (d3hotExit_core s)))
  | .msixUnmask vec => exact still_of (live_grows (State.grows_of_core (msixUnmask_core s vec)))
  | .standbySelfTestDone => exact still_of (live_grows (State.grows_of_core (standbySelfTestDone_core s)))
  | .vbatApplication => exact still_of (State.grows_of_core (vbatApplication_core s))

end Sys2Proof.Machine
end

