-- ==== Sys2Proof/Laws/Lane.lean ====
section
/-! SUPPORT. What a command on a lane does, once for every trigger port. -/

namespace Sys2Proof.Machine
open Sys2Proof

theorem State.laneOnly_setLane (u : State) (p : Nat) (l : Lane) : u.LaneOnly (u.setLane p l) p l :=
  ⟨by simp, fun _ h => State.lane_setLane_other u l h, rfl⟩

/-- The ports, counters and registers that a remote move of the cycle, or the stalls and the fetch of step 2, may change are
left out: what remains of a lane (R44, R222, R225). -/
def Lane.own (l : Lane) : Lane :=
  { l with
    w := [], g := 0, flight := [], rly := laneReset0.rly
    u := { l.u with alu0o := 0, alu1o := 0, mulo := 0, fo1 := 0, fo2 := 0, fmode := 0, maco := 0, macmode := 0, acc := [], macTrig := [] }
    ctl := { l.ctl with ready := 0, stallUntil := 0, fetched := [] } }

@[simp] theorem Lane.fly_own (l : Lane) (at_ u : Nat) (r : Res) : (l.fly at_ u r).own = l.own := rfl
@[simp] theorem Lane.setAcc_own (l : Lane) (now k : Nat) (raw : BitVec 40) : (l.setAcc now k raw).own = l.own := rfl

theorem Lane.writePort_own (l : Lane) (d : Nat) (v : Word) (h : remoteDst d = true) : (l.writePort d v).own = l.own := by
  unfold Lane.writePort
  (repeat' split) <;> first | rfl | simp [remoteDst] at h

theorem Lane.foldl_own {α : Type} (g : Lane → α → Lane) (h : ∀ l x, (g l x).own = l.own) (ms : List α) (l : Lane) :
    (ms.foldl g l).own = l.own := by
  induction ms generalizing l with
  | nil => rfl
  | cons m r ih => simp [ih, h]

theorem Lane.fireMacClr_own (l : Lane) (now : Nat) (t : Word) : (l.fireMacClr now t).own = l.own := by
  have h : ((List.range 4).foldl (fun l k => if t.getLsbD k then l.setAcc now k 0 else l) l).own = l.own :=
    Lane.foldl_own _ (fun l x => by split <;> rfl) _ _
  simp only [Lane.fireMacClr]
  split
  · exact (Lane.fly_own ..).trans h
  · exact h

theorem Lane.fireCompute_own (l : Lane) (now d : Nat) (v : Word) : (l.fireCompute now d v).own = l.own := by
  simp only [Lane.fireCompute, Lane.fireAlu, Lane.fireMul, Lane.fireFpu, Lane.fireMacF, Lane.fireMacSet, Lane.fireChk]
  (repeat' split) <;> first | rfl | exact Lane.fireMacClr_own l now v

@[simp] theorem Lane.remoteMove_own (l : Lane) (at_ d : Nat) (v : Word) : (l.remoteMove at_ d v).own = l.own := by
  unfold Lane.remoteMove
  split
  · rfl
  · rename_i h
    rw [Lane.fireCompute_own, Lane.writePort_own]
    simp at h; exact h.1

@[simp] theorem Lane.remoteNow_own (l : Lane) (now : Nat) : (l.remoteNow now).own = l.own := by
  simp only [Lane.remoteNow]
  exact Lane.foldl_own _ (fun l (m : RMove) => Lane.remoteMove_own l now m.port m.v) _ _

/-- Step 2 of a command's cycle changes its lane alone, and of that only what a remote move, a stall or the fetch of a store
can change. -/
theorem State.step2_own (s : State) (p d : Nat) : ((s.step2 p d).lane p).own = (s.lane p).own := by
  simp only [State.step2, State.lane_setLane_same]
  exact congrArg (fun l => { l with ctl := (s.lane p).own.ctl }) (Lane.remoteNow_own (s.lane p) s.now)

theorem State.laneOnly_step2 (s : State) (p d : Nat) (l : Lane) : s.LaneOnly ((s.step2 p d).setLane p l) p l :=
  ⟨by simp, fun _ h => by rw [State.lane_setLane_other _ _ h, State.step2, State.lane_setLane_other _ _ h], rfl⟩

/-- A trigger that acts and whose checks pass performs its operation, on the lane brought to the present cycle. -/
theorem trigger_acts (s : State) (p d : Nat) (v : Word) (h : s.Acts p d)
    (hx : ((s.laneNow p).ctl.xfer.isSome && slotForbidden d) = false)
    (hc : moveChecks p (s.laneNow p) (s.laneNow p) [(⟨d, .imm v, none⟩, v)] = none) :
    trigger s p d v = ((((s.settle p).drainHeld p d v).step2 p d).fire p d v).fireLate p d := by
  obtain ⟨_, h2, h3⟩ := h
  simp only [State.laneNow] at h2 h3 hx hc
  simp only [trigger, h2, h3, hx, hc, Bool.false_eq_true, if_false]

/-- A lane that is held, fenced, or between a trap and its entry or return ignores the command. -/
theorem trigger_stopped (s : State) (p d : Nat) (v : Word) (h : (s.laneNow p).stopped = true) : trigger s p d v = s.settle p := by
  simp only [State.laneNow] at h
  simp only [trigger, h, if_true]

/-- A check that fails raises its trap and nothing else happens (R56). -/
theorem trigger_trap (s : State) (p d : Nat) (v : Word) (t : TrapSpec) (h : (s.laneNow p).stopped = false)
    (hx : ((s.laneNow p).ctl.xfer.isSome && slotForbidden d) = false)
    (hc : moveChecks p (s.laneNow p) (s.laneNow p) [(⟨d, .imm v, none⟩, v)] = some t) :
    trigger s p d v = (s.settle p).instrTrap p t (s.laneNow p).ctl.pc := by
  simp only [State.laneNow] at h hx hc
  simp only [trigger, h, hx, hc, Bool.false_eq_true, if_false, State.laneNow]

/-- Ports outside the LSU hold nothing. -/
theorem State.drainHeld_other (s : State) (p d : Nat) (v : Word) (h : ¬ (0x5C ≤ d ∧ d ≤ 0x61)) : s.drainHeld p d v = s := by
  simp [State.drainHeld, h]

/-- A trigger command whose operation works on its lane alone. -/
theorem laneDoes_of (c : Instr) (p d : Nat) (v : Word) (ok : Lane → Prop) (f : Nat → Lane → Lane)
    (he : ∀ s, exec c s = .next (s.live (trigger s p d v))) (hd : ¬ (0x5C ≤ d ∧ d ≤ 0x61))
    (hx : ∀ l, ok l → (l.ctl.xfer.isSome && slotForbidden d) = false)
    (hc : ∀ l, ok l → moveChecks p l l [(⟨d, .imm v, none⟩, v)] = none)
    (hf : ∀ (u : State) (l : Lane), ok l → (u.lane p).own = l.own →
      (u.fire p d v).fireLate p d = u.setLane p (f u.now (u.lane p))) :
    LaneDoes c p d ok f := by
  intro s h ho
  refine ⟨_, (he s).trans (by rw [State.live_false _ _ h.1]), ?_⟩
  rw [trigger_acts s p d v h (hx _ ho) (hc _ ho), State.drainHeld_other _ _ _ _ hd, hf _ _ ho (State.step2_own _ p d)]
  exact State.laneOnly_step2 _ _ _ _

end Sys2Proof.Machine
end

