-- ==== Sys2Proof/Laws/QdrCode.lean ====
section
/-! SUPPORT. The rod code is linear, so the index bound to a QDR rod cancels where it is read at the same index (R241, R265). -/

namespace Sys2Proof.Laws
open Sys2Proof Sys2Proof.Machine

theorem gfX_xor (a b : Byte) : gfX (a ^^^ b) = gfX a ^^^ gfX b := by
  have h : ((if (a.msb ^^ b.msb) = true then 0x1D else 0 : Byte)) = (if a.msb then 0x1D else 0) ^^^ (if b.msb then 0x1D else 0) := by
    cases a.msb <;> cases b.msb <;> rfl
  unfold gfX
  rw [BitVec.shiftLeft_xor_distrib, BitVec.msb_xor, h]
  ac_rfl

theorem gfMulAux_xor (n : Nat) (a b c : Byte) : gfMulAux n (a ^^^ b) c = gfMulAux n a c ^^^ gfMulAux n b c := by
  induction n generalizing a b c with
  | zero => simp [gfMulAux]
  | succ n ih =>
    simp only [gfMulAux, gfX_xor, ih]
    cases c.getLsbD 0 <;> simp
    ac_rfl

/-- Multiplication distributes over addition in GF(2^8). -/
theorem gfMul_xor (a b c : Byte) : gfMul (a ^^^ b) c = gfMul a c ^^^ gfMul b c := gfMulAux_xor 8 a b c

/-- The symbol-wise sum of two remainders. -/
def xor4 (p q : Byte × Byte × Byte × Byte) : Byte × Byte × Byte × Byte :=
  (p.1 ^^^ q.1, p.2.1 ^^^ q.2.1, p.2.2.1 ^^^ q.2.2.1, p.2.2.2 ^^^ q.2.2.2)

theorem rsStep_xor (p q : Byte × Byte × Byte × Byte) (x y : Byte) : rsStep (xor4 p q) (x ^^^ y) = xor4 (rsStep p x) (rsStep q y) := by
  have h : x ^^^ y ^^^ (p.2.2.2 ^^^ q.2.2.2) = (x ^^^ p.2.2.2) ^^^ (y ^^^ q.2.2.2) := by ac_rfl
  simp only [rsStep, xor4, h, gfMul_xor, Prod.mk.injEq, true_and]
  refine ⟨?_, ?_, ?_⟩ <;> ac_rfl

/-- Division from a remainder `p` is division of zeros from `p`, plus division from zero. -/
theorem foldl_rsStep (d : List Byte) (p q : Byte × Byte × Byte × Byte) :
    d.foldl rsStep (xor4 p q) = xor4 ((List.replicate d.length 0).foldl rsStep p) (d.foldl rsStep q) := by
  induction d generalizing p q with
  | nil => rfl
  | cons x r ih =>
    have h := rsStep_xor p q 0 x
    rw [show (0 : Byte) ^^^ x = x from BitVec.zero_xor] at h
    simp only [List.foldl_cons, List.length_cons, List.replicate_succ, h, ih]

/-- The check bytes of data bound to index bytes `x`, `y`, `z` are those of the index plus those of the data (R265). -/
theorem rsCheck_bound (x y z : Byte) (d : List Byte) :
    rsCheck (x :: y :: z :: d) = xorList (rsCheck (x :: y :: z :: List.replicate d.length 0)) (rsCheck d) := by
  have h := foldl_rsStep d (rsStep (rsStep (rsStep (0, 0, 0, 0) x) y) z) (0, 0, 0, 0)
  have h0 : ∀ p : Byte × Byte × Byte × Byte, xor4 p (0, 0, 0, 0) = p := fun p => by simp [xor4]
  rw [h0] at h
  simp only [rsCheck, List.foldl_cons, h, xorList, List.zipWith_cons_cons, List.zipWith_nil_left, xor4]

/-- What a device stores for `d` at index `i` decodes, read at the same index, as the plain rod of `d` (R265). -/
theorem stored_decodes (i : Nat) (d : List Byte) (h : d.length = 32) : qdrUnbind i (qdrStored i d) = rodEncode d := by
  have h1 : (qdrStored i d).take 32 = d := by simp [qdrStored, ← h]
  have h2 : (qdrStored i d).drop 32 = rsCheck (BitVec.ofNat 8 (i / 65536) :: BitVec.ofNat 8 (i / 256) :: BitVec.ofNat 8 i :: d) := by
    simp [qdrStored, ← h]
  have hx : ∀ x y : Byte, x ^^^ y ^^^ x = y := fun x y => by rw [BitVec.xor_comm x y, BitVec.xor_assoc, BitVec.xor_self, BitVec.xor_zero]
  rw [qdrUnbind, h1, h2, rsCheck_bound, h, rodEncode, idxCheck]
  simp [rsCheck, xorList, hx]

end Sys2Proof.Laws
end

