-- ==== Sys2Proof/WellFormed.lean ====
section
/-! DEFINITION. When a command names a part that the device has: the ranges of lane IDs (R7), ports (R326), stream engines
(R274), QDR controllers (R259), router numbers and inputs (R212, R230), channels (R377), fabric targets (R287) and the lengths
that a host or a link may use. -/

namespace Sys2Proof

def laneOk (p : Nat) : Bool := decide (p < 1092)
def fieldLaneOk (p : Nat) : Bool := decide (p < 1088)
def portOk (k : Nat) : Bool := decide (k < 16)
def chanOk (c : Nat) : Bool := decide (c < 65)
def queueOk (q : Nat) : Bool := decide (q < 4)

def RouterId.ok : RouterId → Bool
  | .squad r => decide (r < 64)
  | .field f => decide (f < 8)
  | .ring f => decide (f < 8)

/-- Inputs of a router (R212, R219). -/
def RouterId.inputs : RouterId → Nat
  | .squad _ => 21
  | .field _ => 40
  | .ring _ => 16

def SamplePoint.ok : SamplePoint → Bool
  | .k n => decide (1 ≤ n) && decide (n ≤ 8)
  | .egress => true
  | .gun => true

def Sqe.ok (e : Sqe) : Bool := queueOk e.sq && decide (e.param.length = 40)

def FabReq.ok (r : FabReq) : Bool :=
  decide (1 ≤ r.len) && (!r.write || decide (r.data.length = r.len))

def Clock.ok : Clock → Bool
  | .qdr k => decide (k < 4)
  | .serdes g => decide (g < 2)
  | _ => true

/-- The command's operands lie in their ranges. -/
def Instr.wellFormed : Instr → Bool
  | .transportCycle p | .repIteration p | .resultReady p _ | .trapEntry p | .storeBufferDrain p
  | .remoteAccessDone p | .splTimerFire p | .splLate p | .gpos p | .gbase p | .glim p | .gperm p | .gtag p | .glen p
  | .move p | .spos p | .ipos p | .sbnd p | .aperm p | .cltag p | .seal p | .unseal p | .cmpb p | .rdsys p | .wrsys p
  | .relayArrival p | .rlyRxRead p | .mbxRdRead p | .mbxWaitEnd p | .fenceReportPost p => laneOk p
  | .aluAdd p _ _ | .aluSub p _ _ | .aluAnd p _ _ | .aluOr p _ _ | .aluXor p _ _ | .aluAndn p _ _ | .aluShl p _ _
  | .aluShr p _ _ | .aluSra p _ _ | .aluRotl p _ _ | .aluEq p _ _ | .aluLt p _ _ | .aluLtu p _ _ | .aluMin p _ _
  | .aluMax p _ _ | .macF p _ _ => laneOk p
  | .mulMul p _ | .mulMulu p _ | .mulMulsu p _ | .fpuAdd p _ | .fpuMul p _ | .fpuFma p _ | .fpuCvt p _ | .fpuCmp p _
  | .macClr p _ | .macSet p _ | .lsuLd p _ | .lsuSt p _ | .lsuLr p _ | .lsuSc p _ | .lsuLdc p _ | .lsuStc p _
  | .lsuFence p _ | .ctlJump p _ | .ctlCall p _ | .ctlRet p _ | .ctlSync p _ | .splWait p _ | .splChk p _ | .splCmp p _
  | .trapT p _ | .trapRet p _ | .rlySend p _ | .rlyFlush p _ | .mbxWr p _ | .mbxGo p _ | .mbxWait p _ | .sysWr p _ =>
    laneOk p
  | .scrubVisit p _ _ _ | .memCmd _ p _ | .shadowTest p _ _ => fieldLaneOk p
  | .sharerAccess p k => laneOk p && decide (k.arr < 3)
  | .comparePoint h pt => decide (h < 65535) && pt.ok
  | .relayHop r i => r.ok && decide (i.input < r.inputs)
  | .mbxPostArrive c | .mbxReleaseArrive c | .mbxFabricGo _ c _ _ | .bind _ c _ => chanOk c
  | .mbxFabricRead _ c w _ => chanOk c && decide (w < 16)
  | .qdrInit _ k | .qdrReady k _ | .qdrCtrlFail _ k | .qdrRetrain k _ _ | .qdrZqCalibration k | .qdrScrub k _
  | .qdrWriteReplay k => decide (k < 4)
  | .qdrApar a => decide (a.chan < 4)
  | .streamRodIssue e | .streamRodArrive e => decide (e < 8)
  | .fabricRequest r => r.ok
  | .fabricGrant t _ | .fabWaitMaxClear _ t => decide (t < 23)
  | .loadCard e | .activate e | .withdraw e | .identify e | .attest e | .queryContract e | .readLog e | .snapshotArm e
  | .snapshotRead e | .fwStage e | .fwCommit e | .pacerCfg e | .resourceClaim e | .resourceRelease e | .resourceQuery e
  | .lifecycleTransition e | .keyEnrol e | .keyRevoke e | .debugOpen e | .debugClose e | .telemetryCfg e
  | .invalidOpcode e _ => e.ok
  | .seedWrite h => decide (h < 65535)
  | .seatClearDone n => decide (n < 1024)
  | .frameReceive k _ | .kaongCellReceive k _ | .kaongLock k | .portLinkDown k _ | .ingestRodEnter k _
  | .ingestRodArrive k _ | .ingestMapSwitch k | .egressReadRequest k | .egressFrameSend k | .kaongCellSend k
  | .stewardFrameSend k _ => portOk k
  | .ingestStatusRod k r => portOk k && decide (r < 8)
  | .sqTail q _ | .cqHead q _ | .completionPost q => queueOk q
  | .ringEnable r _ => decide (r < 9)
  | .repairSweep mv => decide (mv.field < 8)
  | .groupResume h n => decide (h < 65535) && decide (n < 1024)
  | .secTamper k => decide (k < 6)
  | .pwrDomainOn d => decide (d < 20)
  | .clkFail c | .clkLockReturn c => c.ok
  | .wdtExpired k => decide (k < 4)
  | .pwrTjWarn k _ | .thermalTrip k => decide (k < 12)
  | .tmrCompare k | .tmrCapture k => decide (k < 4)
  | .ptpSync x _ => portOk x.port
  | .msixUnmask v => decide (v < 64)
  | .gun | .tickEdge _ _ | .pacerPtpLost _ | .pacerLocked | .pacerUnlock | .pacerReacquire
  | .pacerFreerun | .pacerCircDisagree _ _ | .pacerCircReload _ | .pacerRun _ | .pacerStop _ | .rephase _ _
  | .heatNumLoRead _ | .applyHiWrite _ _ | .mbxLock _ _ | .smBusyRetry | .smScrub _ | .fabricResponse _ _
  | .periphBusAccess | .cardAdmission | .debugExpire | .evtHead _ | .telemHead _ | .eventDeliver | .telemetryRecord
  | .hostReset _ | .d3hotEntry | .stewardDuplexMismatch | .stewardBoot _ _ | .identityGenerate _ | .secExtend _ _
  | .photoInEdge | .pfProgTrigger | .pfCmdTrig _ | .pfCmdRelease _ | .pfCapture | .snapshotHoldExpire
  | .logSliceWrite _ _ | .pwrReq _ _ | .deviceReset _ | .resetRelease | .mainPowerFail | .corePllLockLoss | .wdtKick _ _
  | .pwrLaneRst _ _ | .pwrFieldRst _ _ | .rtcLoRead _ | .uartTxWrite _ _ | .uartRxRead _ | .uartRxByte _ _
  | .uartTxByteDone | .i2c1Xfer _ _ | .i2c1ByteDone _ _ _ | .tickOutPulse | .pmbusPoll _ _ | .registerWrite _ _ _
  | .d3hotExit | .standbySelfTestDone | .vbatApplication => true

end Sys2Proof
end

