-- ==== Sys2Proof/Tests/Slice0.lean ====
section
/-! SUPPORT. Tests: ill-formed commands that the check of WellFormed refuses, the conditions of every statement met by a concrete
state, and small one-step checks against the worked examples of the spec. -/

namespace Sys2Proof.Tests
open Sys2Proof Sys2Proof.Machine
-- One test at a time: else each `decide +kernel` holds a thread of its own, and their stacks together exceed the memory limit.
set_option Elab.async false

/-! ### WellFormed: one ill-formed command for each check, and the last value that it admits -/

theorem test_wf_lane : (Instr.aluAdd 1092 false 0).wellFormed = false ∧ (Instr.aluAdd 1091 false 0).wellFormed = true := by decide
theorem test_wf_field_lane : (Instr.memCmd 0 1088 0).wellFormed = false ∧ (Instr.memCmd 0 1087 0).wellFormed = true := by decide
theorem test_wf_array : (Instr.sharerAccess 0 ⟨3, noHopErr⟩).wellFormed = false ∧ (Instr.sharerAccess 0 ⟨2, noHopErr⟩).wellFormed = true := by decide
theorem test_wf_handle : (Instr.comparePoint 65535 .gun).wellFormed = false ∧ (Instr.comparePoint 65534 .gun).wellFormed = true := by decide
theorem test_wf_sample_point : (Instr.comparePoint 0 (.k 0)).wellFormed = false ∧ (Instr.comparePoint 0 (.k 9)).wellFormed = false ∧
    (Instr.comparePoint 0 (.k 8)).wellFormed = true := by decide
theorem test_wf_router : (Instr.relayHop (.squad 64) ⟨0, []⟩).wellFormed = false ∧ (Instr.relayHop (.field 8) ⟨0, []⟩).wellFormed = false ∧
    (Instr.relayHop (.ring 8) ⟨0, []⟩).wellFormed = false ∧ (Instr.relayHop (.squad 63) ⟨20, []⟩).wellFormed = true := by decide
theorem test_wf_router_input : (Instr.relayHop (.squad 0) ⟨21, []⟩).wellFormed = false ∧ (Instr.relayHop (.field 0) ⟨40, []⟩).wellFormed = false ∧
    (Instr.relayHop (.ring 0) ⟨16, []⟩).wellFormed = false ∧ (Instr.relayHop (.ring 7) ⟨15, []⟩).wellFormed = true := by decide
theorem test_wf_channel : (Instr.mbxPostArrive 65).wellFormed = false ∧ (Instr.mbxPostArrive 64).wellFormed = true := by decide
theorem test_wf_message_word : (Instr.mbxFabricRead 0 0 16 0).wellFormed = false ∧ (Instr.mbxFabricRead 0 0 15 0).wellFormed = true := by decide
theorem test_wf_controller : (Instr.qdrApar ⟨4, []⟩).wellFormed = false ∧ (Instr.qdrApar ⟨3, []⟩).wellFormed = true := by decide
theorem test_wf_engine : (Instr.streamRodIssue 8).wellFormed = false ∧ (Instr.streamRodIssue 7).wellFormed = true := by decide
theorem test_wf_fabric_length : (Instr.fabricRequest ⟨0, 0, 0, false, [], true⟩).wellFormed = false ∧
    (Instr.fabricRequest ⟨0, 0, 1, false, [], true⟩).wellFormed = true := by decide
theorem test_wf_fabric_data : (Instr.fabricRequest ⟨0, 0, 2, true, [0], true⟩).wellFormed = false ∧
    (Instr.fabricRequest ⟨0, 0, 2, true, [0, 0], true⟩).wellFormed = true := by decide
theorem test_wf_target : (Instr.fabricGrant 23 ⟨noHopErr, false⟩).wellFormed = false ∧ (Instr.fabricGrant 22 ⟨noHopErr, false⟩).wellFormed = true := by decide

/-- An entry of submission queue `q` with HANDLE `h`, PARAM bytes `par` and a host buffer of `n` bytes. -/
def sqe (q : Nat) (h : BitVec 16) (par : List Byte) (n : Word) (b : HostBuf) : Sqe :=
  ⟨q, 0, 7, h, 0, if n = 0 then 0 else 0x1000, n, 0, (par ++ List.replicate 40 0).take 40, b⟩
def noBuf : HostBuf := ⟨none, false, [], []⟩

theorem test_wf_queue : (Instr.identify (sqe 4 0 [] 0 noBuf)).wellFormed = false ∧ (Instr.identify (sqe 3 0 [] 0 noBuf)).wellFormed = true := by decide
theorem test_wf_param : (Instr.identify { sqe 0 0 [] 0 noBuf with param := [] }).wellFormed = false := by decide
theorem test_wf_seat : (Instr.seatClearDone 1024).wellFormed = false ∧ (Instr.seatClearDone 1023).wellFormed = true := by decide
theorem test_wf_port : (Instr.kaongLock 16).wellFormed = false ∧ (Instr.kaongLock 15).wellFormed = true := by decide
theorem test_wf_record : (Instr.ingestStatusRod 0 8).wellFormed = false ∧ (Instr.ingestStatusRod 0 7).wellFormed = true := by decide
theorem test_wf_doorbell : (Instr.sqTail 4 0).wellFormed = false ∧ (Instr.sqTail 3 0).wellFormed = true := by decide
theorem test_wf_ring : (Instr.ringEnable 9 0).wellFormed = false ∧ (Instr.ringEnable 8 0).wellFormed = true := by decide
theorem test_wf_field : (Instr.repairSweep ⟨8, noHopErr⟩).wellFormed = false ∧ (Instr.repairSweep ⟨7, noHopErr⟩).wellFormed = true := by decide
theorem test_wf_tamper : (Instr.secTamper 6).wellFormed = false ∧ (Instr.secTamper 5).wellFormed = true := by decide
theorem test_wf_domain : (Instr.pwrDomainOn 20).wellFormed = false ∧ (Instr.pwrDomainOn 19).wellFormed = true := by decide
theorem test_wf_clock : (Instr.clkFail (.qdr 4)).wellFormed = false ∧ (Instr.clkFail (.serdes 2)).wellFormed = false ∧
    (Instr.clkFail (.qdr 3)).wellFormed = true := by decide
theorem test_wf_steward : (Instr.wdtExpired 4).wellFormed = false ∧ (Instr.wdtExpired 3).wellFormed = true := by decide
theorem test_wf_sensor : (Instr.thermalTrip 12).wellFormed = false ∧ (Instr.thermalTrip 11).wellFormed = true := by decide
theorem test_wf_timer : (Instr.tmrCompare 4).wellFormed = false ∧ (Instr.tmrCompare 3).wellFormed = true := by decide
theorem test_wf_sync_port : (Instr.ptpSync ⟨16, 0, 0⟩ 0).wellFormed = false ∧ (Instr.ptpSync ⟨15, 0, 0⟩ 0).wellFormed = true := by decide
theorem test_wf_vector : (Instr.msixUnmask 64).wellFormed = false ∧ (Instr.msixUnmask 63).wellFormed = true := by decide

/-! ### States that the conditions of the statements meet -/

/-- The device out of device reset. -/
def up : State := { State.reset with pwr := { pwrReset with inReset := false, clk := 0x703 } }
/-- A running lane with every permission over the whole address space. -/
def runner : Lane := { laneReset0 with mode := .run, fcap := rootCap 0x10000, c := [(0, rootCap 0)], ctl := { ctlReset with pc := 0x10000 } }
/-- Lane 5 of that device is `f` of the running lane. -/
def lan (f : Lane → Lane) : State := up.setLane 5 (f runner)
/-- Some answer is a next state. -/
def isNext : Answer → Bool
  | .next _ => true
  | _ => false

theorem test_meets_front_command : (∃ s : State, s.pending = [] ∧ s.pwr.inReset = false) ∧ State.reset.pwr.inReset = true := ⟨⟨up, rfl, rfl⟩, rfl⟩
theorem test_meets_reset_lanes : (5 < 1088) ∧ (1088 ≤ 1091 ∧ 1091 < 1092) := by decide
theorem test_meets_fuses : let s := { State.reset with sec := { secReset with ownerHash := 1, lcFuse := 1 } }
    (∃ t, step s = .next t) ∧ s.sec.ownerHash.getLsbD 0 = true ∧ s.sec.lcFuse.getLsbD 0 = true := ⟨⟨_, rfl⟩, by decide, by decide⟩
theorem test_meets_still : State.reset.stillInReset ∧ ∃ t, step State.reset = .next t :=
  ⟨fun _ => ⟨rfl, rfl, rfl, rfl, rfl, rfl, rfl, rfl⟩, ⟨_, rfl⟩⟩
theorem test_meets_device_reset : runsInReset .gun = false ∧ State.reset.pwr.inReset = true := by decide
theorem test_meets_clock : movesClock (.aluAdd 0 false 0) = false := by decide
theorem test_meets_gun : ({ up with pacer := { pacerReset with state := .internal, run := true, firstGun := some 0 } }).pacer.gunDue 0 = true ∧
    up.pacer.gunDue 0 = false ∧ up.pwr.inReset = false := by decide

/-! ### Lane commands -/

theorem test_meets_acts : ∀ d ∈ [0x21, 0x2F, 0x31, 0x3F, 0x41, 0x43, 0x4A, 0x4E, 0x52, 0x55, 0x56, 0x57, 0x5C, 0x5D, 0x5E, 0x5F, 0x60, 0x61, 0x62,
    0x64, 0x65, 0x66, 0x67, 0x68, 0x69, 0x6A, 0x70, 0x71, 0x76, 0x78, 0x7B, 0x7C, 0x7D, 0x7F], (lan id).Acts 5 d := by
  unfold State.Acts; decide
theorem test_meets_fpu : ∀ k ∈ [0, 1, 2, 3, 4], fpuIllegal ((lan id).laneNow 5).u.fmode k = false := by decide
theorem test_meets_mac : macIllegal ((lan id).laneNow 5).u.macmode = false := by decide
theorem test_meets_settle : runner.flight = [] ∧ (∀ b, ((lan id).lane 5).ctl.bnd = some b → (lan id).now < b) ∧ runner.rly.moves = [] ∧ ((lan id).lane 5).lsu.force = [] ∧ ((lan id).lane 5).trap.due = none ∧
    ((lan id).lane 5).trap.ret = none ∧ ((lan id).lane 5).trap.push = none := by decide
/-- A lane with one return address on its stack. -/
def returner : Lane := { runner with ctl := { runner.ctl with rstk := [(0, 0x10000)], depth := 1 } }
theorem test_meets_transfer : let l := (lan fun _ => returner).laneNow 5
    l.ctl.xfer = none ∧ targetBad 5 l 0x13FFC = false ∧ ¬ (16 ≤ l.ctl.depth ∧ l.cfg.getLsbD 0 = true) ∧ targetBad 5 l l.popped = false ∧
    ¬ (l.ctl.depth = 0 ∧ l.cfg.getLsbD 1 = true) := by decide
/-- A lane whose CAP unit has source c1 at position 16, authority c0 at position 5, and operand `o`. -/
def caps (ot : BitVec 8) (o : Word) : Lane :=
  { runner with c := [(0, rootCap 5), (1, { rootCap 16 with otype := ot })], u := { runner.u with capsel := 0x021, capo := o } }
theorem test_meets_cap : capCs (caps 0 16) ≤ 8 ∧ (csCap (caps 0 16)).otype = 0 ∧ (csCap (caps 0 16)).base.toNat ≤ (csCap (caps 0 16)).pos.toNat ∧
    (csCap (caps 0 16)).pos.toNat + (caps 0 16).u.capo.toNat ≤ (csCap (caps 0 16)).top ∧
    ¬ ((csCap (caps 0 16)).pos = 0 ∧ (caps 0 16).u.capo = 0) ∧ sealCheck (caps 0 16) false = none ∧ sealCheck (caps 5 16) true = none ∧
    (caps 0 16).u.capo.extractLsb' 0 4 = 0 ∧ (caps 0 16).fcap.perm permSYS = true := by decide
theorem test_meets_no_gain : ∀ t ∈ [0x8, 0x9, 0xA, 0xB, 0xC, 0xD, 0xE], capCheck (caps 0 16) (BitVec.ofNat 32 t) = none ∧ t % 32 ≠ 0x11 ∧
    (capResult (caps 0 16) t).isSome = true := by decide
/-- A lane whose next access has its effective address at `a`. -/
def access (a : Word) : Lane := { runner with u := { runner.u with base := a } }
theorem test_meets_access : (∀ k ∈ [0, 1, 2, 3, 4, 5], lsuCheck (access 0xFFE0) k 0 = none) ∧
    buffered (lsuEa ((lan fun _ => access 0xFFE0).laneNow 5).u 0).1.toNat = true ∧ (lan fun _ => access 0xFFE0).Acts 5 0x5C := by
  refine ⟨by decide, by decide, ?_⟩
  unfold State.Acts; decide
theorem test_meets_store : lsuHold (access 0xFFE0) 1 0 = none ∧ buffered (lsuEa (access 0xFFE0).u 0).1.toNat = true ∧
    lsuHold (access 0xFFE0) 5 0 = none ∧ lsuHold { access 0xFFE0 with lsu := { lsuReset with rsv := some 0xFFE0 } } 3 0 = none ∧
    some 0xFFE0 = some ((lsuEa (access 0xFFE0).u 0).1.toNat / 32 * 32) ∧
    (access 0xFFE0).lsu.rsv ≠ some ((lsuEa (access 0xFFE0).u 0).1.toNat / 32 * 32) := by decide
theorem test_meets_system_access : ∀ k ∈ [0, 1], lsuCheck (access 0x18FFC) k 0 = none ∧ regionOf (lsuEa (access 0x18FFC).u 0).1.toNat = .sysblk ∧
    lsuCheck (access 0x14000) k 0 = none ∧ regionOf (lsuEa (access 0x14000).u 0).1.toNat = .unmapped := by decide
/-- A lane whose authority capability is `c`. -/
def authority (c : Cap) : Lane := { access 0x40 with c := [(0, c)] }
theorem test_meets_access_checks : (authority nullCap).u.lmode.extractLsb' 0 2 ≠ 3 ∧ ((authority nullCap).cReg 0).tag = false ∧
    (((authority { rootCap 0 with otype := 1 }).cReg 0).tag = true ∧ ((authority { rootCap 0 with otype := 1 }).cReg 0).otype ≠ 0) ∧
    lsuPerm (authority { rootCap 0 with perms := 0 }) 0 0x40 { rootCap 0 with perms := 0 } = false ∧
    lsuPerm (authority (rootCap 0)) 5 0x40 (rootCap 0) = true := by decide
/-- A lane that has selected system register `i`. -/
def selects (i : BitVec 12) (f : Cap) : Lane := { runner with u := { runner.u with syssel := i }, fcap := f }
theorem test_meets_system_write : needsSys ((lan fun _ => selects 0x40 nullCap).laneNow 5).u.syssel = true ∧
    ((lan fun _ => selects 0x40 nullCap).laneNow 5).fcap.perm permSYS = false ∧ ((lan fun _ => selects 0x40 nullCap).laneNow 5).trap.load8 = none ∧
    ((lan fun _ => selects 0xFF (rootCap 0)).laneNow 5).fcap.perm permSYS = true ∧ needsSys 0x100 = false ∧
    ((lan fun _ => selects 0x40 nullCap).laneNow 5).stopped = false := by decide
theorem test_meets_no_transport : ((lan fun l => { l with mode := .idle }).laneNow 5).mode ≠ .run ∧
    ((lan fun l => { l with trap := { l.trap with due := some ⟨4, 0, 0, 0, 0, false, 0, 9, none⟩ } }).laneNow 5).trap.due.isSome = true := by decide
/-- Lane 5 at an instruction that it can transport: the word 0 of a blank instruction store. -/
def ready : State := { lan id with now := 50 }
theorem test_meets_transport : let u := ready.settle 5
    (u.lane 5).mode = .run ∧ (u.lane 5).trap.due = none ∧ (u.lane 5).ctl.bnd = none ∧ (u.lane 5).trap.load8 = none ∧ (u.lane 5).ctl.rep = none ∧
    (match fetchInsn u 5 (u.lane 5) with
      | .inr i => decide ((u.lane 5).earliest i.len ≤ u.now) && !wordBad (u.lane 5) i && i.rep.isNone &&
          (match u.plan 5 i.moves with | .go _ _ => true | _ => false)
      | .inl _ => false) = true := by decide +kernel
/-- Lane 5 at a move of 5 to register 3, with word 0x0070_0005 at 0x10000 (R74). -/
def moving : State := { (lan id).rodWrite 5 0x10000 (leBytes 0x700005 4 ++ List.replicate 28 0) 0 false with now := 50 }
theorem test_meets_immediate : let u := moving.settle 5
    (u.lane 5).mode = .run ∧ (u.lane 5).ctl.xfer = none ∧ (u.lane 5).ctl.after = none ∧ (u.lane 5).rly.moves = [] ∧ (u.lane 5).ctl.rep = none ∧
    fetchInsn u 5 (u.lane 5) = .inr ⟨1, [⟨3, .imm 5, none⟩], none, false⟩ ∧ (u.lane 5).earliest 1 ≤ u.now ∧ (u.stewFetch 5 1).2 = true ∧
    ((u.stewFetch 5 1).1.lane 5).interlocked (u.stewFetch 5 1).1.now [⟨3, .imm 5, none⟩] = false := by decide +kernel
/-- Lane 5 in a repetition of the word 0. -/
def repeating : State := { lan (fun l => { l with ctl := { l.ctl with rep := some ⟨0x10000, 0, none, none, false, 0x10004⟩, rc := 3 } }) with now := 50 }
theorem test_meets_repetition : let u := repeating.settle 5
    (u.lane 5).mode = .run ∧ (u.lane 5).ctl.bnd = none ∧ (u.lane 5).ctl.ready + 1 ≤ u.now ∧ (u.lane 5).ctl.stallUntil ≤ u.now ∧
    (match (u.lane 5).ctl.rep with
      | some r => (match u.plan 5 r.moves with | .go _ _ => true | _ => false)
      | none => false) = true := by decide
theorem test_meets_repeated_move : let r : Rep := ⟨0x10000, 0x700005, none, none, false, 0x10004⟩
    r.moves = [⟨3, .imm 5, none⟩] ∧ 1 < 2 ∧ 1 ≤ 1 := by decide
/-- The checks of a lane with a result that became readable in this cycle, and without. -/
theorem test_meets_self_check : let l := (lan fun l => { l with ctl := { l.ctl with shownAt := 1 } }).laneNow 5
    l.mode ≠ .held ∧ l.mode ≠ .fenced ∧ l.ctl.shownAt = ((lan id).settle 5).now + 1 ∧ ((lan id).laneNow 5).ctl.shownAt ≠ ((lan id).settle 5).now + 1 ∧
    ((lan fun l => { l with mode := .held }).laneNow 5).mode = .held ∧ ({ runner with spl := { runner.spl with schkTrap := true } } : Lane).spl.schkTrap = true := by
  decide
theorem test_meets_move : (31 < 32) ∧ ((lan id).lane 5).ctl.xfer = none ∧ ((lan id).lane 5).rly.moves = [] := by decide
theorem test_meets_trap_trigger : ((lan id).laneNow 5).ctl.xfer = none ∧ ((lan id).laneNow 5).trap.load8 = none ∧ 64 ≤ (64 : Word).toNat ∧
    (255 : Word).toNat ≤ 255 ∧ (63 : Word).toNat < 64 ∧ 255 < (256 : Word).toNat := by decide
theorem test_meets_reserved_mode : ((lan id).laneNow 5).stopped = false ∧ fpuIllegal 3 0 = true ∧ fpuIllegal 3 1 = true ∧ fpuIllegal 3 2 = true ∧
    fpuIllegal 0xFFFFFFFF 3 = true ∧ fpuIllegal 3 4 = true ∧ macIllegal 3 = true := by decide

/-- A trap descriptor: code at 0x10000, a stack up to 0xFC00 and FLAGS.V (R181). -/
def descCode : Cap := rootCap 0x10000
def descStack : Cap := rootCap 0xFC00
/-- Lane 5 with trap 65 due and its wait over; descriptor 65 stands in home memory behind the TDT. -/
def entering : State :=
  let s := { lan (fun l => { l with
      tdt := { rootCap 0 with limit := 0x2000 }
      trap := { l.trap with due := some ⟨65, 0, 0, 0, 0x10000, false, 0, 10, some (1, 0, 0)⟩ } }) with now := 11 }
  let s := s.rodWrite 5 (64 * 65) (descCode.bytes ++ nullCap.bytes) 1 false
  s.rodWrite 5 (64 * 65 + 32) (descStack.bytes ++ leBytes 0 4 ++ leBytes 0x80000000 4 ++ List.replicate 8 0) 1 false
theorem test_meets_trap_entry : let q : TrapReq := ⟨65, 0, 0, 0, 0x10000, false, 0, 10, some (1, 0, 0)⟩
    (entering.laneNow 5).trap.due = some q ∧ q.b + 1 ≤ (entering.settle 5).now ∧ q.n ≠ 0 ∧
    (readDesc ((entering.settle 5).entryStart 5 q) 5 q.n).1.1 = 0 ∧
    (readDesc ((entering.settle 5).entryStart 5 q) 5 q.n).1.2.isSome = true := by decide +kernel
theorem test_meets_trap_return : let s := lan fun l => { l with c := [(7, rootCap 0xFF80)] }
    (s.laneNow 5).ctl.xfer = none ∧ retCheck (s.laneNow 5) = none := by decide
theorem test_meets_restore : (leWordAt (List.replicate 24 0 ++ leBytes 0x80000003 4 ++ leBytes 0 4) 24).getLsbD 31 = true := by decide
theorem test_meets_fence : let s := lan fun l => { l with mode := .fenced, trap := { l.trap with fence := some [0, 1, 2, 3, 4, 5, 6, 7] } }
    (s.lane 5).trap.fence = some [0, 1, 2, 3, 4, 5, 6, 7] ∧ (s.lane 5).trap.fenceAt ≤ s.now ∧ s.fenceTurn 5 = true := by decide
/-- Lane 5 with one full entry in its store buffer, eligible in cycle 4. -/
def buffer (now drained : Nat) : State := { lan (fun l => { l with lsu := { l.lsu with
  sb := [⟨0xFFE0, 0xFFFFFFFF, 0, none, none, 3, some 4, false⟩], drainAt := drained } }) with now := now }
theorem test_meets_drain : (((buffer 9 10).settleBuf 5).lane 5).lsu.drainAt = ((buffer 9 10).settleBuf 5).now + 1 ∧
    (((buffer 3 0).settleBuf 5).lane 5).lsu.drainAt ≠ ((buffer 3 0).settleBuf 5).now + 1 ∧ drainPick ((buffer 3 0).settleBuf 5) 5 = none ∧
    (((buffer 9 0).settleBuf 5).lane 5).lsu.drainAt ≠ ((buffer 9 0).settleBuf 5).now + 1 ∧ drainPick ((buffer 9 0).settleBuf 5) 5 = some 0 ∧
    (((buffer 9 0).lane 5).lsu.sb[0]?.map SbEntry.full) = some true := by decide
/-- Lane 5 waits for transaction 8 of the fabric, with and without its answer. -/
def remote (d : List FResp) : State :=
  let s := lan fun l => { l with mode := .remote, lsu := { l.lsu with remote := some ⟨false, 0x20000000, 4, false, [8], [], [], 0⟩ } }
  { s with fab := { s.fab with done := d } }
theorem test_meets_remote : ((remote []).laneNow 5).mode = .remote ∧
    ((remote []).laneNow 5).lsu.remote = some ⟨false, 0x20000000, 4, false, [8], [], [], 0⟩ ∧
    ([8].filterMap (fun i => ((remote []).settle 5).fab.done.find? (fun r => decide (r.id = i)))).length < 1 ∧
    ([8].filterMap (fun i => ((remote [⟨8, 5, 0, 0x20000000, false, 0, [1, 2, 3, 4]⟩]).settle 5).fab.done.find? (fun r => decide (r.id = i)))).length = 1 := by decide
/-- Steward lane 1088 waits for the last rod of a load of steward memory. -/
def portA : State := up.setLane 1088 { runner with mode := .remote, lsu := { lsuReset with remote := some ⟨false, 0x40000020, 4, false, [], [], [(1, 0, 4)], 0⟩ } }
theorem test_meets_port_a : let u := portA.settle 1088
    (portA.laneNow 1088).mode = .remote ∧ (portA.laneNow 1088).lsu.remote = some ⟨false, 0x40000020, 4, false, [], [], [(1, 0, 4)], 0⟩ ∧
    u.sm.retry = [] ∧ u.portAFree 1 false = true ∧ collides u.sm.lastB u.now 1 false = false := by decide

/-! ### Relay and mailboxes -/

theorem test_meets_send : (lan id).Acts 5 0x78 ∧ ((lan id).laneNow 5).fcap.perm permRLY = true ∧ isStw 5 = false ∧
    ((up.setLane 1088 runner).laneNow 1088).fcap.perm permRLY = true ∧ isStw 1088 = true ∧
    ((lan fun l => { l with fcap := nullCap }).laneNow 5).fcap.perm permRLY = false ∧
    ((lan fun l => { l with fcap := nullCap }).laneNow 5).trap.load8 = none := by unfold State.Acts; decide
theorem test_meets_queue : ((lan fun l => { l with rly := { l.rly with rx := [3, 4] } }).laneNow 5).rly.rx = 3 :: [4] ∧
    ((lan id).laneNow 5).rly.rx = [] ∧ ((lan id).laneNow 5).fcap.perm permSYS = true ∧ ((lan id).laneNow 5).stopped = false := by decide
/-- A card and a contract with nothing in them. -/
def card0 : Card :=
  { paired := false, inSig := false, outSig := false, cardId := 1, replaces := 0, heatLen := 125000, seats := [], images := [], start := [], relay := [],
    streams := [], mcast := [], ingest := [], egress := [], win := ⟨0, 0, 0, []⟩, teams := [], cert := ⟨[], [], [], 0, []⟩ }
def con0 : Contract :=
  { handle := 3, state := .active, card := card0, startGun := 0, pendW := none, replaced := none, brkCause := 0, brkSeat := 0, flagged := 0, disputed := 0,
    overruns := 0, unsync := false, keySlot := 0, swapped := 0, sampled := [], sel := [], selPrev := [], seeded := false, banksAt := 0 }
/-- The device in cycle `c` of an open heat. -/
def inHeat (c : Nat) : State := { up with pacer := { pacerReset with run := true, state := .internal, open_ := true, elapsed := c } }
/-- A word of lane 5 at its squad router, whose output 6 takes it in the working part of the heat when `on`. -/
def hop (on : Bool) (w : RWord) : State :=
  let s := (inHeat 10).setRout (.squad 0) 6 { routReset with owner := if on then 3 else 0xFFFF, bank0 := [(0, 0x8005)], dir0 := [(0, 0xC000000000000000)] }
  { s with relay := { s.relay with words := [w] } }
def sent : RWord := ⟨.atRouter (.squad 0) 5, 0, 1, 7, false, some 5, none, false⟩
def passed : RWord := ⟨.atRouter (.squad 0) 5, 0, 1, 7, false, none, some (.field 0), false⟩
def outsOf (s : State) : List (Nat × BitVec 16) := (List.range (nOuts (.squad 0))).filterMap (fun n => (takes s (.squad 0) n 5).map (fun e => (n, e)))
theorem test_meets_hop : (hop true sent).relay.words.find? (atInput 0 (.squad 0) 5) = some sent ∧ outsOf (hop true sent) ≠ [] ∧
    outsOf (hop false sent) = [] ∧ sent.src = some 5 ∧ outsOf (hop false passed) = [] ∧ passed.src = none ∧ passed.prev = some (.field 0) ∧
    passed.taken = false := by decide +kernel
theorem test_meets_correction : (31 < 32) ∧ rlyDecode 1 7 = (1, 7, false, false) := by decide +kernel
/-- Lane 5 in mode `m` with a relay word due. -/
def arriving (m : Mode) (c : BitVec 7) (poison : Bool) : State :=
  let s := lan fun l => { l with mode := m }
  { s with relay := { s.relay with words := [⟨.atLane 5 false 0, 0, 1, c, poison, none, none, false⟩] } }
theorem test_meets_arrival :
    ((arriving .run 7 false).relay.words.find? (fun w => (match w.loc with | .atLane q _ _ => decide (q = 5) | _ => false) && decide (w.due ≤ 0))).isSome = true ∧
    (((arriving .held 7 false).settleBuf 5).lane 5).mode = .held ∧ (((arriving .fenced 7 false).settleBuf 5).lane 5).mode = .fenced ∧
    (((arriving .run 7 true).settleBuf 5).lane 5).mode ≠ .held ∧ (((arriving .run 7 false).settleBuf 5).lane 5).mode ≠ .fenced ∧
    (rlyDecode 1 4).2.2.2 = true ∧ (rlyDecode 1 7).2.2.2 = false := by decide +kernel
/-- Channel 2 from seat 4 to the host, or the other way, before lane 5, which holds seat 4. -/
def mail (sends lock : Bool) (f : Chan → Chan) (m : Mode) : State :=
  let s := lan fun l => { l with mode := m, master := 4, u := { l.u with mbxsel := 2 } }
  { s with mail := { s.mail with lock := lock, chans := [(2, f { chanReset with
      bindV := true, sender := if sends then 4 else 0x420, receiver := if sends then 0x420 else 4 })] } }
theorem test_meets_post : ((mail true true id .run).laneNow 5).fcap.perm permMBX = true ∧ (mail true true id .run).Acts 5 0x7B ∧
    (mail true true id .run).Acts 5 0x7C ∧ ((lan id).settle 5).isSender 5 0 = false ∧
    ((mail true true id .run).settle 5).isSender 5 2 = true ∧ ((mail true true id .run).settle 5).drives 5 2 = true ∧
    chanNo ((mail true true id .run).laneNow 5) = 2 ∧ refuses ((mail true true id .run).settle 5) false = false ∧
    refuses ((mail true false id .run).settle 5) false = true ∧ ¬ (8 ≤ 7 ∧ 7 ≤ 16) ∧ 8 ≤ 16 := by unfold State.Acts; decide
/-- A post or a release on the path of channel 2. -/
def path (k : MKind) (full : Bool) : State :=
  let s := mail true true (fun c => { c with full := full }) .run
  { s with mail := { s.mail with path := [⟨2, 0, k⟩] } }
theorem test_meets_delivery : (path (.wr 0 9) false).mail.path = [⟨2, 0, .wr 0 9⟩] ∧ ((path (.wr 0 9) false).chan 2).discardTo ≤ 0 ∧
    ((path (.wr 0 9) false).chan 2).full = false ∧ ((path (.go 8 0) true).chan 2).full = true ∧
    (path (.go 8 0) true).mail.path = [⟨2, 0, .go 8 0⟩] ∧ (path .release true).mail.path = [⟨2, 0, .release⟩] ∧
    (path .viewClear true).mail.path = [⟨2, 0, .viewClear⟩] := by decide
theorem test_meets_receive : let s := mail false true (fun c => { c with rFull := true, len := 1 }) .run
    ((lan id).settle 5).isReceiver 5 0 = false ∧ (s.settle 5).isReceiver 5 2 = true ∧ ((s.settle 5).chan 2).rFull = true ∧
    chanWord (s.laneNow 5) + 1 = ((s.settle 5).chan 2).len ∧ (((mail false true id .run).settle 5).chan 2).rFull = false ∧
    (s.laneNow 5).stopped = false ∧ (s.laneNow 5).fcap.perm permMBX = true := by decide
theorem test_meets_wait : (mail false true id .run).Acts 5 0x7D ∧ ((mail false true id .mbxWait).laneNow 5).mode = .mbxWait ∧
    (((mail false true (fun c => { c with rFull := true }) .mbxWait).settle 5).chan 2).rFull = true ∧
    (((mail false true id .mbxWait).settle 5).chan 2).rFull = false ∧ ((mail false true id .run).laneNow 5).fcap.perm permMBX = true ∧
    ((mail false true id .run).settle 5).isReceiver 5 2 = true ∧ ((mail true true id .run).settle 5).isReceiver 5 2 = false := by unfold State.Acts; decide
theorem test_meets_fabric_mail : let s := mail true true id .run
    let r := mail true true (fun c => { c with full := true, len := 8 }) .run
    (2 < 64) ∧ (up.chan 0).bindV = false ∧ (s.chan 2).bindV = true ∧ s.masterIs 4 (s.chan 2).sender.toNat = true ∧ s.mail.lock = true ∧ (s.chan 2).full = false ∧
    r.masterIs 0x420 (r.chan 2).receiver.toNat = true ∧ (r.chan 2).full = true ∧ 7 + 1 = (r.chan 2).len ∧ (6 + 1 ≠ (r.chan 2).len) := by decide
theorem test_meets_binding : isStwMaster 0x404 = true ∧ isStwMaster 0x420 = false ∧ (mail true true id .run).mail.lock = true ∧ up.mail.lock = false ∧
    (0x80010002 : Word).getLsbD 31 = true ∧ bindBad up 2 1 2 = false ∧ (1 : Word).getLsbD 0 = true := by decide

/-! ### Memories, pacer, QDR, streams and fabric -/

theorem test_meets_scrub : let s := inHeat 121250
    up.scrubOpen 5 = false ∧ s.scrubOpen 5 = true ∧ (s.lmem 5).cmd = none ∧
    (s.setLmem 5 { s.lmem 5 with cmd := some (0, 1023) }).scrubOpen 5 = true ∧
    ((s.setLmem 5 { s.lmem 5 with cmd := some (0, 1023) }).lmem 5).cmd.isSome = true := by decide
theorem test_meets_mem_cmd : isStwMaster 0x400 = true ∧ (0xC00001FF : Word).getLsbD 31 = true ∧ ((0xC00001FF : Word).extractLsb' 29 2).toNat < 3 ∧
    ((0xC00001FF : Word).extractLsb' 0 10).toNat < arrRows 2 ∧ arrRows 2 ≤ ((0xC0000200 : Word).extractLsb' 0 10).toNat ∧
    3 ≤ ((0xE0000000 : Word).extractLsb' 29 2).toNat ∧ isStwMaster 0x405 = false := by decide
/-- A sharer's write waits at bank 0 of lane 5, whose array is used in the cycles `b`. -/
def sharing (b : List Nat) (l : List ShReq) : State := up.setLmem 5 { up.lmem 5 with p0 := ⟨l, [], b, []⟩ }
theorem test_meets_sharer : ((sharing [0] []).settle 5).shareIdle 5 0 = false ∧ ((sharing [] []).settle 5).shareIdle 5 0 = true ∧
    ((((sharing [] []).settle 5).lmem 5).sp 0).pend = [] ∧
    ((((sharing [] [⟨3, 0, none, none, .readFab 1, none⟩]).settle 5).lmem 5).sp 0).pend = [⟨3, 0, none, none, .readFab 1, none⟩] ∧
    ((sharing [] [⟨3, 0, none, none, .readFab 1, none⟩]).settle 5).shareIdle 5 0 = true ∧
    ((sharing [] []).settle 5).inOrder ⟨3, 0, none, none, .readFab 1, none⟩ = true ∧ ((((sharing [] []).settle 5).lmem 5).sp 0).ingest = [] ∧
    ((((sharing [] [⟨4, 0, none, none, .write 7 fullMask none false, none⟩]).settle 5).lmem 5).sp 0).pend =
      [⟨4, 0, none, none, .write 7 fullMask none false, none⟩] ∧
    (((sharing [] []).settle 5).lane 5).mode ≠ .held ∧ (((sharing [] []).settle 5).lane 5).lsu.scUndo = none := by decide
theorem test_meets_steward_memory : let q : SmReq := ⟨true, 0, false, [], [], 1088, false, 5⟩
    let s := { up with sm := { up.sm with retry := [q] }, now := 6 }
    let f : FRod := ⟨1088, 0x400, 16, 0, 4, false, [], 0, false, false⟩
    let b := { s with sm := { s.sm with retry := [{ q with portA := false }] }, fab := { s.fab with bridge := [f] } }
    up.sm.retry = [] ∧ s.sm.retry = [q] ∧ ({ s with now := 5 } : State).now ≤ q.at_ ∧ q.at_ < s.now ∧ q.portA = true ∧ s.portAFree 0 q.write = true ∧
    b.sm.retry = [{ q with portA := false }] ∧ s.sm.scrubNow s.now = false ∧ usedAt s.sm.lastB s.now = false ∧ q.write = false ∧ b.fab.bridge = [f] ∧
    f.id = q.who ∧ f.drop = false ∧ s.now < s.sm.scrubAt ∧ usedAt s.sm.lastA s.now = false ∧ s.sm.scrubAt ≤ ({ s with now := 1024 } : State).now ∧
    usedAt (some ⟨6, 0, false, []⟩) s.now = true := by decide
/-- The pacer following TICK_IN in state `st`, in cycle `c` of a heat. -/
def ticking (st : PState) (c : Nat) : Pacer := { pacerReset with run := true, src := 1, state := st, open_ := true, elapsed := c }
theorem test_meets_edges : (ticking .locked 124952).state ≠ .stopped ∧ (ticking .locked 124952).inputs ≠ 2 ∧ (ticking .locked 124952).inputs ≠ 1 ∧
    ((ticking .locked 124952).edgeOfs 0).natAbs ≤ 16 * (ticking .locked 124952).tickWin ∧ (ticking .locked 124952).edgeA = none ∧
    (ticking .locked 124952).edgeB = none ∧ 16 * (ticking .locked 0).tickWin < ((ticking .locked 0).edgeOfs 0).natAbs ∧
    ({ ticking .locked 0 with edgeA := some 0 } : Pacer).edgeA.isSome = true ∧ pacerReset.src ≠ 1 := by decide
theorem test_meets_sync : let p : Pacer := { ticking .locked 0 with src := 2 }
    let s := { up with pacer := p }.setPort 0 { portReset with mode := 1 }
    s.ptpHears ⟨0, 0, 5⟩ = true ∧ s.ptpHears ⟨0, 1, 5⟩ = false ∧ up.ptpHears ⟨0, 0, 5⟩ = false ∧ p.open_ = true ∧ p.firstGun = none ∧
    (ticking .locked 0).src ≠ 2 ∧ (ticking .locked 0).rephase = none ∧ (ticking .locked 0).refAt = none ∧ (ticking .locked 0).firstGun = none ∧
    0 < p.heatLen := by decide
theorem test_meets_ptp : let p : Pacer := { ticking .locked 0 with src := 2 }
    p.src = 2 ∧ p.state ≠ .stopped ∧ (p.ptpCfg.extractLsb' 4 4).toNat ≤ 3 ∧ (p.state = .acquire ∨ p.state = .locked) := by decide
theorem test_meets_pacer_writes : isStwMaster 0x404 = true ∧ isStwMaster 0x405 = false ∧ pacerReset.run = false ∧ (ticking .locked 0).run = true ∧
    ({ up with pacer := ticking .locked 0, con := [con0] } : State).anyRunning = true ∧
    ({ up with pacer := ticking .locked 0 } : State).anyRunning = false ∧ ({ up with pacer := ticking .locked 0 } : State).anyLive = false ∧
    (ticking .locked 0).state ≠ .stopped ∧ (ticking .locked 0).state ≠ .internal := by decide
theorem test_meets_pacer_states : 16 ≤ ({ ticking .acquire 0 with lockRun := 16 } : Pacer).lockRun ∧ ¬ 16 ≤ ({ ticking .acquire 0 with lockRun := 15 } : Pacer).lockRun ∧
    4 ≤ ({ ticking .locked 0 with unlockRun := 4 } : Pacer).unlockRun ∧ 4 ≤ ({ ticking .freerun 0 with validRun := 4 } : Pacer).validRun ∧
    ({ ticking .flywheel 0 with flyCnt := 256 } : Pacer).flyLimit ≤ 256 ∧ ¬ (ticking .flywheel 0).flyLimit ≤ (ticking .flywheel 0).flyCnt := by decide
theorem test_meets_circuits : pacerReset.single = false ∧ pacerReset.lastDis = none ∧ (1 : BitVec 64) ≠ 2 ∧
    ({ pacerReset with reload := some true } : Pacer).reload = some true ∧ (true ≠ false) ∧ (inHeat 0).pacer.run = true ∧
    (inHeat 125000).pacer.gunDue 0 = true ∧ (inHeat 122000).cooling = true ∧ up.cooling = false := by decide
/-- Channel 0 of QDR is `f` of its reset value, in cycle `c` of a heat. -/
def chan0 (c : Nat) (f : Qdr → Qdr) : State := (inHeat c).setQch 0 (f qdrReset)
def onReady (q : Qdr) : Qdr := { q with state := 2, present := true }
theorem test_meets_qdr_start : isStwMaster 0x420 = false ∧ up.chanUsed 0 = false ∧
    ({ up with con := [{ con0 with card := { card0 with streams := [⟨1, []⟩] } }] } : State).chanUsed 0 = true ∧
    ((chan0 0 fun q => { q with state := 1 }).qch 0).state = 1 ∧ initCanFail 2 = true ∧ initCanFail 9 = true ∧ (up.qch 0).state ≠ 3 := by decide
theorem test_meets_qdr_maintenance : let a : QAcc := ⟨0, 0, false, none, some (List.replicate 36 0), none, none⟩
    up.maintains 0 = false ∧ (chan0 121314 onReady).maintains 0 = true ∧
    (chan0 121314 onReady).coolCyc = 64 + ((chan0 121314 onReady).qch 0).used ∧
    ((chan0 121314 fun q => { onReady q with replay := [a] }).qch 0).replay ≠ [] ∧ ((chan0 121314 onReady).qch 0).used = 0 ∧
    ((chan0 121314 fun q => { onReady q with dueRetrain := true }).qch 0).dueRetrain = true ∧
    ((chan0 121314 onReady).qch 0).fits (chan0 121314 onReady).D 320 = true ∧ ((chan0 121314 onReady).qch 0).fits (chan0 121314 onReady).D 64 = true ∧
    ((chan0 121314 fun q => { onReady q with dueZq := true }).qch 0).dueZq = true ∧ ((chan0 121314 onReady).qch 0).scrubEn = true ∧
    ((chan0 121314 onReady).qch 0).scrubbed = false ∧ ((chan0 121314 onReady).qch 0).dueRetrain = false ∧
    ([⟨0, 0, 8⟩] : List EyeMeas).all (fun e => decide (8 ≤ e.eye)) = true := by decide
theorem test_meets_apar : (up.qch 0).state ≠ 2 ∧ ((chan0 0 onReady).qch 0).state = 2 ∧ ((chan0 0 onReady).qch 0).aparHeats < 3 := by decide
/-- A write of index 5 in the clock before a report of channel 0 is kept and can be found at index 6. -/
theorem test_meets_misdirected : let a : QAcc := ⟨3, 5, false, some (List.replicate 36 0), some (List.replicate 36 1), none, none⟩
    let s := { chan0 0 (fun q => { onReady q with recent := [a] }) with now := 5 }
    let c := s.qclock 0 s.now
    (([a].filter (fun a => decide (c ≤ a.clock + 16) && decide (a.clock < c))).filter (fun a => a.new.isSome)).reverse[0]? = some a ∧ a.idx ≠ 6 := by decide
/-- Engine 0 in cycle `c` of a heat, owned, with descriptor `d` next. -/
def engine0 (c : Nat) (d : BitVec 128) : State := (inHeat c).setEngine 0 { engReset with owner := 3, ended := false, bank0 := [(0, d)] }
def readDesc0 : BitVec 128 := 0x00000001000000000000000080000010
theorem test_meets_stream : (up.engine 0).owner = 0xFFFF ∧ ((engine0 16 readDesc0).engine 0).owner ≠ 0xFFFF ∧ (engine0 16 readDesc0).working = true ∧
    ((engine0 16 readDesc0).engine 0).ended = false ∧ (((engine0 0 0).engine 0).desc_ 0).getLsbD 31 = false ∧
    descBad 0x80000000 = false ∧ descBad 0xE0000000 = true ∧ descDir readDesc0 = false ∧ descBad readDesc0 = false ∧
    (((engine0 16 readDesc0).engine 0).desc_ 0).getLsbD 31 = true ∧
    (engine0 15 readDesc0).now < ((engine0 15 readDesc0).engine 0).issueAt 800 0 readDesc0 none ∧
    ((engine0 15 readDesc0).engine 0).issueAt 800 0 readDesc0 none ≤ ({ engine0 16 readDesc0 with now := 16 } : State).now := by decide
/-- The port of engine 0 takes the rod of its descriptor, unless rod 0 was accessed in its clock. -/
theorem test_meets_stream_port : let s := { engine0 16 readDesc0 with now := 16 }
    let c := s.issueClock 0 readDesc0
    let t := s.setQch 0 { onReady qdrReset with recent := [⟨c, 0, false, none, none, none, none⟩] }
    s.issueHeld 0 readDesc0 c = false ∧ t.issueHeld 0 readDesc0 c = true ∧
    (∀ b, ((s.qch 0).decode ((s.qch 0).phys (descRodAt readDesc0 0))).2 ≠ .uncor b) ∧ descMc readDesc0 = false ∧
    (({ s with lanes := [] } : State).seatLane 4).isSome = true := by decide +kernel
theorem test_meets_stream_arrival : let r : SRod := ⟨5, 0, false, false, 0, 0, 0⟩
    (up.engine 0).flying = [] ∧ ((up.setEngine 0 { engReset with flying := [r] }).engine 0).flying = r :: [] ∧ (up.now < r.due) ∧
    r.due ≤ ({ up with now := 5 } : State).now := by decide
/-- Rod 1 of steward 0x400 waits for target 16. -/
def asked : State := { up with now := 5, fab := { up.fab with reqs := [⟨1, 0x400, 16, 0x40000000, 32, false, [], 0, false, false⟩], nextId := 2 } }
theorem test_meets_grant : up.fab.asking 16 = [] ∧ (16 < 23) ∧ asked.fab.asking 16 ≠ [] ∧ asked.fab.eligible 16 ≠ [] ∧
    (asked.grantLeaf 16 (asked.fab.eligible 16)).1 = some 0 ∧
    ((asked.fab.heads 16).find? (fun r => decide (leafOf r.master = some 0))).map (fun r => asked.accepts r) = some true := by decide
/-- Target 16 turns the rod away while its array is scrubbed; requests of steward 0x400 and of the host. -/
theorem test_meets_requests : let q : FRod := ⟨1, 0x400, 16, 0x40000000, 32, false, [], 0, false, false⟩
    ({ asked with sm := { asked.sm with scrubAt := 5, lastB := some ⟨5, 0, true, []⟩ } } : State).accepts q = false ∧ q.drop = false ∧
    (∀ z ∈ asked.fab.bridge, z.id ≠ q.id) ∧ (0x400 : BitVec 11) ≠ 0x420 ∧ ({ up with hif := { up.hif with fatal := true } } : State).hif.fatal = true ∧
    0x40 % 32 + ([] : List Byte).length ≤ 32 := by decide
theorem test_meets_responses : up.fab.resps.find? (fun r => decide (r.master = 0x400)) = none ∧
    ({ up with fab := { up.fab with resps := [⟨1, 0x400, 16, 0, false, 2, []⟩] } } : State).fab.resps.find? (fun r => decide (r.master = 0x400)) =
      some ⟨1, 0x400, 16, 0, false, 2, []⟩ := by decide
theorem test_meets_bridge : let b : FRod := ⟨1, 0x420, 19, 0x50000000, 4, false, [], 0, false, false⟩
    let s := { up with fab := { up.fab with bridge := [b] } }
    up.fab.bridge.find? (fun r => decide (r.target = 19)) = none ∧ s.fab.bridge.find? (fun r => decide (r.target = 19)) = some b ∧
    s.pwr.clk.getLsbD 1 = true ∧ ({ s with pwr := { s.pwr with clk := 0 } } : State).pwr.clk.getLsbD 1 = false ∧
    (s.wordAccess b.master false b.addr 0xF 0).1 = 0 ∧ b.addr % 4 = 0 := by decide +kernel

/-! ### Split, registers, cards and contracts -/

/-- A contract of one seat, seat 4, which lane 5 holds. -/
def con4 : Contract := { con0 with card := { card0 with seats := [⟨4, 0xFFFF, 0, 0, 0, 0xFFFF, 0⟩], win := ⟨0, 1000, 2000, [1500]⟩ } }
def seated (c : Nat) (m : Mode) : State := { (inHeat c).setLane 5 { runner with mode := m, master := 4, spl := { splitReset with tmrArm := true, tmrCyc := 7 } } with con := [con4] }
theorem test_meets_timer : timerMeets ((seated 7 .run).settle 5) ((seated 7 .run).laneNow 5) = true ∧
    timerMeets ((seated 8 .run).settle 5) ((seated 8 .run).laneNow 5) = false := by decide
theorem test_meets_late : lateNow ((seated 7 .run).settle 5) 5 = false ∧ lateNow ((seated 122000 .run).settle 5) 5 = true ∧
    (((seated 122000 .run).settle 5).seatOf 5).isSome = true := by decide
theorem test_meets_points : up.contract 3 = none ∧ (seated 1500 .run).contract 3 = some con4 ∧ (seated 1500 .run).atPoint con4 (.k 1) = true ∧
    (seated 1499 .run).atPoint con4 (.k 1) = false ∧ con4.running = true ∧ ({ con4 with sampled := [1] } : Contract).sampled.contains (pointNum (.k 1)) = true := by decide
theorem test_meets_register_write : (0x50000001 : Word).toNat % 4 ≠ 0 ∧ (0x500 : BitVec 11) ≠ 0x420 ∧ (0xFFFC : Word).toNat < 0x10000 ∧ targetOf 0x10000 = none ∧
    targetOf 0x50000FFC = some 19 ∧ up.admits 0x410 19 0x50000FFC true = false ∧ up.admits 0x404 19 0x50000FFC true = true ∧
    ¬ (19 = 19 ∧ up.pwr.clk.getLsbD 1 = false) ∧ up.isReg 0x50000FFC = false ∧ up.isReg 0x50010000 = true ∧ up.regOff 0x50010000 = false ∧
    targetOf 0x58200000 = some 18 ∧ up.isReg 0x58200000 = true ∧ up.regOff 0x58200000 = true := by decide +kernel
theorem test_meets_wait_max : isStwMaster 0x403 = true ∧ 22 < 23 ∧ isStwMaster 0x420 = false := by decide
/-- The host is there, queue 0 holds one entry, and the device is OPERATIONAL. -/
def host : State := { up with
  hif := { hifReset with ready := true, busMaster := true, absent := false, sq := [(0, { ringReset with en := true, tail := 1 })], cq := [(0, { ringReset with en := true })] }
  sec := { secReset with lcFuse := 1, lc := { lcRecReset with state := 2 } } }
def le (v n : Nat) : List Byte := leBytes v n
theorem test_meets_load : up.canTake 0 = false ∧ host.canTake 0 = true ∧ sqeClean { sqe 0 0 [] 0 noBuf with flags := 2 } ⟨false, true, 0x18⟩ = false ∧
    sqeClean (sqe 0 0 [] 0 noBuf) ⟨false, true, 0x18⟩ = true ∧ allowedIn 3 up.sec.lcState = false ∧ allowedIn 3 host.sec.lcState = true ∧ host.runs 3 = false ∧
    ({ host with load := some ⟨1, 9, none, false, [], 0⟩ } : State).runs 3 = true := by decide
/-- The vendor's key of slot 0, and the bytes of a card of one seat (R302 to R314). -/
def cardKey : List Byte := List.replicate 32 1
def cardBytes : List Byte :=
  le 0x44524352 4 ++ le 1 2 ++ le 0 2 ++ le 1 8 ++ le 0 8 ++ le 125000 4 ++ le 8944 4 ++ le 1088 4 ++ le 1 2 ++ le 5 1 ++ le 1 1 ++ le 0 8 ++ sha256 cardKey ++
  ([(1, 1, 160, 16), (2, 1, 192, 16), (3, 1, 224, 176), (9, 1, 416, 48), (11, 1, 480, 576)].flatMap
    (fun (x : Nat × Nat × Nat × Nat) => le x.1 4 ++ le x.2.1 4 ++ le x.2.2.1 4 ++ le x.2.2.2 4)) ++
  le 0 2 ++ le 0xFFFF 2 ++ le 0 4 ++ le 0xFFFF 2 ++ le 0 2 ++ le 0 20 ++
  le 1056 4 ++ le 32 4 ++ le 0 24 ++
  le 0xA0000000 4 ++ le 0x14000 4 ++ le 0x10000 4 ++ le 0x10000 4 ++ le 0 176 ++
  le 0 4 ++ le 1000 4 ++ le 2000 4 ++ le 0 52 ++
  le 1 2 ++ le 0 174 ++ le 0 2 ++ le 1 2 ++ le 1000 4 ++ le 0 8 ++ le 0 4 ++ le 100 4 ++ le 0 376 ++ le 0 32 ++ List.replicate 7856 0
def keyed : State := { host with sec := { host.sec with lc := { host.sec.lc with keys := [(0, some cardKey)] } } }
/-- Every check of R317 but the signature of step 2, which is a free value of the model. -/
theorem test_meets_admission : cardStep1 cardBytes = true ∧ keyed.keySlot cardBytes = some 0 ∧
    (parseCard cardBytes).map (keyed.judgeCard cardBytes false) = some 0 := by decide +kernel
theorem test_meets_refusal : up.load = none ∧ up.judge [] false = .inl 1 := by decide +kernel
/-- PARAM of a command whose first field is the gun `g`. -/
def gunEntry (g : Nat) : Sqe := sqe 0 3 (le g 8) 0 noBuf
theorem test_meets_activate : let s := { host with pacer := { (inHeat 0).pacer with heatLen := 125000 }, con := [{ con0 with state := .admitted }] }
    s.canTake 0 = true ∧ sqeClean (gunEntry 4) ⟨true, false, 0x20⟩ = true ∧ allowedIn 4 s.sec.lcState = true ∧
    (s.takeEntry 0).activateStatus 3 4 = 0 ∧ (s.takeEntry 0).activateStatus 3 3 ≠ 0 ∧ (s.takeEntry 0).contract 2 = none ∧
    (s.takeEntry 0).contract 3 = some { con0 with state := .admitted } := by decide
theorem test_meets_withdraw : host.heatN + 3 < ({ con0 with state := .scheduled, startGun := 4 } : Contract).startGun ∧
    ({ con0 with state := .scheduled, startGun := 3 } : Contract).startGun ≤ host.heatN + 3 ∧ con0.pendW = none ∧ host.heatN + 2 ≤ 2 := by decide
/-- A rephase heat that is open makes an activation that would succeed wait. -/
theorem test_meets_rephase_wait : let s := { host with pacer := { (inHeat 0).pacer with heatLen := 125000 }, con := [{ con0 with state := .admitted }] }
    s.pacer.rephase = none ∧ s.activateWaits (gunEntry 4) = false ∧ ({ s with pacer := { s.pacer with rephase := some 5 } } : State).activateWaits (gunEntry 4) = true := by decide
theorem test_meets_seeds : let c : Contract := { con0 with state := .scheduled, startGun := 1 }
    let s := { inHeat 122000 with con := [c] }
    s.contract 3 = some c ∧ s.heatN + 1 = c.startGun ∧ c.seeded = false ∧ s.cooling = true ∧ s.seedFree c = true ∧ con0.state ≠ .scheduled ∧ up.cooling = false := by decide
theorem test_meets_clearing : let s := { up with pair := { up.pair with clearing := [(4, 9)] } }
    s.pair.clearing.any (fun x => decide (x.1 = 4)) = true ∧ (s.seatLane 4).map s.stillRead = some false ∧
    up.pair.clearing.any (fun x => decide (x.1 = 4)) = false := by decide
/-- A seed waits while the array of a seat's lane is used in this cycle. -/
theorem test_meets_seed_wait : let s := (seated 122000 .run)
    (s.seatLane 4).map (fun p => (s.setLmem p { s.lmem p with p0 := ⟨[], [], [s.now], []⟩ }).seedFree con4) = some false := by decide

/-! ### Ports -/

/-- Port 0 is `f` of its reset value, every domain is on, in cycle `c` of a heat of contract 3, whose input window ends at 20. -/
def plug (c : Nat) (f : Port → Port) : State :=
  let s := { inHeat c with con := [{ con0 with card := { card0 with win := ⟨20, 1000, 2000, [1500]⟩ } }] }
  { s with pwr := { s.pwr with on := 0xFFFFF, clk := 0x7FF } }.setPort 0 (f portReset)
/-- A flow of one rod for seat 4, from any source, at UDP port 99. -/
def flow0 : IngestRec := ⟨0, 0, 0, 0x0A000001, 99, 0x40400040, [0x40400020]⟩
def eth (t : Port) : Port := { t with mode := 1, in0 := ingestBank [flow0], ig := { pctrlReset with owner := 3 } }
def kaong (st : BitVec 2) (t : Port) : Port := { t with mode := 3, kstate := st, lock := true }
/-- A broadcast frame of that flow. -/
def udp (n : Nat) : Frame :=
  ⟨withFcs (ethFrame portReset ⟨0, 0, 0, List.replicate 6 0xFF, 0, 0x0A000001, 0, 99, 0, 64, false, []⟩ (List.replicate n 1)) true, 0, 0, 0⟩
/-- The check value that every description of the CRC-32 of IEEE 802.3 gives: the FCS of the digits 1 to 9 (R328). -/
theorem test_crc32_check : crc32 [0x31, 0x32, 0x33, 0x34, 0x35, 0x36, 0x37, 0x38, 0x39] = 0xCBF43926 := by decide +kernel
theorem test_meets_fcs : (frameView (udp 32)).fcsOk = true ∧ (frameView (udp 32)).length = 78 ∧ (frameView { udp 32 with bytes := 0 :: (udp 32).bytes }).fcsOk = false ∧
    (frameView (udp 32)).ipOk = true ∧ (frameView (udp 32)).udpOk = true ∧ (frameView (udp 32)).etherType = 0x0800 ∧ (frameView (udp 32)).proto = 17 ∧
    (frameView (udp 32)).dstMac = 0xFFFFFFFFFFFF ∧ (tget stwDflt up.stw 0).length < 64 := by decide +kernel
theorem test_meets_frame : ((plug 5 eth).port 0).isEth = true ∧ (plug 5 eth).domOn (portDomain 0) = true ∧ (plug 5 eth).pwr.inReset = false ∧
    within (frameView (udp 32)).length 64 4146 = true ∧ within 63 64 4146 = false ∧ (frameView (udp 32)).vlan = (if ((plug 5 eth).port 0).vlan then some ((plug 5 eth).port 0).vid else none) ∧
    (frameView (udp 32)).dstUdp = 99 ∧ ((plug 5 eth).ingestNow 0 ((plug 5 eth).frameInstant 0 (udp 32))).map (fun x => x.2) = some [flow0] ∧
    (plug 5 fun t => { t with mode := 1 }).ingestNow 0 0 = none ∧ [flow0].findIdx? (fun r => r.matches (frameView (udp 32))) = some 0 ∧
    (frameView (udp 32)).payload.length = 32 * flow0.map.length ∧ (frameView (udp 31)).payload.length ≠ 32 * flow0.map.length ∧
    (((plug 5 eth).port 0).flowHeat 0 0).accepted = 0 ∧
    0 < (({ (plug 5 eth).port 0 with flows := [⟨0, 0, 1, 0, none, none, [], false⟩] } : Port).flowHeat 0 0).accepted := by decide +kernel
/-- A cell of 40 bytes with the header `h` and its CRC. -/
def cell (h : Nat) : KCell :=
  ⟨(cellBlocks 0 5 0 (leBytes h 2 ++ List.replicate 34 0 ++ leW (crc32cFinal (leBytes h 2 ++ List.replicate 34 0)))).1, 0⟩
/-- What a receiver reads of it. -/
def cellRead (c : KCell) : List Byte := ((readBlocks 0 c.blocks).1.filter (fun b => blockValid b.1)).flatMap (fun z => z.2)
/-- The blocks of a cell read back to its bytes, from a scrambler and a descrambler in one state. -/
theorem test_scrambler_reads_back : cellRead ⟨(cellBlocks 0 2 0 [1, 2, 3, 4, 5, 6, 7, 8, 9, 10, 11, 12, 13, 14, 15, 16]).1, 0⟩ =
    [1, 2, 3, 4, 5, 6, 7, 8, 9, 10, 11, 12, 13, 14, 15, 16] := by decide +kernel
theorem test_meets_cell : ((plug 5 (kaong 2)).port 0).isKaong = true ∧ ((plug 5 (kaong 2)).port 0).kstate = 2 ∧ ((plug 5 (kaong 2)).port 0).scrRx = 0 ∧
    (cell 0x4000).blocks.head?.map (fun z => z.hdr) = some hdrControl ∧ (cellRead (cell 0x4000)).length = 40 ∧
    leWordAt (cellRead (cell 0x4000)) 36 = crc32cFinal ((cellRead (cell 0x4000)).take 36) ∧ leAt (cellRead (cell 0x4000)) 0 2 / 16384 = 1 ∧
    leWordAt (cellRead (cell 0x8000)) 36 = crc32cFinal ((cellRead (cell 0x8000)).take 36) ∧ leAt (cellRead (cell 0x8000)) 0 2 / 16384 = 2 ∧
    leWordAt (cellRead (cell 0)) 36 = crc32cFinal ((cellRead (cell 0)).take 36) ∧ leAt (cellRead (cell 0)) 0 2 / 16384 = 0 := by decide +kernel
theorem test_meets_bad_cell : let c : KCell := ⟨(cellBlocks 0 5 0 (List.replicate 40 0)).1, 0⟩
    c.blocks.head?.map (fun z => z.hdr) = some hdrControl ∧ leWordAt (cellRead c) 36 ≠ crc32cFinal ((cellRead c).take 36) ∧
    (cellRead ⟨c.blocks.take 4, 0⟩).length = 32 := by decide +kernel
/-- A DATA cell's rod that its flow, the first record of an UP link, has not had in its heat. -/
theorem test_meets_cell_rod : let s := plug 5 fun t => { kaong 2 t with in0 := ingestBank [{ flow0 with kind := 1 }], ig := { pctrlReset with owner := 3 } }
    (s.ingestNow 0 (s.rxStamp 0 0 + 256)).map (fun x => x.2) = some [{ flow0 with kind := 1 }] ∧ leAt (cellRead (cell 0x4000)) 0 2 % 4096 = 0 ∧
    0 < flow0.map.length ∧ ((s.port 0).flowHeat 0 0).rods.contains 0 = false := by decide +kernel
theorem test_meets_link : ((plug 5 (kaong 0)).port 0).kstate = 0 ∧ (plug 5 (kaong 0)).portClock 0 = true ∧ ((plug 5 (kaong 2)).port 0).lock = true ∧
    8 ≤ ({ portReset with crcRun := 8 } : Port).crcRun ∧ portReset.crcRun < 8 ∧ (up.portClock 0 = false) ∧ portReset.lock = false ∧
    64 ≤ ({ portReset with hdrRun := 64 } : Port).hdrRun ∧ ({ portReset with hdrRun := 63 } : Port).hdrRun < 64 ∧
    16 ≤ ({ portReset with hdrs := 0xFFFF } : Port).badHdrs ∧ ({ portReset with hdrs := 0x7FFF } : Port).badHdrs < 16 := by decide +kernel
/-- A rod for rod `h` of seat 4, on the path since `d`. -/
def prod (h : Word) (d : Nat) : PRod := ⟨0x40400000 ||| h, 0, 3, d, none, 1, none⟩
def queues (c now : Nat) (a b : List PRod) : State := { plug c (fun t => { eth t with q0 := a, q1 := b, inAt := some 9 }) with now := now }
theorem test_meets_rod_enter : let s := queues 8 8 [prod 0 0] []
    (s.port 0).q0 = [prod 0 0] ∧ s.cyc % 8 = 0 % 8 ∧ (prod 0 0).due = 0 ∧ (prod 0 0).ready ≤ s.now ∧ (∀ y ∈ ([] : List PRod), y.due ≠ s.now + 7) ∧
    (queues 7 7 [] []).cyc % 8 ≠ 0 % 8 := by decide
theorem test_meets_rod_arrive : ((up.lmem 5).sp 0).ingest.length < 16 ∧ ((up.lmem 5).sp 0).room false = true ∧ elemMc 0x40400000 = false ∧
    (up.seatLane (elemSeat 0x40400000)).isSome = true ∧ (prod 1 15).due ≠ 0 ∧ (prod 1 15).due ≤ (queues 15 15 [] [prod 1 15]).now ∧
    (queues 14 14 [] [prod 1 15]).now < (prod 1 15).due ∧ (prod 1 0).due = 0 ∧ ((queues 8 9 [] []).port 0).inAt = some 9 ∧ 9 ≤ (queues 8 9 [] []).now ∧
    (queues 8 8 [] []).now < 9 := by decide
theorem test_meets_status_rod : let s := plug 21 eth
    (s.statusOwner 0).map (fun c => (c.1.running, c.1.card.win.i, c.2[0]?)) = some (true, 20, some flow0) ∧ 20 < s.pacer.elapsed ∧ flow0.status ≠ 0xFFFFFFFF ∧ ((s.port 0).flowHeat 0 s.heatN).status = false ∧
    (({ s.port 0 with flows := [⟨0, 0, 0, 0, none, none, [], true⟩] } : Port).flowHeat 0 s.heatN).status = true := by decide +kernel
/-- An emission of one element that began in cycle 2,000, in record kind `k`. -/
def run (k : Nat) (n : Nat) : EgRun := ⟨0, 2000, [⟨0, k, 8, List.replicate 6 0xFF, 0, 0, 0, 0, 0, 0, false, [0x00400000]⟩], [(some 5, 0)], false, n, [], 0, 0⟩
def sending (now k n : Nat) (f : Port → Port) : State := { plug 5 (fun t => { f t with runs := [run k n] }) with now := now }
theorem test_meets_egress : ((plug 5 eth).beginRun 0).port 0 = (plug 5 eth).port 0 ∧
    (((sending 2000 0 0 eth).beginRun 0).port 0).runs.find? (fun x => decide (x.asked < (recElems x.recs).length)) = some (run 0 0) ∧
    (((sending 2000 0 1 eth).beginRun 0).port 0).runs.find? (fun x => decide (x.asked < (recElems x.recs).length)) = none ∧
    (run 0 0).base + 4 * (run 0 0).asked ≤ ((sending 2000 0 0 eth).beginRun 0).now ∧ (run 0 0).nextBit (eth portReset) = some 2232 ∧
    (sending 2231 0 1 eth).now < 2232 ∧ 2232 ≤ (sending 2232 0 1 eth).now ∧ (run 0 1).cur.kind = 0 ∧ (run 1 1).cur.kind = 1 ∧
    (run 1 1).nextBit (kaong 2 portReset) = some 2232 ∧ ((sending 2232 1 1 (kaong 2)).port 0).isKaong = true := by decide +kernel
theorem test_meets_idle_cell : (plug 5 (kaong 2)).nextSched 0 = none ∧ ((plug 5 (kaong 2)).port 0).txBusy ≤ (plug 5 (kaong 2)).now ∧
    ((plug 5 (kaong 1)).port 0).kstate ≠ 2 ∧ ((plug 5 fun t => { kaong 2 t with nonData := 1 }).port 0).nonData ≠ 0 ∧
    (plug 5 eth).nextSched 0 = none ∧ (sending 2200 0 1 eth).nextSched 0 = some 2232 ∧
    2232 < (sending 2200 0 1 eth).now + wireLc (([] : List Byte).length + 90) := by decide +kernel

/-! ### The host interface -/

theorem test_meets_host_checks : (hostRow (.identify (sqe 0 0 [] 0 noBuf))).isSome = true ∧ up.canTake 0 = false ∧ host.canTake 0 = true ∧
    sqeClean { sqe 0 0 [] 0 noBuf with rsv0 := 1 } ⟨false, true, 0x18⟩ = false ∧ sqeClean (sqe 0 0 [] 0 noBuf) ⟨false, true, 0x38⟩ = true ∧
    allowedIn 2 up.sec.lcState = false ∧ hostRow (.attest (sqe 0 0 [] 0 noBuf)) = some (2, ⟨false, true, 0x38⟩, sqe 0 0 [] 0 noBuf) ∧
    ((0 : Byte).toNat = 0) ∧ 16 ≤ (16 : Byte).toNat := by decide
/-- An entry of queue 0 with PARAM `p` and a buffer of `n` bytes. -/
def entry (h : BitVec 16) (p : List Byte) (n : Word) : Sqe := sqe 0 h p n noBuf
theorem test_meets_answers : (entry 0 [] 4096).buf.ok = true ∧ sqeSglOk (entry 0 [] 4096) = true ∧ 4096 ≤ (entry 0 [] 4096).len.toNat ∧
    sqeClean (entry 0xFFFF [] 4096) ⟨true, true, 0x18⟩ = true ∧ sqeClean (entry 3 [] 4096) ⟨true, true, 0x18⟩ = true ∧
    (host.takeEntry 0).contract 3 = none ∧ ({ host with con := [con0] }.takeEntry 0).contract 3 = some con0 ∧
    ((host.takeEntry 0).contractRecord con0).length ≤ 4096 ∧ sqeClean (entry 0 (leBytes 64 4) 96) ⟨false, true, 0x1C⟩ = true ∧
    sqePar (entry 0 (leBytes 64 4) 96) 0x18 4 % 32 = 0 ∧ sqePar (entry 0 (leBytes 0x3FFFA0 4) 96) 0x18 4 + 96 ≤ 0x400000 := by decide +kernel
/-- The secure bank holds an identity (R423). -/
def known : State := host.smWrite false 0x7803 (leBytes 0x49440001 4 ++ List.replicate 28 0) (List.replicate 32 true) false
theorem test_meets_attest : (known.takeEntry 0).idValid = true ∧ known.canTake 0 = true ∧ known.runs 2 = false ∧ allowedIn 2 known.sec.lcState = true ∧
    (known.takeEntry 0).attestBody (fit 32 ((entry 0 [] 0x10000).param.take 32)) 1 ≠ [] := by decide +kernel
theorem test_meets_snapshot_cmd : sqeClean (entry 0 (leBytes 0x00000006 4) 0) ⟨false, false, 0x28⟩ = true ∧ (0x00000006 : Word) &&& 0x7E00FFF8 = 0 ∧
    (0x00000008 : Word) &&& 0x7E00FFF8 ≠ 0 ∧ (0x00000002 : Word).getLsbD 2 = false ∧ host.snap.held = none ∧
    ({ host with snap := { host.snap with held := some ⟨1, 0, 0, 0, 0, 0, []⟩ } }.takeEntry 0).snap.held = some ⟨1, 0, 0, 0, 0, 0, []⟩ ∧
    sqePar (entry 0 (leBytes 1 4) 360288) 0x18 4 = 1 ∧ 360288 ≤ (entry 0 (leBytes 1 4) 360288).len.toNat ∧
    (⟨1, 0, 0, 0, 0, 0, []⟩ : Shot).bytes.length ≤ 360288 := by decide +kernel
theorem test_meets_telemetry_cfg : sqeClean (entry 0 [] 0) ⟨false, false, 0x2C⟩ = true ∧ sqePar (entry 0 [] 0) 0x18 8 = 0 := by decide
/-- PACER_CFG of HEAT_LEN `n` at gun `g`. -/
def pacerEntry (g n : Nat) : Sqe := entry 0 (leBytes g 8 ++ leBytes 2 4 ++ leBytes 0 4 ++ leBytes n 4) 0
theorem test_meets_pacer_cfg : sqeClean (pacerEntry 2 12500) ⟨false, false, 0x40⟩ = true ∧ (pacerArgs (pacerEntry 2 12500)).ok = true ∧
    (pacerArgs (pacerEntry 2 12499)).ok = false ∧ (pacerArgs (pacerEntry 2 12500)).waits 0 = true ∧ (pacerArgs (pacerEntry 1 12500)).apply < host.heatN + 2 ∧
    ¬ (pacerArgs (pacerEntry 2 12500)).apply < host.heatN + 2 ∧ (host.takeEntry 0).pacerForbids (pacerArgs (pacerEntry 2 12500)) = false ∧
    ({ host with con := [con0] }.takeEntry 0).pacerForbids (pacerArgs (pacerEntry 2 12500)) = true ∧
    (pacerArgs (pacerEntry 2 12500)).has 0 = false ∧ (pacerArgs (pacerEntry 2 12500)).has 5 = false := by decide

/-- The vendor's and the owner's public keys. -/
def vendorKey : List Byte := List.replicate 32 2
def ownerKey : List Byte := List.replicate 32 3
/-- The device holds the hashes of both keys, and its standby pair is healthy. -/
def trusting : State := { host with
  sec := { host.sec with vendorHash := digest vendorKey, ownerHash := digest ownerKey }, pair := { host.pair with stbyOk := true } }
/-- A firmware image of a body of 32 bytes (R418). -/
def image : List Byte := leBytes 0x57465543 4 ++ leBytes 7 4 ++ leBytes 0 4 ++ leBytes 0 4 ++ leBytes 32 4 ++ leBytes 0 4 ++ vendorKey ++ ownerKey ++
  List.replicate (168 + 32 + 15712) 0
/-- It is valid when its two signatures verify: what a verification answers is a free value. -/
theorem test_meets_image (h1 : verifies vendorKey (image.take 0x120) (slice image 0x120 7856) = true)
    (h2 : verifies ownerKey (image.take (0x120 + 7856)) (slice image (0x120 + 7856) 7856) = true) : trusting.imageValid image = true := by
  have a : imgBodyLen image = 32 := by decide +kernel
  have b : slice image 0x18 32 = vendorKey := by decide +kernel
  have c : slice image 0x38 32 = ownerKey := by decide +kernel
  simp only [State.imageValid, a, b, c]
  rw [show (0x100 + 32 : Nat) = 0x120 from rfl, h1, h2]
  decide +kernel
theorem test_meets_bad_image : trusting.imageValid [] = false ∧ image.length = 0x100 + imgBodyLen image + 15712 ∧ trusting.pair.stbyOk = true ∧
    sqeInput (sqe 0 0 [] 2 ⟨none, false, [], [1, 2]⟩) = some [1, 2] ∧ trusting.runs 10 = false ∧ allowedIn 10 trusting.sec.lcState = true := by decide +kernel
theorem test_meets_commit : sqeClean (gunEntry 8) ⟨false, false, 0x20⟩ = false ∧ sqeClean (entry 0 (leBytes 8 8) 0) ⟨false, false, 0x20⟩ = true ∧
    host.pair.staged = none ∧ ({ host with pair := { host.pair with staged := some [] } }.pair.staged.isSome = true) ∧ host.pair.commit = none ∧
    (sqePar (entry 0 (leBytes 7 8) 0) 0x18 8 ≠ 0 ∧ sqePar (entry 0 (leBytes 7 8) 0) 0x18 8 < host.heatN + 8) ∧
    host.heatN + 8 ≤ sqePar (entry 0 (leBytes 8 8) 0) 0x18 8 := by decide
/-- RESOURCE action `a` on resource `r` with CONFIG `c`. -/
def resource (r a c : Nat) : Sqe := entry 0 (leBytes r 4 ++ leBytes a 4 ++ leBytes c 4) 0
theorem test_meets_resource : sqeClean (resource 0x23 1 0x01000000) ⟨false, false, 0x24⟩ = true ∧ resourceOk 0x24 = false ∧ resourceOk 0x23 = true ∧
    sqeAction (resource 0x23 1 0x01000000) = 1 ∧ configOk (host.takeEntry 0).L 0x23 0x01000000 = true ∧ ((host.takeEntry 0).claim 0x23).held = false ∧
    (host.takeEntry 0).blocking 0x23 0x01000000 false = none ∧ sqeAction (resource 0x23 2 0) = 2 ∧ sqeAction (resource 0x23 3 0) = 3 ∧
    ((host.setClaim 0x23 ⟨true, 0x23, 0x420, 0⟩).claim 0x23).held = true ∧ ((host.setClaim 0x23 ⟨true, 0x23, 0x420, 0⟩).claim 0x23).via = 0x23 ∧
    ¬ (within 0x23 0x30 0x3F = true ∧ host.portLocked (0x23 - 0x30) = true) := by decide

/-- A token of kind `k` and target `t`, signed with the owner's key (R429). -/
def token (k t heats : Nat) (key : List Byte) : List Byte := leBytes 0x4E4B4F54 4 ++ leBytes k 2 ++ leBytes t 2 ++ leBytes 0 16 ++
  (leBytes 0 32) ++ leBytes 1 8 ++ leBytes heats 8 ++ key ++ ownerKey ++ List.replicate (120 + 7856) 0
def tokenEntry (b : List Byte) (t : Nat) : Sqe := sqe 0 0 (leBytes t 4) 8112 ⟨none, false, [], b⟩
/-- The device takes such tokens: its identity's hash is the one they name. -/
theorem test_meets_token (k : Nat) (t heats : Nat) (key : List Byte) (hk : (k, t, heats, key) ∈ [(1, 3, 0, List.replicate 32 0), (2, 7, 0, List.replicate 32 9),
      (3, 7, 0, List.replicate 32 0), (4, 0, 5, List.replicate 32 0), (5, 0, 0, List.replicate 32 0)])
    (h : verifies ownerKey ((token k t heats key).take 256) (slice (token k t heats key) 256 7856) = true) :
    (trusting.takeEntry 0).tokenOk (token k t heats key) t = true := by
  simp only [List.mem_cons, Prod.mk.injEq, List.not_mem_nil, or_false] at hk
  rcases hk with ⟨rfl, rfl, rfl, rfl⟩ | ⟨rfl, rfl, rfl, rfl⟩ | ⟨rfl, rfl, rfl, rfl⟩ | ⟨rfl, rfl, rfl, rfl⟩ | ⟨rfl, rfl, rfl, rfl⟩ <;>
    (simp only [State.tokenOk]
     rw [show slice (token _ _ _ _) 0x68 32 = ownerKey by decide +kernel, h]
     decide +kernel)
theorem test_meets_transition : trusting.canTake 0 = true ∧ trusting.sec.pendTok = none ∧
    sqeClean (tokenEntry (token 1 3 0 (List.replicate 32 0)) 3) ⟨false, true, 0x1C⟩ = true ∧ allowedIn 14 trusting.sec.lcState = true ∧
    (token 1 3 0 (List.replicate 32 0)).length = 8112 ∧ tokKind (token 1 3 0 (List.replicate 32 0)) = 1 ∧ transitionOk trusting.sec.lcState 3 = true ∧
    transitionOk trusting.sec.lcState 1 = false ∧ trusting.con = [] ∧ (trusting.takeEntry 0).runs 2 = false ∧ (trusting.takeEntry 0).runs 10 = false ∧
    sqePar (tokenEntry [] 3) 0x18 4 = 3 ∧ trusting.sec.lcState = 2 ∧ (trusting.takeEntry 0).tokenOk (token 6 0 0 []) 0 = false := by decide +kernel
theorem test_meets_token_input : sqeInput (tokenEntry (token 1 3 0 (List.replicate 32 0)) 3) = some (token 1 3 0 (List.replicate 32 0)) := by
  have h : (token 1 3 0 (List.replicate 32 0)).length = 8112 := by decide +kernel
  generalize token 1 3 0 (List.replicate 32 0) = b at h ⊢
  simp [sqeInput, sqeSglOk, sqeSgl, tokenEntry, sqe, HostBuf.ok, h]
theorem test_meets_debug : ({ host with sec := { host.sec with debugLeft := some 0 } } : State).sec.debugLeft = some 0 ∧ host.sec.debugLeft ≠ some 0 ∧
    host.sec.needId = false ∧ ({ host with sec := { host.sec with needId := true } } : State).sec.pendTok = none := by decide

/-- Ring `k` of the host is open with one entry written. -/
def open_ : Ring := { ringReset with en := true, tail := 1 }
theorem test_meets_bells : (host.sqRing 0).en = true ∧ (host.sqRing 1).en = false ∧ (15 : Word).toNat % 4096 < 2 ^ (host.sqRing 0).size ∧
    2 ^ (host.sqRing 0).size ≤ (16 : Word).toNat % 4096 ∧ (host.cqRing 0).en = true ∧ (host.ring 8).en = false ∧ (1 : Word).getLsbD 0 = true ∧
    ({ host with hif := { host.hif with evt := open_, tel := open_ } } : State).hif.evt.en = true := by decide
/-- A completion of queue 0 waits. -/
def compl0 : Compl := ⟨0, 1, 7, 0, 0, 0, 1, []⟩
def waiting : State := { host with hif := { host.hif with compl := [compl0], cut := [] } }
theorem test_meets_completion : host.hif.compl.find? (fun c => decide (c.sq = 0)) = none ∧ waiting.hif.compl.find? (fun c => decide (c.sq = 0)) = some compl0 ∧
    waiting.hif.cut.contains 0 = false ∧ (waiting.cqRing 0).en = true ∧ (waiting.cqRing 0).stopped = false ∧ waiting.hostHere = true ∧
    ({ waiting with hif := { waiting.hif with d3 := true } } : State).hostHere = false ∧
    ({ waiting with hif := { waiting.hif with cut := [0] } } : State).hif.cut.contains 0 = true := by decide
theorem test_meets_delivery_ring : let e : Event := ⟨0x0101, false, 0, 0, 0, 0, 0⟩
    let s := { host with hif := { host.hif with evt := open_ }, ev := { host.ev with q := [e] } }
    host.evtOpen = false ∧ s.evtOpen = true ∧ s.ev.q = [e] ∧ s.ev.lost = none := by decide
theorem test_meets_telemetry : let s := { host with hif := { host.hif with tel := open_, telem := { telemReset with on := true } } }
    s.hif.telem.on = true ∧ s.hif.tel.en = true ∧ s.hostHere = true ∧ ringFull s.hif.tel = false ∧ s.hif.tel.stopped = false ∧
    ringFull { open_ with tail := 15 } = true := by decide
theorem test_meets_msix : (63 < 64) ∧ (tget msixDflt [(63, { msixReset with pend := true })] 63).pend = true ∧ (tget msixDflt [] 63).pend = false := by decide

/-! ### Repair, security, snapshots, power and peripherals -/

/-- A copy of seat 4 onto lane 16 from lane 5, which waits, at place `i`, in cycle `c` of a heat. -/
def repairing (c i : Nat) (m : Mode) : State := { inHeat c with
  lanes := tput laneReset (inHeat c).lanes 5 { runner with mode := m }
  pair := { (inHeat c).pair with copies := [⟨4, 16, 5, 1, 1, i, false⟩], groups := [⟨1, 3, 0, none, false⟩] } }
theorem test_meets_sweep : (repairing 122000 0 .wait).cooling = true ∧ (repairing 122000 0 .wait).domOn (3 + 0) = true ∧ up.cooling = false ∧
    (repairing 122000 0 .wait).pair.copies.find? (fun c => decide (c.field = 0) && decide (c.pos < 2560)) = some ⟨4, 16, 5, 1, 1, 0, false⟩ := by decide
theorem test_meets_resume : let s := repairing 122000 2560 .wait
    s.pair.copies.find? (fun c => decide (c.seat = 4) && s.pair.groups.any (fun g => decide (g.gid = c.gid) && g.resume.isNone)) =
      some ⟨4, 16, 5, 1, 1, 2560, false⟩ ∧ s.pair.copies.any (fun c => decide (c.seat = 5)) = false ∧
    s.pair.groups.find? (fun g => decide (g.gid = 1) && decide (g.handle = 3)) = some ⟨1, 3, 0, none, false⟩ ∧ s.cooling = true ∧
    (∀ d ∈ s.pair.copies, d.gid = 1 → 2560 ≤ d.pos ∧ (s.lane d.src).mode = .wait) ∧
    (∀ f, f < 8 → getN s.pair.moved f + s.groupNeed (s.pair.copies.filter (fun c => decide (c.gid = 1))) f ≤ s.moverBudget) := by decide
theorem test_meets_reserve_rods : ∀ i, i < 64 → ((inHeat 122000).rodPeek (1087 / 17 * 17 + (inHeat 122000).heatN % 16) (32 * i)).bad = false := by decide +kernel
theorem test_meets_sweep_copies : (repairing 122000 0 .wait).copyFree 5 16 0 = true := by decide +kernel
theorem test_meets_shadow : (inHeat 122000).cooling = true ∧ isReserve 1087 = true ∧ isReserve 1088 = false ∧ (inHeat 122000).holdsSeat 1087 = false ∧
    (inHeat 122000).laneOn 1087 = true ∧ (inHeat 122000).pair.scratched.contains 1087 = false ∧
    (inHeat 122000).pair.copies.any (fun c => decide (c.field = fieldOf 1087)) = false ∧
    (inHeat 122000).pair.seatMap.any (fun e => decide (e.2 = some 1087)) = false ∧
    getN (inHeat 122000).pair.shadowIn 1087 ≠ (inHeat 122000).heatN + 1 ∧ getN (putN [] 1087 1) 1087 ≠ 0 := by decide
theorem test_meets_pair : host.pair.stbyOk = false ∧ trusting.pair.stbyOk = true ∧ host.pair.selfTest = false ∧
    ({ host with pair := { host.pair with selfTest := true } } : State).pair.selfTest = true := by decide +kernel
/-- The device of the two keys before its boot: it starts the image of `test_meets_image`, and refuses an empty one. -/
theorem test_meets_boot (h1 : verifies vendorKey (image.take 0x120) (slice image 0x120 7856) = true)
    (h2 : verifies ownerKey (image.take (0x120 + 7856)) (slice image (0x120 + 7856) 7856) = true) :
    let s := { trusting with sec := { trusting.sec with up := false } }
    s.pwr.inReset = false ∧ s.sec.up = false ∧ s.sec.bootFail = false ∧ s.imageValid image = true ∧ s.imageValid [] = false :=
  ⟨by decide +kernel, rfl, by decide +kernel, test_meets_image h1 h2, by decide +kernel⟩
theorem test_meets_extend : isStwMaster 0x400 = true ∧ 0x40000000 ≤ (0x40000000 : Word).toNat / 32 * 32 ∧ (0x400EFFE7 : Word).toNat / 32 * 32 ≤ 0x400EFFE0 ∧
    isStwMaster 0x420 = false ∧ 3 < 4 := by decide

/-- The photo input is claimed and every capture source armed; a program waits for cycle `c` of heat 0. -/
def armed (c : Nat) : State := { (inHeat c).setClaim 0x22 ⟨true, 0x22, 0x404, 0⟩ with
  snap := { (inHeat c).snap with arm := 6, progCyc := 40, progHeat := 0 } }
theorem test_meets_triggers : (armed 40).snap.held = none ∧ (armed 40).snap.pend = none ∧ ((armed 40).claim 0x22).held = true ∧
    (armed 40).snap.arm.getLsbD 1 = true ∧ (armed 40).snap.arm.getLsbD 2 = true ∧ (armed 40).pacer.open_ = true ∧
    (armed 40).pacer.heatNum = (armed 40).snap.progHeat ∧ (armed 40).cyc = (armed 40).snap.progCyc.toNat ∧ (armed 40).pacer.elapsed < (armed 40).L ∧
    (up.claim 0x22).held = false ∧ up.snap.arm.getLsbD 2 = false := by decide
theorem test_meets_capture : let s := { up with snap := { up.snap with pend := some 8 } }
    s.snap.pend = some 8 ∧ s.now < 8 ∧ 8 ≤ ({ s with now := 8 } : State).now := by decide
theorem test_meets_hold : let s := { up with snap := { up.snap with held := some ⟨1, 0, 0, 0, 0, 0, []⟩ }, log := { up.log with holdS := 1 }, now := lcPerSec }
    s.snap.held.isSome = true ∧ s.log.holdS ≠ 0 ∧ s.snap.heldAt + s.log.holdS.toNat * lcPerSec ≤ s.now ∧ up.snap.held = none := by decide
theorem test_meets_slice : up.sec.up = false ∧ ({ up with sec := { up.sec with up := true } } : State).sec.up = true ∧ ({ host with log := { host.log with frame := [1], slice := 1 } } : State).log.frame ≠ [] ∧
    ({ host with log := { host.log with frame := [1], slice := 1 } } : State).log.slice ≠ 0 ∧ (true || false) = true := by decide

theorem test_meets_power : isStwMaster 0x404 = true ∧ isStwMaster 0x420 = false ∧ (0x421 : BitVec 11) ≠ 0x420 ∧ up.pwr.closing = none ∧
    ({ up with pwr := { up.pwr with closing := some 15 } } : State).pwr.closing = some 15 ∧ (0x8000043F : Word).getLsbD 31 = true ∧
    (0x8000043F : Word).toNat % 2048 < 1088 ∧ up.guarded 5 = false ∧ (seated 5 .run).guarded 4 = true ∧ up.laneOn 1087 = true ∧
    (0x80000007 : Word).toNat % 2048 < 8 ∧ (fieldLanes 7).any up.guarded = false ∧ (fieldLanes 0).any (seated 5 .run).guarded = true ∧
    up.domOn (3 + 7) = true := by decide +kernel
theorem test_meets_vbat : State.reset.pwr.inReset = true ∧ up.pwr.inReset = false ∧ (∃ s : State, s.pwr.vbat = false) ∧ ∃ s : State, s.pwr.vbat = true :=
  ⟨rfl, rfl, ⟨{ up with pwr := { up.pwr with vbat := false } }, rfl⟩, ⟨{ up with pwr := { up.pwr with vbat := true } }, rfl⟩⟩
theorem test_meets_clocks : up.pwr.clk.getLsbD (Clock.bit (.qdr 0)) = false ∧ up.pwr.clk.getLsbD 1 = true ∧ up.pwr.clk.getLsbD 9 = true ∧
    up.domOn (11 + 4 % 4) = false ∧ (plug 5 id).domOn (11 + 4 % 4) = true ∧ (plug 5 id).domOn (15 + 1 % 2) = true ∧ 11 < 12 := by decide
/-- The watchdog of steward 0 counts 1 µs, in cycle `n`. -/
def dog (n : Nat) (ok : Bool) : State := { up with now := n, pwr := { up.pwr with wdtEn := true, wdtPer := 1 }, pair := { up.pair with stbyOk := ok } }
theorem test_meets_watchdog : (0x403 : BitVec 11).toNat = 0x400 + (3 : Word).toNat % 4 ∧ (0x404 : BitVec 11).toNat ≠ 0x400 + (0 : Word).toNat % 4 ∧
    (dog 1249 true).now < getN (dog 1249 true).pwr.kick 0 + 1250 * (dog 1249 true).pwr.wdtPer ∧
    getN (dog 1250 true).pwr.kick 0 + 1250 * (dog 1250 true).pwr.wdtPer ≤ (dog 1250 true).now ∧ (dog 0 true).svcPair.contains (1088 + 0) = true ∧
    (dog 0 true).svcPair.contains (1088 + 2) = false ∧ (dog 0 false).pair.stbyOk = false ∧ (dog 0 true).pair.stbyOk = true := by decide
theorem test_meets_temperature : up.pwr.warned = false ∧ up.pwr.tjWarn.toInt ≤ up.pwr.tjWarn.toInt ∧ (up.pwr.tjWarn - 1).toInt < up.pwr.tjWarn.toInt := by decide

/-- The host holds UART, I2C1, TICK_OUT at OFFSET 19,500 (with WIDTH 4), and timer 0 with its pin, in cycle `c` of a heat. -/
def desk (c : Nat) : State := ((((inHeat c).setClaim 0x20 ⟨true, 0x20, 0x420, 2⟩).setClaim 0x21 ⟨true, 0x21, 0x420, 0⟩).setClaim 0x23
  ⟨true, 0x23, 0x420, 0x04004C2C⟩).setClaim 0x28 ⟨true, 0x28, 0x420, 1⟩
theorem test_meets_uart : (desk 0).mayWrite 0x420 0x20 = true ∧ (desk 0).mayWrite 0x400 0x20 = false ∧ ([] : List Byte).length < 16 ∧
    16 ≤ (List.replicate 16 (0 : Byte)).length ∧ ((desk 0).claim 0x20).held = true ∧ (desk 0).per.rx = [] := by decide
theorem test_meets_i2c : (desk 0).mayWrite 0x420 0x21 = true ∧ (0x80000000 : Word).getLsbD 31 = true ∧ (desk 0).per.i2cBusy = false ∧
    (desk 0).mayWrite 0x404 0x21 = false ∧ (0xC0000000 : Word).getLsbD 30 = true := by decide
theorem test_meets_tmr : let s := (desk 0).setTmr 0 { tmrReset with en := true, mode := 3, cnt := tmrReset.cmp }
    (s.tmr 0).en = true ∧ (s.tmr 0).mode = 3 ∧ s.tmrPin 0 = true ∧ (s.tmr 0).cnt = (s.tmr 0).cmp := by decide
theorem test_meets_tick_out : let s := desk 19510
    (s.claim 0x23).held = true ∧ s.pacer.open_ = true ∧ s.pacer.state ≠ .stopped ∧ s.per.tickDone = false ∧ (s.claim 0x23).cfg.toNat % 16777216 < s.L ∧
    s.pacer.elapsed = ((s.claim 0x23).cfg.toNat % 16777216 + 10) % s.L := by decide

/-! ### One step: values that the spec's examples and rules work out -/

/-- The state that a step leaves with `c` in front of the queue of `s`. -/
def stepped (s : State) (c : Instr) : State :=
  match step { s with pending := [c] } with
  | .next t => t
  | _ => s
/-- Lane 5 with the ALU operand `o` and what it shows two cycles after `c`. -/
def alu (o : Word) (c : Instr) : Word :=
  (({ stepped (lan fun l => { l with u := { l.u with alu0o := o } }) c with now := up.now + 2 } : State).settle 5 |>.lane 5).u.alu0r
/-- Chapter 4's example: the low sum is smaller than an operand exactly when the addition wrapped. -/
theorem test_alu_carry : alu 0xFFFFFFF0 (.aluAdd 5 false 0x20) = 0x10 ∧ alu 0x10 (.aluLtu 5 false 0xFFFFFFF0) = 1 := by decide +kernel
theorem test_alu_shift_count : alu 0x80000001 (.aluShl 5 false 33) = 2 ∧ alu 0x80000001 (.aluSra 5 false 33) = 0xC0000000 := by decide +kernel
theorem test_alu_compare : alu 0xFFFFFFFF (.aluLt 5 false 0) = 1 ∧ alu 0xFFFFFFFF (.aluMax 5 false 0) = 0 := by decide +kernel
theorem test_alu_andn : alu 0xFF (.aluAndn 5 false 0x0F) = 0xF0 ∧ alu 0x80000001 (.aluRotl 5 false 1) = 3 := by decide +kernel
/-- The products of −1 and 2^32 − 1 (R98). -/
def product (c : Instr) : Word × Word :=
  let l := ({ stepped (lan fun l => { l with u := { l.u with mulo := 0xFFFFFFFF } }) c with now := up.now + 3 } : State).settle 5 |>.lane 5
  (l.u.mulLo, l.u.mulHi)
theorem test_mul_signs : product (.mulMul 5 0xFFFFFFFF) = (1, 0) ∧ product (.mulMulu 5 0xFFFFFFFF) = (1, 0xFFFFFFFE) ∧
    product (.mulMulsu 5 0xFFFFFFFF) = (1, 0xFFFFFFFF) := by decide +kernel
/-- binary32: 1.5 + 1.5 = 3; a NaN is not less than 0 and sets NV (R109). -/
theorem test_fpu : (fpuOp 0 0 0x3FC00000 0 0x3FC00000).1 = 0x40400000 ∧ (fpuOp 0 1 0x40000000 0 0x40400000).1 = 0x40C00000 := by decide +kernel
/-- Chapter 4's testbed encodings: 0xDC81_A8EE, and 0xD477_C831 of chapter 7, whose two moves depend on g0. -/
theorem test_move_word : (decodeMove ⟨0, none, none, none⟩ 0xDC81A8EE 1).moves = [⟨0x5C, .imm 1, none⟩, ⟨0x54, .port 0x77, none⟩] ∧
    (decodeMove ⟨0, none, none, none⟩ 0xDC8DA0EE 1).moves.map (fun m => m.dst) = [0x5C, 0x50] ∧
    (decodeMove ⟨0, none, none, none⟩ 0xD477C831 1).moves = [⟨0x54, .port 0x77, some (0, true)⟩, ⟨0x64, .port 0x18, some (0, true)⟩] := by decide
/-- Chapter 6's example: the frame of a stack that ends at 0xFC00 begins at 0xFB80. -/
theorem test_frame_address : frameAddr nullCap { rootCap 0xFC00 with base := 0xF400, limit := 0xFC00 } = 0xFB80 := by decide
/-- R214: the check of data bit 0 is 0x07, of bit 1 0x0B, of bit 31 0x62. -/
theorem test_relay_check : rlyCheck 1 = 0x07 ∧ rlyCheck 2 = 0x0B ∧ rlyCheck 0x80000000 = 0x62 := by decide
/-- Chapter 9's example: a rod of zeros with byte 31 = 1, and its correction. -/
theorem test_rod_code : rsCheck (List.replicate 31 0 ++ [1]) = [0x40, 0x78, 0x36, 0x0F] ∧
    (rodDecode (List.replicate 31 0 ++ [3] ++ [0x40, 0x78, 0x36, 0x0F])).1 = List.replicate 31 0 ++ [1] := by decide +kernel
/-- R345: the check value of CRC-32C over the characters 1 to 9. -/
theorem test_crc32c : crc32cFinal [0x31, 0x32, 0x33, 0x34, 0x35, 0x36, 0x37, 0x38, 0x39] = 0xE3069283 := by decide +kernel
/-- Chapter 13's example: rods ready at 1,246 enter from port 3 at 1,251 and arrive at 1,258. -/
theorem test_ingest_path : let s := { inHeat 1251 with now := 1251, ports := [(3, { portReset with q0 := [⟨0x80000348, 0, 1246, 0, none, 0, none⟩] })] }
    portReset.readyLc + 1200 = 1246 ∧ ((stepped s (.ingestRodEnter 3 false)).port 3).q0.map (fun x => x.due) = [1258] ∧
    ((stepped { s with pacer := { s.pacer with elapsed := 1250 } } (.ingestRodEnter 3 false)).port 3).q0.map (fun x => x.due) = [0] := by decide +kernel
theorem test_egress_element : wireLc 578 = 232 ∧ elemOutSeat 0x40500780 = 5 ∧ elemRod 0x40500780 = 0x780 ∧ elemSize 0x40500780 = 1 := by decide
/-- Chapter 19's example: PWR_REQ 0x0000_7800 closes the switch of D15 first; D11 to D14 stay off. -/
theorem test_power_request : (stepped up (.pwrReq 0x420 0x00007800)).pwr.closing = some 15 ∧
    (stepped up (.pwrReq 0x420 0x00007800)).pwr.off = 0x07800 ∧ State.reset.pwr.off = 0x1F800 := by decide +kernel
/-- Chapter 20's example: TICK_OUT cannot be claimed while GPIO5 is held, and pulses for 32 lc at gun + 19,510. -/
theorem test_tick_claim : let s := host.setClaim 5 ⟨true, 5, 0x420, 0⟩
    let t := stepped s (.resourceClaim (resource 0x23 1 0x04004C2C))
    t.hif.compl.map (fun c => (c.status, c.r0, c.r1)) = [(stClaimed, 0x420, 5)] := by decide +kernel
theorem test_tick_pulse : (stepped (desk 19510) .tickOutPulse).out = [.pin 5 32] ∧ (stepped (desk 19508) .tickOutPulse).out = [] := by decide +kernel

end Sys2Proof.Tests
end

section
/-! SUPPORT. What the pacer's commands do to its registers: events, planning of guns, references, circuits (R13–R24, R33–R35). -/

namespace Sys2Proof.Machine
open Sys2Proof

/-- Out of device reset a command answers what its meaning makes of the state. -/
theorem exec_of_live {c : Instr} {s t u : State} (h : s.pwr.inReset = false) (he : exec c s = .next (s.live t)) (ht : t = u) :
    exec c s = .next u := by rw [he, State.live_false _ _ h, ht]

/-! ### Events -/

@[simp] theorem State.pRaise_pacer (s : State) (k : Nat) :
    (s.pRaise k).pacer = { s.pacer with events := s.pacer.events ||| ((1 : BitVec 10) <<< k) } := by
  rw [State.pRaise, State.raise_pacer]; rfl

@[simp] theorem State.pRaise_now (s : State) (k : Nat) : (s.pRaise k).now = s.now := now_of_core (State.pRaise_core s k)

@[simp] theorem State.markUnsync_pacer (s : State) (b : Bool) : (s.markUnsync b).pacer = s.pacer := by
  simp [State.markUnsync]

theorem State.flywheel_pacer (s : State) :
    s.flywheel.pacer = { s.pacer.enter .flywheel with flyCnt := 0, events := s.pacer.events ||| 8 } := by
  rw [State.flywheel, State.pRaise_pacer]; rfl

theorem State.pRaise_event (s : State) {k : Nat} (h : k < 10) : (s.pRaise k).pacer.events.getLsbD k = true := by
  simp [h]

/-- A change of state with its event (R21, R35). -/
theorem State.enter_pRaise (s : State) (st : PState) {k : Nat} (h : k < 10) :
    (({ s with pacer := s.pacer.enter st } : State).pRaise k).pacer.state = st ∧
    (({ s with pacer := s.pacer.enter st } : State).pRaise k).pacer.events.getLsbD k = true :=
  ⟨by rw [State.pRaise_pacer]; rfl, State.pRaise_event _ h⟩

/-! ### Planning the next gun -/

/-- Planning moves the first gun, its number and the end of a rephase heat, and nothing else (R20, R497). -/
theorem Pacer.plan_frame (p : Pacer) (now : Nat) :
    ∃ f n r, p.plan now = { p with firstGun := f, firstNum := n, rephase := r } := by
  unfold Pacer.plan
  (repeat' split) <;> exact ⟨_, _, _, rfl⟩

/-- With no first gun that IEEE 1588 places and no rephase heat that a reference places, there is nothing to plan. -/
theorem Pacer.plan_unplaced (p : Pacer) (now : Nat) (hf : p.firstGun = none ∨ p.src ≠ 2) (hr : p.rephase = none ∨ p.refAt = none) :
    p.plan now = p := by
  unfold Pacer.plan
  split
  case h_1 c hc =>
    have hs : p.src ≠ 2 := hf.resolve_left (by simp [hc])
    rw [if_neg fun h => hs h.1]
  case h_2 =>
    split
    case h_1 h1 h2 => simp [h1, h2] at hr
    case h_2 => rfl

/-- A reference puts the gun less than L cycles beyond the end of the heat (R13, R17). -/
theorem Pacer.refAt_lt (p : Pacer) {f : Nat} (hL : 0 < p.heatLen) (h : p.refAt = some f) : f < p.heatLen := by
  have mod_lt (x : Int) : (x % (p.heatLen : Int)).toNat < p.heatLen := by
    have := Int.emod_nonneg x (b := p.heatLen) (by omega)
    have := Int.emod_lt_of_pos x (b := p.heatLen) (by omega)
    omega
  unfold Pacer.refAt at h
  split at h
  · split at h
    · injection h with h; exact h ▸ mod_lt _
    · cases h
  · split at h
    · obtain ⟨e, -, rfl⟩ := Option.map_eq_some_iff.mp h; exact mod_lt _
    · cases h

/-- A rephase heat stays one, of L to 2L − 1 lc (R20). -/
theorem Pacer.plan_rephase (p : Pacer) (now : Nat) {n : Nat} (h : p.rephase = some n) (h1 : p.heatLen ≤ n) (h2 : n < 2 * p.heatLen) :
    ∃ m, (p.plan now).rephase = some m ∧ p.heatLen ≤ m ∧ m < 2 * p.heatLen := by
  unfold Pacer.plan
  split
  · split <;> exact ⟨n, h, h1, h2⟩
  · split
    case h_1 f _ hf =>
      have := p.refAt_lt (by omega) hf
      split
      · exact ⟨_, rfl, by omega, by omega⟩
      · exact ⟨n, h, h1, h2⟩
    case h_2 => exact ⟨n, h, h1, h2⟩

/-! ### References -/

/-- The pacer with an edge recorded on input B or A (R14). -/
def Pacer.withEdge (p : Pacer) (b : Bool) (o : Int) : Pacer := if b then { p with edgeB := some o } else { p with edgeA := some o }

/-- The edge of this heat that input B or A has given. -/
def Pacer.edge (p : Pacer) (b : Bool) : Option Int := if b then p.edgeB else p.edgeA

/-- The other input is the only one in use (R13). -/
def Pacer.Unused (p : Pacer) (b : Bool) : Prop := p.inputs = if b then 1 else 2

/-- The first edge inside the window, on an input in use, is recorded. -/
theorem tickEdge_records (s : State) (b : Bool) (frac : BitVec 4) (hst : s.pacer.state ≠ .stopped) (hsrc : s.pacer.src = 1)
    (hin : ¬ s.pacer.Unused b) (hw : s.pacer.state = .acquire ∨ (s.pacer.edgeOfs frac).natAbs ≤ 16 * s.pacer.tickWin)
    (he : s.pacer.edge b = none) :
    tickEdge s b frac = { s with pacer := (s.pacer.withEdge b (s.pacer.edgeOfs frac)).plan s.now } := by
  have h1 : ¬ (s.pacer.state = .stopped ∨ s.pacer.src ≠ 1) := by simp [hst, hsrc]
  have h2 : ¬ ((b && decide (s.pacer.inputs = 1)) || (!b && decide (s.pacer.inputs = 2))) = true := by
    cases b <;> simpa [Pacer.Unused] using hin
  simp only [tickEdge]
  rw [if_neg h1, if_neg h2, if_pos hw]
  cases b <;> simp only [Pacer.edge, Bool.false_eq_true, if_false, if_true] at he <;> simp [he, Pacer.withEdge]

/-- An edge outside the window, a second one, and one without the reference selected change nothing. -/
theorem tickEdge_ignores (s : State) (b : Bool) (frac : BitVec 4)
    (h : s.pacer.state = .stopped ∨ s.pacer.src ≠ 1 ∨ (s.pacer.edge b).isSome = true ∨
      (s.pacer.state ≠ .acquire ∧ 16 * s.pacer.tickWin < (s.pacer.edgeOfs frac).natAbs)) : tickEdge s b frac = s := by
  simp only [tickEdge]
  split
  · rfl
  · rename_i h1
    have h2 := (h.resolve_left fun g => h1 (.inl g)).resolve_left fun g => h1 (.inr g)
    split
    · rfl
    · split
      · rename_i hw
        have h3 : (s.pacer.edge b).isSome = true := h2.resolve_right fun g => hw.elim g.1 (by omega)
        cases b <;> simp only [Pacer.edge, Bool.false_eq_true, if_false, if_true] at h3 <;> simp [h3]
      · rfl

/-- The first edge of a heat is the edge of its input; the other input and the rest of the device are as before. -/
theorem exec_tickEdge_records (s : State) (b : Bool) (frac : BitVec 4) (h : s.pwr.inReset = false) (hst : s.pacer.state ≠ .stopped)
    (hsrc : s.pacer.src = 1) (hin : ¬ s.pacer.Unused b)
    (hw : s.pacer.state = .acquire ∨ (s.pacer.edgeOfs frac).natAbs ≤ 16 * s.pacer.tickWin) (he : s.pacer.edge b = none) :
    (∃ t, exec (.tickEdge b frac) s = .next t ∧ t.pacer.edge b = some (s.pacer.edgeOfs frac) ∧
      t.pacer.edge (!b) = s.pacer.edge (!b) ∧ { t with pacer := s.pacer } = s) ∧
    (s.pacer.rephase = none →
      exec (.tickEdge b frac) s = .next { s with pacer := s.pacer.withEdge b (s.pacer.edgeOfs frac) }) := by
  rw [exec_of_live (c := .tickEdge b frac) h rfl (tickEdge_records s b frac hst hsrc hin hw he)]
  constructor
  · obtain ⟨f, n, r, hp⟩ := (s.pacer.withEdge b (s.pacer.edgeOfs frac)).plan_frame s.now
    rw [hp]
    refine ⟨_, rfl, ?_, ?_, rfl⟩ <;> cases b <;> rfl
  · intro hr
    have hu : (s.pacer.withEdge b (s.pacer.edgeOfs frac)).src ≠ 2 ∧ (s.pacer.withEdge b (s.pacer.edgeOfs frac)).rephase = none := by
      cases b <;> simp [Pacer.withEdge, hsrc, hr]
    rw [Pacer.plan_unplaced _ _ (.inr hu.1) (.inl hu.2)]

/-- A Sync of the domain and port of PTP_CFG reaches the clock, and no other does (R16). -/
theorem ptpSync_heard (s : State) (x : PtpTime) (ns : BitVec 30) (h : s.ptpHears x = true) :
    ptpSync s x ns = { s with pacer := s.pacer.sync s.now ((x.sec.toNat * 1000000000 + ns.toNat) * 5) } := by
  rw [ptpSync, if_pos h]

theorem ptpSync_unheard (s : State) (x : PtpTime) (ns : BitVec 30) (h : s.ptpHears x = false) : ptpSync s x ns = s := by
  simp [ptpSync, h]

/-- A Sync sets the disciplined clock and, with IEEE 1588 as source, the error of the last gun against it (R16, R17). -/
theorem Pacer.sync_frame (p : Pacer) (now t : Nat) :
    (p.sync now t).ptpT = t ∧ (p.sync now t).ptpSeen = true ∧ (p.sync now t).ptpNew = true ∧
    (p.src = 2 → p.open_ = true → p.firstGun = none →
      (p.sync now t).phaseErr = 4 * ((t : Int) - 4 * (p.elapsed : Int) - (p.target p.heatNum.toNat : Int))) := by
  simp only [Pacer.sync]
  obtain ⟨f, n, r, hp⟩ := Pacer.plan_frame _ now
  rw [hp]
  exact ⟨rfl, rfl, rfl, fun h1 h2 h3 => if_pos ⟨h1, h2, h3⟩⟩

/-- With another source a Sync sets the clock and nothing else. -/
theorem Pacer.sync_other (p : Pacer) (now t : Nat) (hs : p.src ≠ 2) (hr : p.rephase = none) :
    p.sync now t = { p with ptpT := t, ptpSeen := true, ptpNew := true } := by
  simp only [Pacer.sync]
  rw [if_neg fun h => hs h.1]
  exact Pacer.plan_unplaced _ _ (.inr hs) (.inl hr)

/-- The loss of the Sync reference in use (R18). -/
theorem pacerPtpLost_loses (s : State) (n : Nat) (h1 : s.pacer.src = 2) (h2 : s.pacer.state ≠ .stopped)
    (h3 : (s.pacer.ptpCfg.extractLsb' 4 4).toNat ≤ n) :
    (pacerPtpLost s (.intervals n)).pacer.ptpSeen = false ∧ (pacerPtpLost s (.intervals n)).pacer.events.getLsbD 7 = true ∧
    ((s.pacer.state = .acquire ∨ s.pacer.state = .locked) →
      (pacerPtpLost s (.intervals n)).pacer.state = .flywheel ∧ (pacerPtpLost s (.intervals n)).pacer.flyCnt = 0) := by
  simp only [pacerPtpLost, h1, h2, h3, ne_eq, not_false_eq_true, decide_true, and_self, if_true]
  split
  · rw [State.flywheel_pacer, State.pRaise_pacer]
    exact ⟨rfl, by simp, fun _ => ⟨rfl, rfl⟩⟩
  · rename_i hs
    exact ⟨by rw [State.pRaise_pacer], State.pRaise_event _ (by decide), fun h => absurd h hs⟩

/-! ### Registers with an effect -/

/-- Of a master that is no steward a register write of the pacer is refused (R33). -/
theorem pacer_writes_refused (s : State) (m : BitVec 11) (ph : Nat) (v : Word) (h : isStwMaster m = false) :
    pacerRun s m = s.pRefuse ∧ pacerStop s m = s.pRefuse ∧ rephaseOp s m ph = s.pRefuse ∧ applyHiWrite s m v = s.pRefuse := by
  simp [pacerRun, pacerStop, rephaseOp, applyHiWrite, h]

theorem pacerRun_starts (s : State) (m : BitVec 11) (h : isStwMaster m = true) (hr : s.pacer.run = false) :
    pacerRun s m = { s with pacer := s.pacer.start s.now } := by
  simp [pacerRun, h, hr]

theorem pacerStop_refused (s : State) (m : BitVec 11) (h : isStwMaster m = true) (hr : s.pacer.run = true)
    (hc : s.anyRunning = true) : pacerStop s m = s.pRefuse := by
  simp [pacerStop, h, hr, hc]

theorem pacerStop_stops (s : State) (m : BitVec 11) (h : isStwMaster m = true) (hr : s.pacer.run = true)
    (hc : s.anyRunning = false) :
    pacerStop s m = { s with pacer := { s.pacer.enter .stopped with run := false, firstGun := none, rephase := none } } := by
  simp [pacerStop, h, hr, hc]

theorem rephaseOp_asks (s : State) (m : BitVec 11) (ph : Nat) (h : isStwMaster m = true) (hl : s.anyLive = false)
    (hc : s.anyRunning = false) (h1 : s.pacer.state ≠ .stopped) (h2 : s.pacer.state ≠ .internal) :
    rephaseOp s m ph =
      { s with pacer := ({ s.pacer with rephase := some (s.pacer.heatLen + ph % s.pacer.heatLen) } : Pacer).plan s.now } := by
  simp [rephaseOp, h, hl, hc, h1, h2, State.L]

theorem applyHiWrite_arms (s : State) (m : BitVec 11) (v : Word) (h : isStwMaster m = true) :
    applyHiWrite s m v = { s with pacer := { s.pacer with applyHi := v, applyArmed := true } } := by
  simp [applyHiWrite, h]

/-! ### The two circuits -/

/-- The circuits differ in what they distribute (R24). -/
def CircDiffer (c0 c1 : CircView) : Prop :=
  c0.gun ≠ c1.gun ∨ c0.heatNum ≠ c1.heatNum ∨ c0.state ≠ c1.state ∨ c0.trim ≠ c1.trim

/-- The circuit whose gun and values stand: circuit 0, or circuit 1 when only circuit 0 carries a flag. -/
def soundCirc (c0 c1 : CircView) : CircView := if c0.flag = true ∧ c1.flag = false then c1 else c0

theorem pickCirc_soundCirc (c0 c1 : CircView) : (if pickCirc c0 c1 then c1 else c0) = soundCirc c0 c1 := by
  simp [pickCirc, soundCirc]

/-- The pacer after its first disagreement: the values of the sound circuit stand, the other is to be reloaded. -/
def Pacer.disagreed (p : Pacer) (now : Nat) (c0 c1 : CircView) : Pacer :=
  { p with
    heatNum := (soundCirc c0 c1).heatNum, state := PState.ofCode (soundCirc c0 c1).state.toNat
    trim := max (-100000) (min 100000 (soundCirc c0 c1).trim)
    circGun := if c0.gun != c1.gun && (soundCirc c0 c1).gun then some now else p.circGun
    flag0 := c0.flag, flag1 := c1.flag, lastDis := some (!pickCirc c0 c1, p.heatNum.toNat)
    reload := some !pickCirc c0 c1, single := false }

theorem pacerCircDisagree_equal (s : State) (c0 c1 : CircView) (h : ¬ CircDiffer c0 c1) : pacerCircDisagree s c0 c1 = s := by
  simp only [CircDiffer, ne_eq, not_or, not_not] at h
  simp [pacerCircDisagree, h]

theorem pacerCircDisagree_first (s : State) (c0 c1 : CircView) (hs : s.pacer.single = false) (h : CircDiffer c0 c1)
    (hl : s.pacer.lastDis = none) :
    pacerCircDisagree s c0 c1 = ({ s with pacer := s.pacer.disagreed s.now c0 c1 } : State).pRaise 8 := by
  have hd : ¬ (s.pacer.single = true ∨ (c0.gun = c1.gun ∧ c0.heatNum = c1.heatNum ∧ c0.state = c1.state ∧ c0.trim = c1.trim)) := by
    simp only [CircDiffer] at h
    simp only [hs, Bool.false_eq_true, false_or]
    tauto
  simp only [pacerCircDisagree]
  rw [if_neg hd]
  simp [hl, Pacer.disagreed, pickCirc_soundCirc]

/-- A gun that the count gives, or that the sound circuit asserts alone, is due after the disagreement. -/
theorem Pacer.disagreed_gunDue (p : Pacer) (now : Nat) (c0 c1 : CircView) (hr : p.run = true)
    (h : p.gunDue now = true ∨ (c0.gun ≠ c1.gun ∧ (soundCirc c0 c1).gun = true)) :
    (p.disagreed now c0 c1).gunDue now = true := by
  by_cases hg : c0.gun ≠ c1.gun ∧ (soundCirc c0 c1).gun = true
  · have hc : (p.disagreed now c0 c1).circGun = some now := if_pos (by simpa using hg)
    have hr' : (p.disagreed now c0 c1).run = true := hr
    simp [Pacer.gunDue, hc, hr']
  · have hc : (p.disagreed now c0 c1).circGun = p.circGun := if_neg (by simpa using hg)
    have hd : (p.disagreed now c0 c1).gunDue now = p.gunDue now := by simp only [Pacer.gunDue, hc]; rfl
    exact hd.trans (h.resolve_right hg)

/-- Outside the cool-down no circuit is reloaded. -/
theorem pacerCircReload_waits (s : State) (ok : Bool) (h : s.cooling = false) : pacerCircReload s ok = s := by
  cases hl : s.pacer.reload <;> simp [pacerCircReload, hl, h]

theorem pacerCircReload_succeeds (s : State) {k : Bool} (hl : s.pacer.reload = some k) (h : s.cooling = true) :
    pacerCircReload s true = { s with pacer := { s.pacer with reload := none } } := by
  simp [pacerCircReload, hl, h]

theorem pacerCircReload_fails (s : State) {k : Bool} (hl : s.pacer.reload = some k) (h : s.cooling = true) :
    pacerCircReload s false =
      ({ s with pacer := { s.pacer with reload := none, single := true, disabled := some k } } : State).pRaise 8 := by
  simp [pacerCircReload, hl, h]

end Sys2Proof.Machine
end

section
/-! SUPPORT. The clock of the device: what a command keeps of it, its reset state, the gun and one lane cycle (R10, R29, R31, R52). -/

namespace Sys2Proof.Machine
open Sys2Proof

/-- A command that keeps the clock keeps each of its parts. -/
theorem State.clock_of_grows {s t : State} (h : s.grows t) :
    t.now = s.now ∧ t.pwr.inReset = s.pwr.inReset ∧ t.pacer.heatNum = s.pacer.heatNum ∧ t.pacer.elapsed = s.pacer.elapsed ∧
      t.pacer.open_ = s.pacer.open_ := by
  have hc : (t.pending, t.now, t.pwr.inReset, t.pacer.heatNum, t.pacer.elapsed, t.pacer.open_) =
      (s.pending, s.now, s.pwr.inReset, s.pacer.heatNum, s.pacer.elapsed, s.pacer.open_) := h.1
  simp only [Prod.mk.injEq] at hc
  exact hc.2

/-! ### The reset state -/

/-- No lane is listed in the reset state: each is as lane reset leaves it. -/
theorem reset_lane (p : Nat) : State.reset.lane p = laneReset p := rfl

theorem laneReset_field {p : Nat} (h : p < 1088) : laneReset p = laneReset0 := if_pos h

theorem laneReset_steward {p : Nat} (h : 1088 ≤ p) : laneReset p =
    { laneReset0 with
      mode := .run, c := [(0, rootCap 0)], fcap := rootCap 0xF0000000
      ctl := { ctlReset with pc := 0xF0000000, restart := true }
      trap := { trapReset with mask := 0x10 }
      master := BitVec.ofNat 11 (0x400 + (p - 1088)) } := if_neg (by omega)

/-! ### The gun and the cycle -/

theorem Lane.startHeat_not_wait (l : Lane) (now : Nat) : (l.startHeat now).mode ≠ .wait := by
  unfold Lane.startHeat
  split
  · exact Mode.noConfusion
  · rename_i h; simpa using h

/-- A lane that lane reset leaves has no heat to start. -/
theorem laneReset_startHeat (p now : Nat) : (laneReset p).startHeat now = laneReset p := by
  unfold laneReset
  split <;> rfl

theorem State.startHeats_lane (s : State) (p : Nat) : s.startHeats.lane p = (s.lane p).startHeat s.now :=
  tget_tmap (fun _ l => Lane.startHeat l s.now) (fun k => laneReset_startHeat k s.now) s.lanes p

theorem State.pendInt_lane_other (s : State) {p q : Nat} (k : Nat) (h : q ≠ p) : (s.pendInt p k).lane q = s.lane q :=
  State.lane_setLane_other _ _ h

/-- Trap 36 is the stewards' alone. -/
theorem State.gunInts_field (s : State) {p : Nat} (h : p < 1088) : s.gunInts.lane p = s.lane p := by
  simp only [State.gunInts]
  repeat rw [State.pendInt_lane_other _ _ (by omega)]

/-- Starting the heats is the last that a gun does to a field lane: none still waits (R31). -/
theorem gun_field_not_wait (s : State) (h : s.pacer.gunDue s.now = true) {p : Nat} (hp : p < 1088) : ((gun s).lane p).mode ≠ .wait := by
  simp only [gun, h, Bool.not_true, Bool.false_eq_true, if_false]
  rw [State.gunInts_field _ hp]
  generalize State.powerGun _ = u
  rw [show u.startHeats.gunBlocks.lane p = u.startHeats.lane p from rfl, State.startHeats_lane]
  exact Lane.startHeat_not_wait _ _

/-- One lane cycle on the clock: out of device reset the cycle count advances, and in an open heat its cycle (R10). -/
theorem tick_clock (s : State) : (tick s).now = (if s.pwr.inReset then s.now else s.now + 1) ∧
    (tick s).pacer.heatNum = s.pacer.heatNum ∧
    (tick s).pacer.elapsed = (if s.pwr.inReset = false ∧ s.pacer.open_ = true then s.pacer.elapsed + 1 else s.pacer.elapsed) := by
  cases hr : s.pwr.inReset
  case true => simp [tick, hr]
  case false =>
    have hc : (tick s).core = ({ s with pwr := s.pwr.rtcTick, now := s.now + 1, pacer := s.pacer.tick } : State).core := by
      simp only [tick, Pwr.rtcTick_inReset, hr, Bool.false_eq_true, if_false, State.tickSecond_core, State.tickTimers_core,
        State.tickReady_core]
    obtain ⟨hn, -, hh, he, -⟩ := State.clock_of_grows (State.grows_of_core hc)
    exact ⟨by simpa using hn, hh, by simpa [Pacer.tick] using he⟩

end Sys2Proof.Machine
end

section
/-! The statements about the heat and the pacer, settled. -/

namespace Sys2Proof.Machine
open Sys2Proof

/-- Settles O6. Every command runs to a next state that keeps the queue, and one that does not move the clock keeps all of
`State.core` but the fuses and the lifecycle record (`exec_fuses`). -/
theorem commandsAlwaysCompleteAndKeepTheQueue : Obligations.CommandsAlwaysCompleteAndKeepTheQueue := fun c s =>
  have ⟨t, he, hf, hg⟩ := exec_fuses c s
  ⟨t, he, hf.1, fun hm => State.clock_of_grows (hg hm)⟩

/-- Settles O1: a step takes the command off the queue and runs it. -/
theorem stepRunsTheFrontCommand : Obligations.StepRunsTheFrontCommand := fun _ _ => rfl

/-- Settles O2: no table of the reset state lists anything, so every entry reads as its unlisted value. -/
theorem resetStateHoldsTheSpecValues : Obligations.ResetStateHoldsTheSpecValues := by
  unfold Obligations.ResetStateHoldsTheSpecValues
  refine ⟨by decide, ?field, ?steward, fun _ _ => rfl, fun _ => rfl, fun _ => ⟨rfl, rfl, rfl⟩, fun _ => ⟨rfl, rfl, rfl, rfl⟩,
    fun _ => ⟨rfl, rfl⟩, rfl, rfl, rfl, rfl, fun _ => ⟨rfl, rfl, rfl⟩⟩
  case field =>
    intro p hp
    rw [reset_lane, laneReset_field hp]
    exact ⟨rfl, fun _ => rfl, rfl, fun _ => rfl, rfl, rfl, rfl⟩
  case steward =>
    intro p hp _
    rw [reset_lane, laneReset_steward hp]
    exact ⟨rfl, rfl, rfl⟩

/-- Settles O7, from what the gun makes of the clock (`gun_core`) and of the field lanes, and from one cycle of the clock. -/
theorem gunStartsTheHeat : Obligations.GunStartsTheHeat := by
  unfold Obligations.GunStartsTheHeat
  refine ⟨?due, ?idle, ?cycle⟩
  case due =>
    intro s hr hd
    have hc : ((gun s).pending, (gun s).now, (gun s).pwr.inReset, (gun s).pacer.heatNum, (gun s).pacer.elapsed, (gun s).pacer.open_) =
        (s.pending, s.now, s.pwr.inReset, s.pacer.nextNum, 0, true) := (gun_core s hd).1
    simp only [Prod.mk.injEq] at hc
    obtain ⟨hp, hn, -, hh, he, ho⟩ := hc
    exact ⟨gun s, exec_of_live hr rfl rfl, hh, he, ho, hn, hp, fun _ => gun_field_not_wait s hd⟩
  case idle => exact fun s hr hd => exec_of_live hr rfl (gun_idle s hd)
  case cycle => exact fun s hs => ⟨tick s, by rw [step, hs], tick_clock s⟩

/-- Settles O39, clause by clause from what each command does to the pacer. -/
theorem pacerReferencesAndRegisters : Obligations.PacerReferencesAndRegisters := by
  unfold Obligations.PacerReferencesAndRegisters
  refine ⟨fun s frac y ns n hr => ⟨?edgeA, ?edgeB, ?ignored, ?unheard, ?heard, ?lost⟩,
    fun s m ph v hr => ⟨?foreign, ?run, ?refused, ?stop, ?rephase, ?apply, ?read⟩⟩
  case edgeA => exact exec_tickEdge_records s false frac hr
  case edgeB => exact exec_tickEdge_records s true frac hr
  case ignored => exact fun b h => exec_of_live hr rfl (tickEdge_ignores s b frac h)
  case unheard => exact fun hh => exec_of_live hr rfl (ptpSync_unheard s y ns hh)
  case heard =>
    intro hh
    rw [exec_of_live (c := .ptpSync y ns) hr rfl (ptpSync_heard s y ns hh)]
    obtain ⟨ht, hs, hn, he⟩ := s.pacer.sync_frame s.now ((y.sec.toNat * 1000000000 + ns.toNat) * 5)
    exact ⟨⟨_, rfl, ht, hs, hn, he, rfl⟩, fun h1 h2 => by rw [Pacer.sync_other _ _ _ h1 h2]⟩
  case lost => exact fun h1 h2 h3 => ⟨_, exec_of_live hr rfl rfl, pacerPtpLost_loses s n h1 h2 h3⟩
  case foreign =>
    intro hm
    obtain ⟨h1, h2, h3, h4⟩ := pacer_writes_refused s m ph v hm
    exact ⟨exec_of_live hr rfl h1, exec_of_live hr rfl h2, exec_of_live hr rfl h3, exec_of_live hr rfl h4⟩
  case run => exact fun hm h => ⟨_, exec_of_live hr rfl (pacerRun_starts s m hm h), rfl, rfl, rfl⟩
  case refused => exact fun hm h hc => exec_of_live hr rfl (pacerStop_refused s m hm h hc)
  case stop => exact fun hm h hc => ⟨_, exec_of_live hr rfl (pacerStop_stops s m hm h hc), rfl, rfl, rfl, rfl⟩
  case rephase =>
    intro hm hl hc h1 h2
    rw [exec_of_live (c := .rephase m ph) hr rfl (rephaseOp_asks s m ph hm hl hc h1 h2)]
    constructor
    · intro hL
      have hmod := Nat.mod_lt ph hL
      obtain ⟨n, hn, h3, h4⟩ := Pacer.plan_rephase { s.pacer with rephase := some (s.pacer.heatLen + ph % s.pacer.heatLen) } s.now rfl
        (Nat.le_add_right _ _) (show _ < 2 * s.pacer.heatLen by omega)
      exact ⟨_, n, rfl, hn, h3, h4, rfl⟩
    · intro ha hf
      have hp := Pacer.plan_unplaced { s.pacer with rephase := some (s.pacer.heatLen + ph % s.pacer.heatLen) } s.now
        (.inl hf) (.inr ha)
      rw [hp]
  case apply => exact fun hm => exec_of_live hr rfl (applyHiWrite_arms s m v hm)
  case read => exact exec_of_live hr rfl rfl

/-- Settles O40, from the condition of each state change and from the first disagreement of the circuits. -/
theorem pacerStatesAndCircuits : Obligations.PacerStatesAndCircuits := by
  unfold Obligations.PacerStatesAndCircuits
  refine ⟨fun s hr => ⟨?locked, ?notLocked, ?unlock, ?notUnlock, ?reacquire, ?notReacquire, ?freerun, ?notFreerun⟩,
    fun s c0 c1 k hr => ⟨?equal, ?differ, ?reloaded, ?failed, ?warm⟩⟩
  case locked =>
    intro h1 h2
    refine ⟨_, exec_of_live hr rfl (if_pos ⟨h1, h2⟩), ?_⟩
    rw [State.markUnsync_pacer]
    exact s.enter_pRaise _ (by decide)
  case unlock => exact fun h1 h2 => ⟨_, exec_of_live hr rfl (if_pos ⟨h1, h2⟩), s.enter_pRaise _ (by decide)⟩
  case reacquire => exact fun h1 h2 => exec_of_live hr rfl (if_pos ⟨h1, h2⟩)
  case freerun =>
    intro h1 h2
    refine ⟨_, exec_of_live hr rfl (if_pos ⟨h1, h2⟩), ?_⟩
    rw [State.markUnsync_pacer]
    exact s.enter_pRaise _ (by decide)
  case notLocked => exact fun h => exec_of_live hr rfl (if_neg h)
  case notUnlock => exact fun h => exec_of_live hr rfl (if_neg h)
  case notReacquire => exact fun h => exec_of_live hr rfl (if_neg h)
  case notFreerun => exact fun h => exec_of_live hr rfl (if_neg h)
  case equal =>
    intro h1 h2 h3 h4
    refine exec_of_live hr rfl (pacerCircDisagree_equal s c0 c1 ?_)
    simp [CircDiffer, h1, h2, h3, h4]
  case differ =>
    intro h1 h2 h3
    refine ⟨_, exec_of_live hr rfl (pacerCircDisagree_first s c0 c1 h1 h2 h3), ?_⟩
    have he := State.pRaise_event { s with pacer := s.pacer.disagreed s.now c0 c1 } (k := 8) (by decide)
    rw [State.pRaise_now]
    rw [State.pRaise_pacer] at he ⊢
    exact ⟨rfl, rfl, rfl, he, rfl, rfl, fun h4 h5 => s.pacer.disagreed_gunDue s.now c0 c1 h4 h5⟩
  case reloaded => exact fun h1 h2 => exec_of_live hr rfl (pacerCircReload_succeeds s h1 h2)
  case failed =>
    intro h1 h2
    refine ⟨_, exec_of_live hr rfl (pacerCircReload_fails s h1 h2), ?_⟩
    rw [State.pRaise_pacer]
    exact ⟨rfl, rfl, rfl⟩
  case warm =>
    exact fun h => ⟨exec_of_live hr rfl (pacerCircReload_waits s true h),
      exec_of_live hr rfl (pacerCircReload_waits s false h)⟩

end Sys2Proof.Machine
end

section
/-! SUPPORT. What brings a lane to the present cycle: results delivered in order, and a quiet lane left alone (R44, R45, R48). -/

namespace Sys2Proof.Machine
open Sys2Proof

/-! ### Results in flight -/

theorem mem_addLast (f : Flight) (fs : List Flight) : f ∈ addLast f fs := by
  induction fs with
  | nil => exact List.mem_singleton_self f
  | cons g r ih =>
    unfold addLast
    split
    · exact List.mem_cons_of_mem g ih
    · exact List.mem_cons_self

theorem Lane.mem_flight_fly (l : Lane) (d k : Nat) (r : Res) : ⟨d, k, r⟩ ∈ (l.fly d k r).flight := mem_addLast _ _

theorem Lane.fly_flight_of_none {l : Lane} (h : l.flight = []) (d k : Nat) (r : Res) : (l.fly d k r).flight = [⟨d, k, r⟩] := by
  simp [Lane.fly, h, addLast]

/-- Of two results due in one cycle the later operation stands behind the earlier. -/
theorem Lane.fly_fly_flight_of_none {l : Lane} (h : l.flight = []) (d k : Nat) (r r2 : Res) :
    ((l.fly d k r).fly d k r2).flight = [⟨d, k, r⟩, ⟨d, k, r2⟩] := by
  simp [Lane.fly, h, addLast]

/-- Before the first of its results is due, nothing is delivered (R45). -/
theorem Lane.deliverTo_early (l : Lane) (u : Nat) (h : ∀ f ∈ l.flight, u < f.due) : l.deliverTo u = l := by
  cases hf : l.flight with
  | nil => simp only [Lane.deliverTo, hf, List.takeWhile_nil, List.dropWhile_nil, List.foldl_nil]; rw [← hf]
  | cons f r =>
    have hu : ¬ f.due ≤ u := Nat.not_le.mpr (h f (by simp [hf]))
    simp only [Lane.deliverTo, hf, List.takeWhile_cons, List.dropWhile_cons, hu, decide_false, Bool.false_eq_true, if_false,
      List.foldl_nil]
    rw [← hf]

/-- Once the last of its results is due, all are delivered. -/
theorem Lane.deliverTo_all (l : Lane) (u : Nat) (h : ∀ f ∈ l.flight, f.due ≤ u) : l.deliverTo u = l.deliverAll := by
  have ht : l.flight.takeWhile (fun f => decide (f.due ≤ u)) = l.flight := List.takeWhile_eq_self_iff.mpr (by simpa using h)
  have hd : l.flight.dropWhile (fun f => decide (f.due ≤ u)) = [] := List.dropWhile_eq_nil_iff.mpr (by simpa using h)
  rw [Lane.deliverTo, ht, hd, Lane.deliverAll]

theorem Lane.settle_of_no_moves {l : Lane} (h : l.rly.moves = []) (u : Nat) : l.settle u = l.deliverTo u := by
  simp only [Lane.settle, h, List.filter_nil, List.foldl_nil]
  rw [← h]

/-- A lane on which no word has arrived, and whose results are all due, takes them in order. -/
theorem Lane.settle_all {l : Lane} (hm : l.rly.moves = []) {u : Nat} (h : ∀ f ∈ l.flight, f.due ≤ u) :
    l.settle u = l.deliverAll :=
  (Lane.settle_of_no_moves hm u).trans (l.deliverTo_all u h)

section
variable {l : Lane} (hf : l.flight = []) (hm : l.rly.moves = []) {d u : Nat} (k : Nat) (r r2 : Res)
include hf hm

/-- A lane with nothing in flight takes one result that is due. -/
theorem Lane.settle_fly (hd : d ≤ u) : (l.fly d k r).settle u = l.deliver r := by
  have hfly := Lane.fly_flight_of_none hf d k r
  rw [Lane.settle_all (l := l.fly d k r) hm (by simp [hfly, hd]), Lane.deliverAll, hfly]
  simp only [List.foldl_cons, List.foldl_nil, Lane.fly]
  rw [← hf]

/-- A lane with nothing in flight takes two results that are due in the order of their operations. -/
theorem Lane.settle_fly_fly (hd : d ≤ u) : ((l.fly d k r).fly d k r2).settle u = (l.deliver r).deliver r2 := by
  have hfly := Lane.fly_fly_flight_of_none hf d k r r2
  rw [Lane.settle_all (l := (l.fly d k r).fly d k r2) hm (by simp [hfly, hd]), Lane.deliverAll, hfly]
  simp only [List.foldl_cons, List.foldl_nil, Lane.fly]
  rw [← hf]

/-- A lane with nothing in flight keeps a result that is not yet due. -/
theorem Lane.settle_fly_early (hd : u < d) : (l.fly d k r).settle u = l.fly d k r := by
  rw [Lane.settle_of_no_moves (l := l.fly d k r) hm, Lane.deliverTo_early _ _ (by simp [Lane.fly_flight_of_none hf, hd])]
end

/-! ### A quiet lane -/

theorem Lane.noteShown_of_no_flight {l : Lane} (h : l.flight = []) (now : Nat) : l.noteShown now = l := by
  simp only [Lane.noteShown, h, List.filter_nil, List.foldl_nil]
  rw [← h]

/-- A boundary that is not reached is not passed. -/
theorem Lane.passBoundary_ahead {l : Lane} {now : Nat} (h : ∀ b, l.ctl.bnd = some b → now < b) : l.passBoundary now = l := by
  unfold Lane.passBoundary
  split
  · rename_i b hb
    have hn : ¬ b ≤ now := Nat.not_le.mpr (h b hb)
    simp [hn]
  · rfl

theorem Lane.armTrap_of_no_trap {l : Lane} (h : l.trap.due = none) (now : Nat) (heat : Word) (cyc : Nat) :
    l.armTrap now heat cyc = l := by
  simp [Lane.armTrap, h]

/-- Bringing a quiet lane to the present cycle writes it back as it is. -/
theorem State.settle_quiet {s : State} {p : Nat} (hf : (s.lane p).flight = []) (hm : (s.lane p).rly.moves = [])
    (hl : (s.lane p).lsu.force = []) (ht : (s.lane p).trap.due = none) (hr : (s.lane p).trap.ret = none)
    (hp : (s.lane p).trap.push = none) (hb : ∀ b, (s.lane p).ctl.bnd = some b → s.now < b) :
    s.settle p = s.setLane p (s.lane p) := by
  have hs : (s.lane p).settle s.now = s.lane p := by
    rw [Lane.settle_of_no_moves hm, Lane.deliverTo_early _ _ (by simp [hf])]
  have hbuf : s.settleBuf p = s.setLane p (s.lane p) := by
    simp [State.settleBuf, Lane.noteShown_of_no_flight hf, Lane.passBoundary_ahead hb, Lane.armTrap_of_no_trap ht, hr, hs, hl]
  simp [State.settle, hbuf, State.retAdvance, State.entryAdvance, State.pushAdvance, hr, ht, hp]

end Sys2Proof.Machine
end

section
/-! SUPPORT. The commands of a lane: the checks of a single move and the trap that a failing check raises, transfers, writes of
system registers, and self-check events (R53, R56, R65, R71, R160, R174, R177, R185). -/

namespace Sys2Proof.Machine
open Sys2Proof

/-- An immediate moved below port 0x78 needs no permission (R174). -/
theorem portCheck_imm (l0 l : Lane) {d : Nat} (hd : d < 0x78) (v : Word) (g : Option (Nat × Bool)) :
    portCheck l0 l ⟨d, .imm v, g⟩ = none := by
  have h1 : d ≠ 0x78 := by omega
  have h2 : ¬ 0x7B ≤ d := by omega
  have h3 : d ≠ 0x7F := by omega
  simp [portCheck, Mv.reads, within, h1, h2, h3]

/-- Of an immediate moved below port 0x78 only the unit's own checks are made. -/
theorem moveChecks_imm (p : Nat) (l0 l : Lane) {d : Nat} (hd : d < 0x78) (v : Word) (g : Option (Nat × Bool)) :
    moveChecks p l0 l [(⟨d, .imm v, g⟩, v)] = unitCheck p l d v := by
  simp only [moveChecks, portCheck_imm l0 l hd]
  cases unitCheck p l d v <;> rfl

/-- `sys.wr` needs SYS in `fcap` for the registers 0x40 to 0xFF, and has no other check (R66, R174). -/
theorem moveChecks_sysWr (p : Nat) (l : Lane) (v : Word) : moveChecks p l l [(⟨0x7F, .imm v, none⟩, v)] =
    if needsSys l.u.syssel = true ∧ l.fcap.perm permSYS = false then some permTrap else none := by
  have hp : portCheck l l ⟨0x7F, .imm v, none⟩ =
      if needsSys l.u.syssel = true ∧ l.fcap.perm permSYS = false then some permTrap else none := by
    simp [portCheck, Mv.reads, within]
  have hu : unitCheck p l 0x7F v = none := rfl
  simp only [moveChecks, hp, hu]
  split <;> simp_all

/-- A trap below 64 is raised with the instruction itself as return point (R185). -/
theorem State.instrTrap_at_instr {s : State} {p : Nat} {t : TrapSpec} (h8 : (s.lane p).trap.load8 = none) (ht : t.n < 64)
    (next : Word) : s.instrTrap p t next =
      s.setLane p ((s.lane p).raiseTrap t (s.lane p).retPoint.1 (s.lane p).retPoint.2 (s.now + 1)) := by
  simp [State.instrTrap, h8, Nat.not_le.mpr ht]

/-- A software trap is raised with the following instruction as return point (R185, R190). -/
theorem State.instrTrap_software {s : State} {p : Nat} {t : TrapSpec} (h8 : (s.lane p).trap.load8 = none) (ht : 64 ≤ t.n)
    (next : Word) : s.instrTrap p t next = s.setLane p ((s.lane p).raiseTrap t next none (s.now + 1)) := by
  simp [State.instrTrap, h8, ht]

section
variable {c : Instr} {s : State} {p d : Nat} {v : Word} {t : TrapSpec}
  (he : exec c s = .next (s.live (trigger s p d v))) (hr : s.pwr.inReset = false) (hs : (s.laneNow p).stopped = false)
  (hx : ((s.laneNow p).ctl.xfer.isSome && slotForbidden d) = false) (h8 : (s.laneNow p).trap.load8 = none)
  (hc : moveChecks p (s.laneNow p) (s.laneNow p) [(⟨d, .imm v, none⟩, v)] = some t)
include he hr hs hx h8 hc

/-- A trigger whose check fails raises the trap of the check, with the instruction itself as return point, and does nothing else. -/
theorem exec_trigger_traps (ht : t.n < 64) : ∃ r, exec c s = .next r ∧ (s.settle p).LaneOnly r p
    ((s.laneNow p).raiseTrap t (s.laneNow p).retPoint.1 (s.laneNow p).retPoint.2 ((s.settle p).now + 1)) :=
  ⟨_, exec_of_live hr he ((trigger_trap s p d v t hs hx hc).trans (State.instrTrap_at_instr h8 ht _)),
    State.laneOnly_setLane _ _ _⟩

/-- A trigger that raises a software trap does nothing else; the following instruction is the return point. -/
theorem exec_trigger_software (ht : 64 ≤ t.n) : ∃ r, exec c s = .next r ∧ (s.settle p).LaneOnly r p
    ((s.laneNow p).raiseTrap t (s.laneNow p).ctl.pc none ((s.settle p).now + 1)) :=
  ⟨_, exec_of_live hr he ((trigger_trap s p d v t hs hx hc).trans (State.instrTrap_software h8 ht _)),
    State.laneOnly_setLane _ _ _⟩
end

/-- A compute trigger with a reserved mode is refused with trap 1 (R101, R112). -/
theorem unitCheck_reserved (p : Nat) (l : Lane) {d : Nat} (v : Word) (h : computeIllegal l.u d = true) :
    unitCheck p l d v = some trap1 := by
  simp [unitCheck, h]

/-- `trap.t` names its own trap from 64 to 255, and is trap 1 otherwise (R190). -/
theorem unitCheck_trapT (p : Nat) (l : Lane) (v : Word) :
    unitCheck p l 0x70 v = some (if within v.toNat 64 255 then ⟨v.toNat, 0, 0, 0⟩ else trap1) := rfl

/-- `mac.fK` and `mac.set` are refused while `mac.mode` is reserved (R112). -/
theorem computeIllegal_mac (u : Units) {d : Nat} (hd : (0x52 ≤ d ∧ d ≤ 0x55) ∨ d = 0x57) :
    computeIllegal u d = macIllegal u.macmode := by
  have h1 : ¬ (0x4A ≤ d ∧ d ≤ 0x4E) := by omega
  simp only [computeIllegal, if_neg h1, if_pos hd]

/-- The FPU triggers are refused while `fpu.mode` is reserved for their operation (R101). -/
theorem computeIllegal_fpu (u : Units) {k : Nat} (hk : k ≤ 4) : computeIllegal u (0x4A + k) = fpuIllegal u.fmode k := by
  have h1 : 0x4A ≤ 0x4A + k ∧ 0x4A + k ≤ 0x4E := by omega
  simp only [computeIllegal, if_pos h1, Nat.add_sub_cancel_left]

/-- A jump, call or return outside a delay slot whose checks pass is taken, and nothing else happens (R53). -/
theorem laneDoes_transfer (c : Instr) (p : Nat) {k : Nat} (t : Word) (ok : Lane → Prop) (hk : k ≤ 2)
    (he : ∀ s, exec c s = .next (s.live (trigger s p (0x64 + k) t)))
    (hok : ∀ l, ok l → l.ctl.xfer = none ∧ transferCheck p l k t = none) :
    LaneDoes c p (0x64 + k) ok (fun now l => l.take now k t) := by
  have h1 : 0x64 ≤ 0x64 + k ∧ 0x64 + k ≤ 0x66 := by omega
  have h2 : ¬ (0x5C ≤ 0x64 + k ∧ 0x64 + k ≤ 0x62) := by omega
  refine laneDoes_of c p _ t ok _ he (by omega) (fun l h => by simp [(hok l h).1]) (fun l h => ?checks) (fun u l _ _ => ?fires)
  case checks =>
    rw [moveChecks_imm p l l (by omega)]
    have hi : computeIllegal l.u (0x64 + k) = false := by
      simp only [computeIllegal]; rw [if_neg (by omega), if_neg (by omega)]
    simp only [unitCheck, hi, Bool.false_eq_true, if_false, if_neg h2, if_pos h1, Nat.add_sub_cancel_left]
    exact (hok l h).2
  case fires =>
    simp only [State.fire, if_neg h2, if_pos h1, Nat.add_sub_cancel_left]
    unfold State.fireLate
    split <;> first | omega | rfl

/-! ### System registers -/

/-- The indices at which a write of a system register has an effect: the RW and W1C registers of R71. -/
def sysWritable (i : Nat) : Bool :=
  within i 0x20 0x2F || within i 0x58 0x5F || within i 0x120 0x127 || within i 0x100 0x117 ||
    decide (i ∈ [0x011, 0x030, 0x048, 0x049, 0x050, 0x051, 0x052, 0x080, 0x081, 0x082, 0x090, 0x0C0, 0x0C1])

/-- A write to a read-only or reserved index is ignored (R65). -/
theorem sysWrite_ignored (l : Lane) {i : Nat} (v : Word) (at_ : Nat) (h : sysWritable i = false) : sysWrite l i v at_ = l := by
  simp only [sysWritable, within, Bool.or_eq_false_iff, Bool.and_eq_false_iff, decide_eq_false_iff_not] at h
  obtain ⟨⟨⟨⟨h1, h2⟩, h3⟩, h4⟩, h5⟩ := h
  unfold sysWrite
  rw [if_neg (by omega), if_neg (by omega), if_neg (by omega)]
  split <;> first | rfl | simp at h4 h5

/-! ### Self-check events -/

theorem Lane.selfCheck_spl (l : Lane) (now : Nat) :
    (l.selfCheck now).spl = { l.spl with flag := true, schkEvt := true, schkCnt := sat1 l.spl.schkCnt } := by
  simp only [Lane.selfCheck]
  split <;> rfl

/-- Where it is enabled, a self-check event raises trap 9 for the next cycle (R161). -/
theorem Lane.selfCheck_trap {l : Lane} (h : l.spl.schkTrap = true) (now : Nat) :
    ⟨now + 1, 13, .schk9⟩ ∈ (l.selfCheck now).flight := by
  simp only [Lane.selfCheck, h, if_true]
  exact Lane.mem_flight_fly _ _ _ _

/-- A lane held in reset or fenced reports no self-check event. -/
theorem resultReady_off {s : State} {p : Nat} (h : (s.laneNow p).mode = .held ∨ (s.laneNow p).mode = .fenced) (c : LaneCheck) :
    resultReady s p c = s.settle p := by
  simp only [State.laneNow] at h
  rcases h with h | h <;> simp [resultReady, h]

theorem resultReady_agree (s : State) (p : Nat) : resultReady s p .agree = s.settle p := by
  simp only [resultReady, ite_self]

/-- With no result that became readable in this cycle no check of a result is made (R120). -/
theorem resultReady_nothing_shown {s : State} {p : Nat} (h : (s.laneNow p).ctl.shownAt ≠ (s.settle p).now + 1) :
    resultReady s p .result = s.settle p := by
  simp only [State.laneNow] at h
  simp only [resultReady, if_neg h, ite_self]

section
variable {s : State} {p : Nat} {c : LaneCheck} (hh : (s.laneNow p).mode ≠ .held) (hf : (s.laneNow p).mode ≠ .fenced)
  (hc : c = .storage ∨ c = .result ∧ (s.laneNow p).ctl.shownAt = (s.settle p).now + 1)
include hh hf hc

/-- A check that disagrees is a self-check event of the lane (R120, R160, R239). -/
theorem resultReady_disagrees :
    resultReady s p c = (s.settle p).setLane p ((s.laneNow p).selfCheck (s.settle p).now) := by
  simp only [State.laneNow] at hh hf hc ⊢
  rcases hc with rfl | ⟨rfl, hc⟩ <;> simp [resultReady, *]

/-- It is flagged and counted on that lane, and raises trap 9 where that is enabled (R160, R161). -/
theorem exec_resultReady_event (hr : s.pwr.inReset = false) : ∃ r, exec (.resultReady p c) s = .next r ∧
    (s.settle p).LaneOnly r p ((s.laneNow p).selfCheck (s.settle p).now) ∧ (r.lane p).spl.flag = true ∧
    (r.lane p).spl.schkEvt = true ∧ (r.lane p).spl.schkCnt = sat1 (s.laneNow p).spl.schkCnt ∧
    ((s.laneNow p).spl.schkTrap = true → ⟨(s.settle p).now + 1, 13, .schk9⟩ ∈ (r.lane p).flight) := by
  refine ⟨_, exec_of_live hr rfl (resultReady_disagrees hh hf hc), State.laneOnly_setLane _ _ _, ?_⟩
  simp only [State.lane_setLane_same, Lane.selfCheck_spl, true_and]
  exact fun h => Lane.selfCheck_trap h _
end

end Sys2Proof.Machine
end

section
/-! SUPPORT. A word that moves an immediate to a general register: its plan, its acting and its completion (R36, R44, R53, R60). -/

namespace Sys2Proof.Machine
open Sys2Proof

/-! ### States that differ in one lane -/

theorem State.LaneOnly.setLane {u t : State} {p : Nat} {l : Lane} (h : u.LaneOnly t p l) (m : Lane) :
    u.LaneOnly (t.setLane p m) p m := by
  obtain ⟨_, hother, hrest⟩ := h
  exact ⟨State.lane_setLane_same .., fun q hq => (State.lane_setLane_other t m hq).trans (hother q hq), hrest⟩

theorem State.LaneOnly.trans {u t r : State} {p : Nat} {l m : Lane} (h : u.LaneOnly t p l) (h' : t.LaneOnly r p m) :
    u.LaneOnly r p m := by
  obtain ⟨_, hother, hrest⟩ := h
  obtain ⟨hl, hother', hrest'⟩ := h'
  exact ⟨hl, fun q hq => (hother' q hq).trans (hother q hq), hrest'.trans hrest⟩

/-! ### Ports below 32 -/

/-- No trigger that acts after the other moves of its word is a general register. -/
theorem lateDsts_register {k : Nat} (hk : k < 32) (v : Word) (g : Option (Nat × Bool)) :
    lateDsts [(⟨k, .imm v, g⟩, v)] = [] := by
  have h1 : k ≠ 0x67 := by omega
  have h2 : k ≠ 0x7D := by omega
  have h3 : k ≠ 0x68 := by omega
  have h4 : k ≠ 0x71 := by omega
  simp [lateDsts, h1, h2, h3, h4]

theorem isStoreTrig_register {k : Nat} (hk : k < 32) : isStoreTrig k = false := by
  simp [isStoreTrig]; omega

theorem Lane.fireCompute_register (l : Lane) (now : Nat) {k : Nat} (hk : k < 32) (v : Word) : l.fireCompute now k v = l := by
  unfold Lane.fireCompute
  repeat rw [if_neg (by omega)]

/-- A general register is no trigger: step 3 of R44 does nothing there. -/
theorem State.fire_register (s : State) (p : Nat) {k : Nat} (hk : k < 32) (v : Word) : s.fire p k v = s.setLane p (s.lane p) := by
  unfold State.fire
  rw [if_neg (by omega), if_neg (by omega)]
  split <;> first | omega | rw [Lane.fireCompute_register _ _ hk]

theorem Lane.writePort_register (l : Lane) {k : Nat} (hk : k < 32) (v : Word) : l.writePort k v = { l with w := putW l.w k v } :=
  if_pos hk

theorem unitCheck_register (p : Nat) (l : Lane) {k : Nat} (hk : k < 32) (v : Word) : unitCheck p l k v = none := by
  have hi : computeIllegal l.u k = false := by
    unfold computeIllegal
    rw [if_neg (by omega), if_neg (by omega)]
  unfold unitCheck
  rw [hi, if_neg Bool.false_ne_true]
  repeat rw [if_neg (by omega)]

/-- The move of an immediate to a general register passes every check (R44, R177, R199). -/
theorem State.plan_register (s : State) (p : Nat) {k : Nat} (hk : k < 32) (v : Word) :
    s.plan p [⟨k, .imm v, none⟩] = .go [(⟨k, .imm v, none⟩, v)] ((s.lane p).writePort k v) := by
  have hl : ¬ 0x5C ≤ k := by omega
  have hc := moveChecks_imm p (s.lane p) ((s.lane p).writePort k v) (show k < 0x78 by omega) v none
  rw [unitCheck_register p _ hk] at hc
  simp [State.plan, Lane.interlocked, Mv.reads, Mv.holds, Src.val, hc, hl]

/-! ### No remote move in the cycle -/

section
variable {l : Lane} {now : Nat} (hm : ∀ m ∈ l.rly.moves, m.at_ ≠ now)
include hm

theorem Lane.arriving_of_no_move (l2 : Lane) : l.arriving l2 now = none := by
  unfold Lane.arriving
  rw [List.find?_eq_none]
  intro m h
  simp [hm m h]

theorem Lane.remoteNow_of_no_move : l.remoteNow now = l := by
  have hnone : l.rly.moves.filter (fun m => decide (m.at_ = now) && decide (m.port ≠ 128)) = [] := by
    rw [List.filter_eq_nil_iff]
    intro m h
    simp [hm m h]
  have hall : l.rly.moves.filter (fun m => !(decide (m.at_ = now) && decide (m.port ≠ 128))) = l.rly.moves := by
    rw [List.filter_eq_self]
    intro m h
    simp [hm m h]
  simp only [Lane.remoteNow, hnone, hall, List.foldl_nil]
end

theorem satAdd_zero (c : Word) : satAdd c 0 = c := by
  unfold satAdd
  split
  · bv_omega
  · simp

/-! ### The word acts -/

/-- Outside a delay slot, and with no transfer taken by the word itself, fetch goes on at `next` (R53, R60). -/
theorem State.complete_of_no_transfer {s : State} {p : Nat} (hx : (s.lane p).ctl.xfer = none) (next : Word) :
    s.complete p none next = s.setLane p { s.lane p with ctl := { (s.lane p).ctl with
      pc := next, bnd := some (s.lane p).ctl.stallUntil
      fetched := keepFetched (s.lane p).ctl.fetched (s.lane p).ctl.pc.toNat next.toNat none } } := by
  simp [State.complete, hx]

/-- The lane once a word that moves `v` to register `k` has acted: issue counts from this cycle (R44, R196). -/
def Lane.registerWritten (l : Lane) (now k : Nat) (v : Word) : Lane :=
  { l with
    w := putW l.w k v
    ctl := { l.ctl with ready := now, stallUntil := now + 1, restart := false, exact := false } }

/-- The boundary after a word that ends in cycle `b`: none while the lane waits (R60). -/
def Lane.boundaryAfter (l : Lane) (b : Nat) : Option Nat :=
  if l.mode == .wait || l.mode == .mbxWait || l.ctl.after.isSome then none else some b

/-- The lane once that word is complete: fetch goes on at `next`, and a lane that does not wait comes to a boundary in
the next cycle (R53, R60). -/
def Lane.registerMoved (l : Lane) (now k : Nat) (v next : Word) : Lane :=
  let w := l.registerWritten now k v
  { w with ctl := { w.ctl with
      pc := next
      fetched := keepFetched l.ctl.fetched l.ctl.pc.toNat next.toNat none
      bnd := l.boundaryAfter (now + 1) } }

section
variable (l : Lane) (now k : Nat) (v next : Word)
@[simp] theorem Lane.registerMoved_w : (l.registerMoved now k v next).w = putW l.w k v := rfl
@[simp] theorem Lane.registerMoved_g : (l.registerMoved now k v next).g = l.g := rfl
@[simp] theorem Lane.registerMoved_u : (l.registerMoved now k v next).u = l.u := rfl
@[simp] theorem Lane.registerMoved_c : (l.registerMoved now k v next).c = l.c := rfl
@[simp] theorem Lane.registerMoved_trap : (l.registerMoved now k v next).trap = l.trap := rfl
@[simp] theorem Lane.registerMoved_mode : (l.registerMoved now k v next).mode = l.mode := rfl
@[simp] theorem Lane.registerMoved_pc : (l.registerMoved now k v next).ctl.pc = next := rfl
@[simp] theorem Lane.registerMoved_rc : (l.registerMoved now k v next).ctl.rc = l.ctl.rc := rfl
@[simp] theorem Lane.registerMoved_rep : (l.registerMoved now k v next).ctl.rep = l.ctl.rep := rfl
end

section
variable {s : State} {p k : Nat} (hk : k < 32) (v next : Word) (g : Option (Nat × Bool)) (l2 : Lane)
  (hm : ∀ m ∈ (s.lane p).rly.moves, m.at_ ≠ s.now)
include hk hm

/-- A register move that no remote move meets writes its register. -/
theorem State.actMoves_register :
    s.LaneOnly (s.actMoves p [(⟨k, .imm v, g⟩, v)] l2 next) p ((s.lane p).registerWritten s.now k v) := by
  have hw : (((s.lane p).registerWritten s.now k v).remoteNow s.now) = (s.lane p).registerWritten s.now k v :=
    Lane.remoteNow_of_no_move hm
  have hact : s.actMoves p [(⟨k, .imm v, g⟩, v)] l2 next =
      (s.setLane p ((s.lane p).registerWritten s.now k v)).fire p k v := by
    conv_rhs => rw [← hw]
    simp [State.actMoves, Lane.arriving_of_no_move hm, clashes, isStoreTrig_register hk, Mv.reads, satAdd_zero,
      Lane.writePort_register _ hk, Lane.registerWritten]
  rw [hact, State.fire_register _ _ hk, State.lane_setLane_same]
  exact (State.laneOnly_setLane s p _).setLane _

/-- A word that moves `v` to register `k`, outside a delay slot and with no remote move in its cycle, changes its lane alone. -/
theorem State.act_register (hx : (s.lane p).ctl.xfer = none) :
    s.LaneOnly (s.act p [(⟨k, .imm v, g⟩, v)] l2 next) p ((s.lane p).registerMoved s.now k v next) := by
  have h0 : { s.lane p with ctl := { (s.lane p).ctl with xfer := none } } = s.lane p := by rw [← hx]
  have hs0 := State.laneOnly_setLane s p (s.lane p)
  have hlane := hs0.1
  have hw := hs0.trans (State.actMoves_register hk v next g l2 (s := s.setLane p (s.lane p)) (by rwa [hlane]))
  rw [hlane] at hw
  have hlate := lateDsts_register hk v g
  simp only [State.act, Lane.arriving_of_no_move hm, clashes, Bool.not_false, List.filter_true, hlate, List.foldl_nil,
    List.contains_nil, Bool.false_eq_true, if_false, h0, hx]
  generalize (s.setLane p (s.lane p)).actMoves p [(⟨k, .imm v, g⟩, v)] l2 next = t at hw
  have hl : t.lane p = (s.lane p).registerWritten s.now k v := hw.1
  rw [State.complete_of_no_transfer (by rw [hl]; exact hx), State.lane_setLane_same, hl]
  split
  · rename_i h
    have hb : (s.lane p).boundaryAfter (s.now + 1) = none := if_pos h
    rw [Lane.registerMoved, hb]
    exact (hw.setLane _).setLane _
  · rename_i h
    have hb : (s.lane p).boundaryAfter (s.now + 1) = some (s.now + 1) := if_neg h
    rw [Lane.registerMoved, hb]
    exact hw.setLane _
end

end Sys2Proof.Machine
end

section
/-! SUPPORT. Reading the words of an instruction changes no lane but for its fetch state and its results in flight
(R91, R155, R243). -/

namespace Sys2Proof.Machine
open Sys2Proof

/-- A lane without its results in flight and without what fetch notes of the words it reads, the count to resume included. -/
def Lane.standing (l : Lane) : Lane :=
  { l with flight := [], ctl := { l.ctl with resumeRc := none, lastT := 0, fetchRods := [], fetchAgain := false } }

section
variable {a b : Lane} (h : a.standing = b.standing)
include h

theorem Lane.regs_of_standing : a.w = b.w ∧ a.g = b.g ∧ a.c = b.c :=
  ⟨(congrArg Lane.w h :), (congrArg Lane.g h :), (congrArg Lane.c h :)⟩

theorem Lane.units_of_standing : a.u = b.u ∧ a.trap = b.trap ∧ a.rly = b.rly ∧ a.mode = b.mode :=
  ⟨(congrArg Lane.u h :), (congrArg Lane.trap h :), (congrArg Lane.rly h :), (congrArg Lane.mode h :)⟩

theorem Lane.ctl_of_standing : a.ctl.pc = b.ctl.pc ∧ a.ctl.xfer = b.ctl.xfer :=
  ⟨(congrArg (fun l : Lane => l.ctl.pc) h :), (congrArg (fun l : Lane => l.ctl.xfer) h :)⟩
end

theorem Lane.standing_fetchState (l : Lane) (rods : List Nat) (again : Bool) :
    ({ l with ctl := { l.ctl with fetchRods := rods, fetchAgain := again } } : Lane).standing = l.standing := rfl

theorem State.setLane_standing {s : State} {p : Nat} {l : Lane} (h : l.standing = (s.lane p).standing) (q : Nat) :
    ((s.setLane p l).lane q).standing = (s.lane q).standing := by
  rw [State.lane_setLane]
  split
  · rename_i hq; rw [hq, h]
  · rfl

/-! ### Events -/

theorem State.pendInt_standing (s : State) (p k q : Nat) : ((s.pendInt p k).lane q).standing = (s.lane q).standing :=
  State.setLane_standing (by rfl) q

theorem State.journal_lanes (s : State) (e : Event) : (s.journal e).lanes = s.lanes := by
  simp only [State.journal, apply_ite State.lanes, ite_self]

theorem State.enqueue_lanes (s : State) (code : Nat) (src : Word) (data : BitVec 64) (tied : Bool) :
    (s.enqueue code src data tied).lanes = s.lanes := by
  simp only [State.enqueue]
  split <;> simp only [apply_ite State.lanes, State.journal_lanes, ite_self]

theorem State.lane_of_lanes {s t : State} (h : t.lanes = s.lanes) (q : Nat) : t.lane q = s.lane q := by
  rw [State.lane, State.lane, h]

theorem State.tally_lane (s : State) (k q : Nat) : (s.tally k).lane q = s.lane q := rfl

/-- An event is an interrupt of the stewards, and nothing else on a lane (R372). -/
theorem State.raiseCore_standing (s : State) (code : Nat) (src : Word) (data : BitVec 64) (tied : Bool) (q : Nat) :
    ((s.raiseCore code src data tied).lane q).standing = (s.lane q).standing := by
  simp only [State.raiseCore, State.pendInt_standing]
  exact congrArg Lane.standing (State.lane_of_lanes (s.enqueue_lanes code src data tied) q)

theorem State.pfTrigger_standing (s : State) (bit code : Nat) (armBit : Option Nat) (q : Nat) :
    ((s.pfTrigger bit code armBit).lane q).standing = (s.lane q).standing := by
  simp only [State.pfTrigger]
  split
  · rw [State.tally_lane, State.raiseCore_standing]
    rfl
  · rfl
  · rfl

theorem State.raise_standing (s : State) (code : Nat) (src : Word) (data : BitVec 64) (tied : Bool) (q : Nat) :
    ((s.raise code src data tied).lane q).standing = (s.lane q).standing := by
  simp only [State.raise]
  split
  · exact (State.pfTrigger_standing _ _ _ _ q).trans (s.raiseCore_standing _ _ _ _ q)
  · exact s.raiseCore_standing _ _ _ _ q

/-! ### Reads of rods -/

theorem State.rodRead_standing (s : State) (p a src q : Nat) : ((s.rodRead p a src).2.lane q).standing = (s.lane q).standing := by
  simp only [State.rodRead]
  split
  · exact State.raise_standing _ _ _ _ _ q
  · rfl

theorem State.smRead_standing (s : State) (portB : Bool) (rod q : Nat) :
    ((s.smRead portB rod).2.lane q).standing = (s.lane q).standing := by
  simp only [State.smRead]
  split
  · exact State.raise_standing _ _ _ _ _ q
  · rfl

theorem State.portAMeet_lane (s : State) (rod : Nat) (write again : Bool) (q : Nat) :
    (s.portAMeet rod write again).1.lane q = s.lane q := by
  refine State.lane_of_lanes ?_ q
  simp only [State.portAMeet]
  (repeat' split) <;> rfl

theorem State.stewFetch_standing (s : State) (p len q : Nat) : ((s.stewFetch p len).1.lane q).standing = (s.lane q).standing := by
  have hmeet : ∀ r b i, ((s.portAMeet r false b).1.lane i).standing = (s.lane i).standing :=
    fun r b i => congrArg Lane.standing (s.portAMeet_lane r false b i)
  simp only [State.stewFetch]
  split
  · rfl
  · split
    · rfl
    · split
      · exact (State.setLane_standing (Lane.standing_fetchState ..) q).trans ((State.smRead_standing _ _ _ q).trans (hmeet _ _ q))
      · exact (State.setLane_standing ((Lane.standing_fetchState ..).trans (hmeet _ _ p).symm) q).trans (hmeet _ _ q)

theorem State.fetchUse_standing (s : State) (p len q : Nat) : ((s.fetchUse p len).lane q).standing = (s.lane q).standing := by
  have hp : ((s.setLane p { s.lane p with ctl := { (s.lane p).ctl with lastT := s.now + 1 } }).lane q).standing =
      (s.lane q).standing := State.setLane_standing (by rfl) q
  simp only [State.fetchUse]
  split
  · split
    · rw [State.rodRead_standing, State.rodRead_standing, hp]
    · rw [State.rodRead_standing, hp]
  · rfl

end Sys2Proof.Machine
end

section
/-! SUPPORT. A transport cycle and an iteration of a repetition, from the conditions under which they act (R44, R48, R52, R83). -/

namespace Sys2Proof.Machine
open Sys2Proof

theorem Lane.transporting_iff (l : Lane) : l.transporting = true ↔ l.mode = .run ∧ l.trap.due = none := by
  simp [Lane.transporting]

theorem State.inPlace8_of_no_load {s : State} {p : Nat} (h : (s.lane p).trap.load8 = none) : s.inPlace8 p = none := by
  simp [State.inPlace8, h]

/-- The state in which the moves of an instruction of `n` words act: a count to be resumed is dropped, and fetch has used the
instruction store (R88, R151). -/
def State.wordsUsed (s : State) (p n : Nat) : State :=
  (s.setLane p { s.lane p with ctl := { (s.lane p).ctl with resumeRc := none } }).fetchUse p n

theorem State.wordsUsed_standing (s : State) (p n q : Nat) : ((s.wordsUsed p n).lane q).standing = (s.lane q).standing :=
  (State.fetchUse_standing _ p n q).trans (State.setLane_standing (by rfl) q)

@[simp] theorem State.wordsUsed_now (s : State) (p n : Nat) : (s.wordsUsed p n).now = s.now :=
  now_of_core (by simp [State.wordsUsed])

@[simp] theorem State.stewFetch_now (s : State) (p n : Nat) : (s.stewFetch p n).1.now = s.now :=
  now_of_core (s.stewFetch_core p n)

theorem State.stewFetch_of_held {s : State} {p n : Nat} (h : (s.stewFetch p n).2 = true) :
    s.stewFetch p n = ((s.stewFetch p n).1, true) := by rw [← h]

section
variable {s : State} {p : Nat}

theorem exec_transportCycle (hr : s.pwr.inReset = false) : exec (.transportCycle p) s = .next (transportCycle s p) :=
  exec_of_live hr rfl rfl

theorem exec_repIteration (hr : s.pwr.inReset = false) : exec (.repIteration p) s = .next (repIteration s p) :=
  exec_of_live hr rfl rfl

/-- A lane that does not run, or that has a trap due, transports nothing (R48, R52, R192). -/
theorem transportCycle_idle (h : (s.laneNow p).transporting = false) : transportCycle s p = s.settle p := by
  simp only [State.laneNow] at h
  simp [transportCycle, h]

theorem repIteration_idle (h : (s.laneNow p).transporting = false) : repIteration s p = s.settle p := by
  simp only [State.laneNow] at h
  simp [repIteration, h]

/-- An instruction without REP that is due, of which fetch holds the words, and that passes every check is transported: its moves
act and it completes (R44). -/
theorem transportCycle_single {i : Insn} {vals : List (Mv × Word)} {l2 : Lane} (ht : (s.laneNow p).transporting = true)
    (h8 : (s.laneNow p).trap.load8 = none) (hrep : (s.laneNow p).ctl.rep = none)
    (hf : fetchInsn (s.settle p) p (s.laneNow p) = .inr i) (he : (s.laneNow p).earliest i.len ≤ (s.settle p).now)
    {v : State} (hw : (s.settle p).stewFetch p i.len = (v, true))
    (hi : (v.lane p).interlocked v.now i.moves = false) (hb : wordBad (v.lane p) i = false) (hr : i.rep = none)
    (hp : v.plan p i.moves = .go vals l2) :
    transportCycle s p = (v.wordsUsed p i.len).act p vals l2 ((v.lane p).ctl.pc + BitVec.ofNat 32 (4 * i.len)) := by
  simp only [State.laneNow] at ht h8 hrep hf he
  simp only [transportCycle, ht, hrep, Option.isSome_none, Bool.not_true, Bool.or_self, Bool.false_eq_true, if_false, State.issue, hf,
    if_neg (Nat.not_lt.mpr he), State.inPlace8_of_no_load h8, hw, hi, hb, hr, State.single, hp, State.wordsUsed]

/-- A repetition whose moves pass their checks performs one more iteration in the cycle after the last (R83). -/
theorem repIteration_iterates {r : Rep} {q : Plan} (ht : (s.laneNow p).transporting = true) (h8 : (s.laneNow p).trap.load8 = none)
    (hrep : (s.laneNow p).ctl.rep = some r) (h1 : (s.laneNow p).ctl.ready + 1 ≤ (s.settle p).now)
    (h2 : (s.laneNow p).ctl.stallUntil ≤ (s.settle p).now) (hp : (s.settle p).plan p r.moves = q) :
    repIteration s p = (s.settle p).iterate p r q := by
  simp only [State.laneNow] at ht h8 hrep h1 h2
  simp only [repIteration, ht, hrep, Bool.not_true, Bool.false_eq_true, if_false, if_neg (Nat.not_lt.mpr (max_le h1 h2)),
    State.inPlace8_of_no_load h8, hp]
end

/-! ### A register move as an instruction -/

/-- A move of an immediate reads no result of a load (R47). -/
theorem Lane.interlocked_imm (l : Lane) (now d : Nat) (v : Word) (g : Option (Nat × Bool)) :
    l.interlocked now [⟨d, .imm v, g⟩] = false := by
  simp [Lane.interlocked, Mv.reads]

theorem wordBad_outside_slot {l : Lane} (hx : l.ctl.xfer = none) (i : Insn) : wordBad l i = i.bad := by
  simp [wordBad, hx]

/-- A register move that is due, outside a delay slot and with no remote move in its cycle, acts on the lane that reading its word
leaves. -/
theorem transportCycle_register {s : State} {p n k : Nat} {x : Word} (hk : k < 32) (ht : (s.laneNow p).transporting = true)
    (h8 : (s.laneNow p).trap.load8 = none) (hrep : (s.laneNow p).ctl.rep = none) (hx : (s.laneNow p).ctl.xfer = none)
    (hm : ∀ m ∈ (s.laneNow p).rly.moves, m.at_ ≠ (s.settle p).now)
    (hf : fetchInsn (s.settle p) p (s.laneNow p) = .inr ⟨n, [⟨k, .imm x, none⟩], none, false⟩)
    (he : (s.laneNow p).earliest n ≤ (s.settle p).now) {v : State} (hw : (s.settle p).stewFetch p n = (v, true)) :
    (v.wordsUsed p n).LaneOnly (transportCycle s p) p
      (((v.wordsUsed p n).lane p).registerMoved (s.settle p).now k x ((s.laneNow p).ctl.pc + BitVec.ofNat 32 (4 * n))) ∧
    ((v.wordsUsed p n).lane p).standing = (s.laneNow p).standing := by
  have hv : (v.lane p).standing = (s.laneNow p).standing := by
    simpa [hw, State.laneNow] using (s.settle p).stewFetch_standing p n p
  have hvnow : v.now = (s.settle p).now := by simpa [hw] using (s.settle p).stewFetch_now p n
  have hu := (v.wordsUsed_standing p n p).trans hv
  obtain ⟨hpc, hvx⟩ := Lane.ctl_of_standing hv
  obtain ⟨-, hux⟩ := Lane.ctl_of_standing hu
  obtain ⟨-, -, hrly, -⟩ := Lane.units_of_standing hu
  have hnow : (v.wordsUsed p n).now = (s.settle p).now := (v.wordsUsed_now p n).trans hvnow
  rw [transportCycle_single ht h8 hrep hf he hw (Lane.interlocked_imm ..) (wordBad_outside_slot (hvx.trans hx) _) rfl
    (v.plan_register p hk x), hpc, ← hnow]
  exact ⟨State.act_register hk x _ none _ (by rwa [hrly, hnow]) (hux.trans hx), hu⟩

/-! ### An iteration -/

/-- The lane after an iteration of repetition `r` that its moves have left as `l`: one less is to come; after the last, fetch goes
on behind the repetition (R83, R84). -/
def Lane.countedDown (l : Lane) (r : Rep) : Lane :=
  let n := l.ctl.rc - 1
  { l with ctl :=
    if n = 0 then { l.ctl with rc := 0, rep := none }
    else { l.ctl with rc := n, pc := r.addr, bnd := if r.int then l.ctl.bnd else none } }

theorem State.iterate_go (s : State) (p : Nat) (r : Rep) (vals : List (Mv × Word)) (l2 : Lane) :
    s.iterate p r (.go vals l2) = (s.act p vals l2 r.next).setLane p (((s.act p vals l2 r.next).lane p).countedDown r) := rfl

@[simp] theorem Lane.countedDown_w (l : Lane) (r : Rep) : (l.countedDown r).w = l.w := rfl
@[simp] theorem Lane.countedDown_g (l : Lane) (r : Rep) : (l.countedDown r).g = l.g := rfl
@[simp] theorem Lane.countedDown_u (l : Lane) (r : Rep) : (l.countedDown r).u = l.u := rfl
@[simp] theorem Lane.countedDown_c (l : Lane) (r : Rep) : (l.countedDown r).c = l.c := rfl
@[simp] theorem Lane.countedDown_trap (l : Lane) (r : Rep) : (l.countedDown r).trap = l.trap := rfl
@[simp] theorem Lane.countedDown_mode (l : Lane) (r : Rep) : (l.countedDown r).mode = l.mode := rfl

theorem Lane.countedDown_rc (l : Lane) (r : Rep) : (l.countedDown r).ctl.rc = l.ctl.rc - 1 := by
  simp only [Lane.countedDown]
  split
  · rename_i h; exact h.symm
  · rfl

/-- While iterations are to come the repetition stands, with the fetch address at it. -/
theorem Lane.countedDown_more {l : Lane} (h : 1 < l.ctl.rc) (r : Rep) :
    (l.countedDown r).ctl.pc = r.addr ∧ (l.countedDown r).ctl.rep = l.ctl.rep := by
  have hn : ¬ l.ctl.rc - 1 = 0 := by omega
  simp [Lane.countedDown, hn]

/-- The last iteration ends the repetition. -/
theorem Lane.countedDown_last {l : Lane} (h : l.ctl.rc ≤ 1) (r : Rep) :
    (l.countedDown r).ctl.pc = l.ctl.pc ∧ (l.countedDown r).ctl.rep = none := by
  have hn : l.ctl.rc - 1 = 0 := by omega
  simp [Lane.countedDown, hn]

/-- An iteration whose word moves an immediate to a general register changes its lane alone. -/
theorem State.iterate_register {s : State} {p k : Nat} (hk : k < 32) (r : Rep) (x : Word) (l2 : Lane)
    (hx : (s.lane p).ctl.xfer = none) (hm : ∀ m ∈ (s.lane p).rly.moves, m.at_ ≠ s.now) :
    s.LaneOnly (s.iterate p r (.go [(⟨k, .imm x, none⟩, x)] l2)) p (((s.lane p).registerMoved s.now k x r.next).countedDown r) := by
  have hact := State.act_register hk x r.next none l2 hm hx
  have hlane : (s.act p [(⟨k, .imm x, none⟩, x)] l2 r.next).lane p = _ := hact.1
  rw [State.iterate_go, hlane]
  exact hact.setLane _

end Sys2Proof.Machine
end

section
/-! The statements about the architecture of a lane, settled. -/

namespace Sys2Proof.Machine
open Sys2Proof

/-- Settles O12, from the delivery of the results due and from the steps that find nothing to do on a quiet lane. -/
theorem settlingDeliversResultsInOrder : Obligations.SettlingDeliversResultsInOrder := by
  unfold Obligations.SettlingDeliversResultsInOrder
  refine ⟨fun l d k u r r2 hf hm => ⟨?early, Lane.settle_fly hf hm k r, Lane.settle_fly_fly hf hm k r r2, ?alu, ?mul, ?fpu⟩,
    ?quiet⟩
  case early =>
    intro hd
    rw [Lane.settle_fly_early hf hm k r hd]
    exact ⟨rfl, Lane.fly_flight_of_none hf d k r⟩
  case alu =>
    intro n v hd
    rw [Lane.settle_fly hf hm k (.alu n v) hd]
    cases n <;> rfl
  case mul =>
    intro lo hi hd
    rw [Lane.settle_fly hf hm k (.mul lo hi) hd]
    exact ⟨rfl, rfl⟩
  case fpu =>
    intro v f hd
    rw [Lane.settle_fly hf hm k (.fpu v f) hd]
    exact ⟨rfl, rfl⟩
  case quiet =>
    intro s p hf hm hl ht hr hp hb
    rw [State.settle_quiet hf hm hl ht hr hp hb]
    exact State.laneOnly_setLane _ _ _

/-- Settles O22: the cases of the two commands are `transportCycle_single` and `repIteration_iterates`; a register move then acts
as `State.act_register` says, on a lane that the reading of the words has left as it was (`State.stewFetch_standing`). -/
theorem transportCycleRunsTheInstructionDue : Obligations.TransportCycleRunsTheInstructionDue := by
  unfold Obligations.TransportCycleRunsTheInstructionDue
  refine ⟨?idle, fun s p hr => ?running⟩
  case idle =>
    intro s p hr h
    have ht : (s.laneNow p).transporting = false := by
      rw [← Bool.not_eq_true, Lane.transporting_iff]
      rintro ⟨hm, hd⟩
      simp [hm, hd] at h
    exact ⟨(exec_transportCycle hr).trans (congrArg _ (transportCycle_idle ht)),
      (exec_repIteration hr).trans (congrArg _ (repIteration_idle ht))⟩
  case running =>
    dsimp only
    intro hmode hdue h8
    have ht : (s.laneNow p).transporting = true := (Lane.transporting_iff _).mpr ⟨hmode, hdue⟩
    refine ⟨?single, ?move, ?iterate, ?repeated⟩
    case single =>
      intro i vals l2 hrep hf he hw hi hb hnone hp
      exact (exec_transportCycle hr).trans (congrArg _
        (transportCycle_single ht h8 hrep hf he (State.stewFetch_of_held hw) hi hb hnone hp))
    case move =>
      intro n k x hk hquiet hrep hf he hw
      obtain ⟨hx, -, hm⟩ := hquiet
      have hmove := transportCycle_register hk ht h8 hrep hx hm hf he (State.stewFetch_of_held hw)
      obtain ⟨⟨hlane, hother, -⟩, hst⟩ := hmove
      obtain ⟨hregs, hg, hc⟩ := Lane.regs_of_standing hst
      obtain ⟨hu, htrap, -, hmode'⟩ := Lane.units_of_standing hst
      refine ⟨_, exec_transportCycle hr, ?_⟩
      rw [hlane]
      simp only [Lane.registerMoved_w, Lane.registerMoved_g, Lane.registerMoved_u, Lane.registerMoved_c, Lane.registerMoved_trap,
        Lane.registerMoved_mode, Lane.registerMoved_pc, getW_putW, hregs, State.laneNow, implies_true, true_and]
      exact ⟨hg, hu, hc, htrap, hmode'.trans hmode, hother⟩
    case iterate =>
      exact fun r vals l2 hrep h1 h2 hp => (exec_repIteration hr).trans (congrArg _ (repIteration_iterates ht h8 hrep h1 h2 hp))
    case repeated =>
      intro r k x hk hquiet hrep hmoves h1 h2
      obtain ⟨hx, -, hm⟩ := hquiet
      have hp := (s.settle p).plan_register p hk x
      rw [← hmoves] at hp
      have hit := State.iterate_register hk r x (((s.settle p).lane p).writePort k x) hx hm
      obtain ⟨hlane, hother, -⟩ := hit
      refine ⟨_, (exec_repIteration hr).trans (congrArg _ (repIteration_iterates ht h8 hrep h1 h2 hp)), ?_⟩
      rw [hlane]
      simp only [Lane.countedDown_w, Lane.countedDown_g, Lane.countedDown_u, Lane.countedDown_c, Lane.countedDown_trap,
        Lane.countedDown_mode, Lane.countedDown_rc, Lane.registerMoved_w, Lane.registerMoved_g, Lane.registerMoved_u,
        Lane.registerMoved_c, Lane.registerMoved_trap, Lane.registerMoved_mode, Lane.registerMoved_rc, getW_putW,
        implies_true, true_and]
      refine ⟨fun h => ?_, fun h => ?_, hmode, hother⟩
      · obtain ⟨hpc, hrep'⟩ := Lane.countedDown_more (l := ((s.settle p).lane p).registerMoved (s.settle p).now k x r.next)
          (by rwa [Lane.registerMoved_rc]) r
        exact ⟨hpc, hrep'.trans ((Lane.registerMoved_rep ..).trans hrep)⟩
      · obtain ⟨hpc, hrep'⟩ := Lane.countedDown_last (l := ((s.settle p).lane p).registerMoved (s.settle p).now k x r.next)
          (by rwa [Lane.registerMoved_rc]) r
        exact ⟨hpc.trans (Lane.registerMoved_pc ..), hrep'⟩

/-- Settles O23, from what the acting word makes of its lane (`State.act_register`). -/
theorem registerMoveWritesOneRegister : Obligations.RegisterMoveWritesOneRegister := by
  unfold Obligations.RegisterMoveWritesOneRegister
  intro s p k v next g hk hx hm
  obtain ⟨hlane, hother, hrest⟩ := State.act_register hk v next g ((s.lane p).writePort k v) (by simp [hm]) hx
  intro r
  rw [show r.lane p = _ from hlane]
  exact ⟨fun j => getW_putW _ k j v, rfl, rfl, rfl, rfl, rfl, rfl, rfl, hother, hrest⟩

/-- Settles O13: each of the three is a transfer whose checks pass (`laneDoes_transfer`). -/
theorem transfersWaitForTheirDelaySlot : Obligations.TransfersWaitForTheirDelaySlot := by
  unfold Obligations.TransfersWaitForTheirDelaySlot
  refine fun p t => ⟨laneDoes_transfer _ p (k := 0) t _ (by decide) (fun _ => rfl) ?jump,
    laneDoes_transfer _ p (k := 1) t _ (by decide) (fun _ => rfl) ?call,
    laneDoes_transfer _ p (k := 2) t _ (by decide) (fun _ => rfl) ?ret⟩
  case jump => exact fun l ⟨hx, ht⟩ => ⟨hx, by simp [transferCheck, ht]⟩
  case call => exact fun l ⟨hx, ht, hd⟩ => ⟨hx, by simpa [transferCheck, ht] using hd⟩
  case ret => exact fun l ⟨hx, ht, hd⟩ => ⟨hx, by simpa [transferCheck, ht] using hd⟩

/-- Settles O21, from the one check of `sys.wr` (`moveChecks_sysWr`) and the indices that `sysWrite` leaves out. -/
theorem systemRegisterWrites : Obligations.SystemRegisterWrites := by
  unfold Obligations.SystemRegisterWrites
  refine ⟨fun p v => ⟨?acts, ?refused⟩, ?readOnly⟩
  case acts =>
    refine laneDoes_of _ p 0x7F v _ _ (fun _ => rfl) (by decide) (fun l _ => by simp [slotForbidden, within]) (fun l h => ?_)
      (fun u l _ _ => rfl)
    rw [moveChecks_sysWr, if_neg]
    rintro ⟨hn, hp⟩
    simp [h hn] at hp
  case refused =>
    intro s ⟨hr, hs, _⟩ hn hp h8
    refine exec_trigger_traps rfl hr hs (by simp [slotForbidden, within]) h8 ?_ (t := permTrap) (by decide)
    rw [moveChecks_sysWr, if_pos ⟨hn, hp⟩]
  case readOnly =>
    have hro : ∀ i ∈ [0x000, 0x001, 0x002, 0x003, 0x004, 0x005, 0x006, 0x010, 0x012, 0x040, 0x041, 0x042, 0x043, 0x044, 0x04A,
        0x04B, 0x083, 0x084, 0x085, 0x091, 0x092, 0x093, 0x0C4, 0x0C5, 0x0C6, 0x0C7, 0x0C8, 0x0C9, 0x0D0, 0x118, 0x128, 0x3FF],
        sysWritable i = false := by decide
    exact fun l v at_ i hi => sysWrite_ignored l v at_ (hro i hi)

/-- Settles O24, from what a self-check event makes of the lane. -/
theorem selfCheckMismatchIsFlagged : Obligations.SelfCheckMismatchIsFlagged := by
  unfold Obligations.SelfCheckMismatchIsFlagged
  intro s p hr u l flags
  exact ⟨exec_of_live hr rfl (resultReady_agree s p),
    fun hh hf => ⟨exec_resultReady_event hh hf (.inl rfl) hr, fun ha => exec_resultReady_event hh hf (.inr ⟨rfl, ha⟩) hr⟩,
    fun ha => exec_of_live hr rfl (resultReady_nothing_shown ha), fun c hm => exec_of_live hr rfl (resultReady_off hm c)⟩

/-- Settles O25, from the checks of the triggers and the trap that a failing check raises. -/
theorem triggersThatRaiseATrap : Obligations.TriggersThatRaiseATrap := by
  unfold Obligations.TriggersThatRaiseATrap
  refine ⟨?trapT, fun s p t kk hr hs h8 => ?reserved⟩
  case trapT =>
    intro s p t ⟨hr, hs, _⟩ hx h8
    refine ⟨fun hlo hhi => ?software, fun ho => ?other⟩
    case software =>
      refine exec_trigger_software (t := ⟨t.toNat, 0, 0, 0⟩) rfl hr hs (by simp [hx]) h8 ?_ hlo
      rw [moveChecks_imm _ _ _ (by decide), unitCheck_trapT]
      simp [within, hlo, hhi]
    case other =>
      refine exec_trigger_traps (t := trap1) rfl hr hs (by simp [hx]) h8 ?_ (by decide)
      rw [moveChecks_imm _ _ _ (by decide), unitCheck_trapT, if_neg (by simp [within]; omega)]
  case reserved =>
    intro trapped
    have raises : ∀ (c : Instr) (d : Nat), (∀ u, exec c u = .next (u.live (trigger u p d t))) → d < 0x64 →
        computeIllegal (s.laneNow p).u d = true → trapped c := by
      intro c d he hd hi
      refine exec_trigger_traps (t := trap1) (he s) hr hs ?_ h8 ?_ (by decide)
      · have : slotForbidden d = false := by simp [slotForbidden, within]; omega
        simp [this]
      · rw [moveChecks_imm _ _ _ (by omega), unitCheck_reserved _ _ _ hi]
    have fpu : ∀ (c : Instr) (k : Nat), (∀ u, exec c u = .next (u.live (trigger u p (0x4A + k) t))) → k ≤ 4 →
        fpuIllegal (s.laneNow p).u.fmode k = true → trapped c :=
      fun c k he hk h => raises c (0x4A + k) he (by omega) ((computeIllegal_fpu _ hk).trans h)
    refine ⟨fpu _ 0 (fun _ => rfl) (by decide), fpu _ 1 (fun _ => rfl) (by decide), fpu _ 2 (fun _ => rfl) (by decide),
      fpu _ 3 (fun _ => rfl) (by decide), fpu _ 4 (fun _ => rfl) (by decide), fun h => ⟨?f, ?set⟩⟩
    case f =>
      have hk := kk.isLt
      exact raises _ (0x52 + kk.toNat) (fun _ => rfl) (by omega) ((computeIllegal_mac _ (by omega)).trans h)
    case set => exact raises _ 0x57 (fun _ => rfl) (by decide) ((computeIllegal_mac _ (by decide)).trans h)

end Sys2Proof.Machine
end

section
/-! SUPPORT. The triggers that end transport, `ctl.sync` and `spl.wait`: the drain due in their cycle, the checks that they do not
have, and what they leave of their lane (R93, R148, R156, R203). -/

namespace Sys2Proof.Machine
open Sys2Proof

/-! ### The drain due in the cycle -/

theorem State.lane_drainUse (s : State) (p j q : Nat) : (s.drainUse p j).lane q = s.lane q := by
  unfold State.drainUse
  split <;> rfl

theorem State.drainStep_mode (s : State) (p j : Nat) : ((s.drainStep p j).lane p).mode = (s.lane p).mode := by
  simp only [State.drainStep]
  split
  case h_1 => rfl
  case h_2 e _ =>
    by_cases hf : e.full = true
    · simp [hf]
    · by_cases hb : e.begun = true
      · simp [hf, hb]
      · simp only [hf, hb, Bool.false_eq_true, if_false, State.lane_setLane_same]
        split <;> rfl

theorem State.drained_mode (s : State) (p : Nat) : ((s.drained p).lane p).mode = (s.lane p).mode := by
  simp [State.drained]

/-- A drain works on the store buffer and on what it reports: the lane runs or waits as before (R140). -/
theorem State.presentDrain_mode (s : State) (p : Nat) : ((s.presentDrain p).lane p).mode = (s.lane p).mode := by
  unfold State.presentDrain
  split
  · rfl
  · split
    · exact State.drained_mode s p
    · rw [State.drained_mode, State.drainStep_mode, State.lane_drainUse]

/-! ### What the lane becomes -/

/-- Once every entry is to drain, the store buffer is forced whole. -/
theorem Lane.forceDrain_all (l : Lane) (e : Nat) :
    (l.forceDrain (fun _ => true) e).lsu.force = l.lsu.sb.map (fun x => (x.rod, x.alloc)) := by
  simp [Lane.forceDrain]

/-- A lane that is in no other wait enters the one it is told to. -/
theorem Lane.enterWait_of_free {l : Lane} (hr : l.mode ≠ .remote) (hm : l.mode ≠ .mbxWait) (m : Mode) :
    l.enterWait m = { l with mode := m } := by
  simp [Lane.enterWait, hr, hm]

/-- After `ctl.sync` fetch begins anew, and issue counts from three cycles after the drains (R93, R203). -/
theorem Lane.sync_restarts (l : Lane) (now : Nat) :
    (l.sync now).ctl.fetched = [] ∧ (l.sync now).ctl.restart = true ∧ (l.sync now).ctl.ready = now + sbLeft l.lsu.sb + 3 ∧
    (l.sync now).mode = l.mode ∧ (l.sync now).lsu.force = l.lsu.sb.map (fun e => (e.rod, e.alloc)) :=
  ⟨rfl, rfl, rfl, rfl, l.forceDrain_all _⟩

/-- On a lane in no other wait `spl.wait` holds transport until the drains are over, and then until the gun (R156, R203). -/
theorem Lane.splWait_of_free {l : Lane} (hr : l.mode ≠ .remote) (hm : l.mode ≠ .mbxWait) (now : Nat) :
    (l.splWait now).mode = .wait ∧ (l.splWait now).ctl.stallUntil = max l.ctl.stallUntil (now + sbLeft l.lsu.sb + 1) ∧
    (l.splWait now).lsu.force = l.lsu.sb.map (fun e => (e.rod, e.alloc)) := by
  rw [Lane.splWait, Lane.enterWait_of_free (by exact hr) (by exact hm)]
  exact ⟨rfl, rfl, l.forceDrain_all _⟩

/-- A lane that can make a move is in no wait but those of its own transport. -/
theorem Lane.free_of_not_stopped {l : Lane} (h : l.stopped = false) : l.mode ≠ .remote ∧ l.mode ≠ .mbxWait := by
  constructor <;> intro hm <;> simp [Lane.stopped, hm] at h

/-! ### The triggers -/

/-- The state in which `ctl.sync` or `spl.wait`, a move to port `d`, acts: the remote moves of the cycle have acted and the drain
due in the cycle is taken. -/
def State.drainTaken (s : State) (p d : Nat) : State := ((s.settle p).step2 p d).presentDrain p

theorem State.drainTaken_mode (s : State) (p d : Nat) : ((s.drainTaken p d).lane p).mode = (s.laneNow p).mode := by
  have hstep : (((s.settle p).step2 p d).lane p).own.mode = (s.laneNow p).own.mode :=
    congrArg Lane.mode (State.step2_own (s.settle p) p d)
  exact (State.presentDrain_mode _ p).trans hstep

/-- `ctl.sync` and `spl.wait` have no check of their own and may stand in a delay slot: all they do comes after the other moves
of the word. -/
theorem trigger_ends_transport {s : State} {p d : Nat} (v : Word) (hd : d = 0x67 ∨ d = 0x68) (h : s.Acts p d) :
    trigger s p d v = ((s.settle p).step2 p d).fireLate p d := by
  have hslot : slotForbidden d = false := by rcases hd with rfl | rfl <;> rfl
  have hunit : unitCheck p (s.laneNow p) d v = none := by rcases hd with rfl | rfl <;> rfl
  have hfire : ∀ u : State, u.fire p d v = u := by rcases hd with rfl | rfl <;> exact fun _ => rfl
  rw [trigger_acts s p d v h (by simp [hslot]) ((moveChecks_imm p _ _ (by omega) v none).trans hunit),
    State.drainHeld_other _ _ _ _ (by omega), hfire]

theorem exec_ctlSync {s : State} {p : Nat} (t : Word) (h : s.Acts p 0x67) : exec (.ctlSync p t) s =
    .next ((s.drainTaken p 0x67).setLane p (((s.drainTaken p 0x67).lane p).sync (s.drainTaken p 0x67).now)) :=
  exec_of_live h.1 rfl (trigger_ends_transport t (.inl rfl) h)

theorem exec_splWait {s : State} {p : Nat} (t : Word) (h : s.Acts p 0x68) : exec (.splWait p t) s =
    .next ((s.drainTaken p 0x68).setLane p (((s.drainTaken p 0x68).lane p).splWait (s.drainTaken p 0x68).now)) :=
  exec_of_live h.1 rfl (trigger_ends_transport t (.inr rfl) h)

end Sys2Proof.Machine
end

section
/-! The statements about the encoding of moves, settled. -/

namespace Sys2Proof.Machine
open Sys2Proof

/-- Settles O20, from what `Lane.sync` and `Lane.splWait` make of a lane whose due drain is taken (`exec_ctlSync`,
`exec_splWait`); a lane that acts is in no wait that would put off the wait for the gun. -/
theorem syncAndWaitDrainAndHoldTheLane : Obligations.SyncAndWaitDrainAndHoldTheLane := by
  unfold Obligations.SyncAndWaitDrainAndHoldTheLane
  refine fun s p t => ⟨fun h => ?sync, fun h => ?wait⟩
  case sync =>
    obtain ⟨hfetched, hrestart, hready, hmode, hforce⟩ :=
      ((s.drainTaken p 0x67).lane p).sync_restarts (s.drainTaken p 0x67).now
    refine ⟨_, exec_ctlSync t h, ?_⟩
    rw [State.lane_setLane_same]
    exact ⟨hfetched, hrestart, hready, hmode, hforce, fun q hq => State.lane_setLane_other _ _ hq⟩
  case wait =>
    have ⟨_, hstop, _⟩ := h
    obtain ⟨hremote, hmbx⟩ := Lane.free_of_not_stopped hstop
    rw [← State.drainTaken_mode s p 0x68] at hremote hmbx
    obtain ⟨hmode, hstall, hforce⟩ := Lane.splWait_of_free hremote hmbx (s.drainTaken p 0x68).now
    refine ⟨_, exec_splWait t h, ?_⟩
    rw [State.lane_setLane_same]
    exact ⟨hmode, hstall ▸ le_max_right _ _, hforce, fun q hq => State.lane_setLane_other _ _ hq⟩

end Sys2Proof.Machine
end

section
/-! SUPPORT. The triggers of the compute units: their checks, the operation that each port starts, and what the command makes of
its lane (R44, R96, R98, R101, R102, R112, R225). -/

namespace Sys2Proof.Machine
open Sys2Proof

/-! ### Ports that a remote move may name -/

/-- Such a port is a general register or one of an ALU, the multiplier, the FPU or the MAC, `spl.chk`, or a guard (R225). -/
theorem remoteDst_iff {d : Nat} :
    remoteDst d = true ↔ d ≤ 0x43 ∨ 0x48 ≤ d ∧ d ≤ 0x57 ∨ d = 0x69 ∨ 0x6C ≤ d ∧ d ≤ 0x6F := by
  simp only [remoteDst, Bool.or_eq_true, Bool.and_eq_true, decide_eq_true_eq, or_assoc]

/-- None of them is barred from a delay slot (R54). -/
theorem slotForbidden_remoteDst {d : Nat} (hd : remoteDst d = true) : slotForbidden d = false := by
  have hb := remoteDst_iff.mp hd
  simp only [slotForbidden, within, Bool.or_eq_false_iff, Bool.and_eq_false_iff, decide_eq_false_iff_not]
  omega

/-- Their one check is that of a reserved mode (R101, R112). -/
theorem unitCheck_remoteDst (p : Nat) (l : Lane) {d : Nat} (v : Word) (hd : remoteDst d = true)
    (hi : computeIllegal l.u d = false) : unitCheck p l d v = none := by
  have hb := remoteDst_iff.mp hd
  unfold unitCheck
  rw [hi, if_neg Bool.false_ne_true]
  repeat rw [if_neg (by omega)]

/-- What they start is started on the lane alone. -/
theorem State.fire_remoteDst (s : State) (p : Nat) {d : Nat} (v : Word) (hd : remoteDst d = true) :
    s.fire p d v = s.setLane p ((s.lane p).fireCompute s.now d v) := by
  have hb := remoteDst_iff.mp hd
  unfold State.fire
  rw [if_neg (by omega), if_neg (by omega)]
  split
  case h_11 => rfl
  all_goals omega

/-- None of them ends transport. -/
theorem State.fireLate_remoteDst (s : State) (p : Nat) {d : Nat} (hd : remoteDst d = true) : s.fireLate p d = s := by
  have hb := remoteDst_iff.mp hd
  unfold State.fireLate
  split
  case h_5 => rfl
  all_goals omega

/-- A command of such a trigger, on a lane whose mode is not reserved for it, starts the operation of its port and does nothing
else. -/
theorem laneDoes_compute {c : Instr} {p d : Nat} {v : Word} {ok : Lane → Prop} (hd : remoteDst d = true)
    (he : ∀ s, exec c s = .next (s.live (trigger s p d v))) (hok : ∀ l, ok l → computeIllegal l.u d = false) :
    LaneDoes c p d ok (fun now l => l.fireCompute now d v) := by
  have hb := remoteDst_iff.mp hd
  refine laneDoes_of c p d v ok _ he (by omega) (fun l _ => ?slot) (fun l h => ?checks) (fun u l _ _ => ?fires)
  case slot => rw [slotForbidden_remoteDst hd, Bool.and_false]
  case checks => exact (moveChecks_imm p l l (by omega) v none).trans (unitCheck_remoteDst p l v hd (hok l h))
  case fires => rw [State.fire_remoteDst u p v hd, State.fireLate_remoteDst _ p hd]

/-- The ALUs and the multiplier have no mode that could be reserved. -/
theorem computeIllegal_integer (u : Units) {d : Nat} (hd : d ≤ 0x43) : computeIllegal u d = false := by
  unfold computeIllegal
  rw [if_neg (by omega), if_neg (by omega)]

/-! ### The operation of each port -/

section
variable (l : Lane) (now : Nat) {k : Nat} (t : Word)

theorem Lane.fireCompute_alu (n : Bool) (h1 : 1 ≤ k) (h2 : k ≤ 15) :
    l.fireCompute now (aluPort n k) t = l.fireAlu now n k t := by
  unfold Lane.fireCompute aluPort
  cases n
  case false => rw [if_neg Bool.false_ne_true, if_pos (by omega), Nat.add_sub_cancel_left]
  case true => rw [if_pos rfl, if_neg (by omega), if_pos (by omega), Nat.add_sub_cancel_left]

theorem Lane.fireCompute_mul (hk : k ≤ 2) : l.fireCompute now (0x41 + k) t = l.fireMul now k t := by
  unfold Lane.fireCompute
  rw [if_neg (by omega), if_neg (by omega), if_pos (by omega), Nat.add_sub_cancel_left]

theorem Lane.fireCompute_fpu (hk : k ≤ 4) : l.fireCompute now (0x4A + k) t = l.fireFpu now k t := by
  unfold Lane.fireCompute
  iterate 3 rw [if_neg (by omega)]
  rw [if_pos (by omega), Nat.add_sub_cancel_left]

theorem Lane.fireCompute_macF (hk : k ≤ 3) : l.fireCompute now (0x52 + k) t = l.fireMacF now k t := by
  unfold Lane.fireCompute
  iterate 4 rw [if_neg (by omega)]
  rw [if_pos (by omega), Nat.add_sub_cancel_left]
end

/-! ### Comparisons of the ALU, on the values they compare (R96, R97) -/

section
variable (o t : Word)

theorem aluOp_eq : aluOp 11 o t = if o = t then 1 else 0 := by
  simp [aluOp, b2w]

theorem aluOp_lt : aluOp 12 o t = if o.toInt < t.toInt then 1 else 0 := by
  simp [aluOp, b2w, BitVec.slt]

theorem aluOp_ltu : aluOp 13 o t = if o.toNat < t.toNat then 1 else 0 := by
  simp [aluOp, b2w, BitVec.ult]

/-- Where a choice does not matter between equal operands, it may be made by ≤ as well as by <. -/
theorem ite_slt_eq_ite_le {o t a b : Word} (h : o = t → a = b) :
    (if o.slt t then a else b) = if o.toInt ≤ t.toInt then a else b := by
  by_cases heq : o = t
  · rw [h heq, ite_self, ite_self]
  · have hne : o.toInt ≠ t.toInt := fun e => heq (BitVec.eq_of_toInt_eq e)
    simp only [BitVec.slt_iff_toInt_lt, hne.le_iff_lt]

theorem aluOp_min : aluOp 14 o t = if o.toInt ≤ t.toInt then o else t := ite_slt_eq_ite_le id

theorem aluOp_max : aluOp 15 o t = if o.toInt ≤ t.toInt then t else o := ite_slt_eq_ite_le Eq.symm
end

/-! ### The commands of each unit -/

section
variable {c : Instr} {p k : Nat} {t : Word}

/-- An ALU command puts the result of its operation in flight (R45, R96). -/
theorem laneDoes_alu {n : Bool} {g : Word → Word → Word} (hk : 1 ≤ k ∧ k ≤ 15)
    (he : ∀ s, exec c s = .next (s.live (trigger s p (aluPort n k) t))) (hg : ∀ o, aluOp k o t = g o t) :
    LaneDoes c p (aluPort n k) (fun _ => True) (aluEnd n t g) := by
  obtain ⟨h1, h2⟩ := hk
  have hd : aluPort n k ≤ 0x3F := by
    unfold aluPort
    split <;> omega
  have hend : (fun now l => Lane.fireCompute l now (aluPort n k) t) = aluEnd n t g := by
    funext now l
    rw [l.fireCompute_alu now t n h1 h2, Lane.fireAlu, hg]
    rfl
  rw [← hend]
  exact laneDoes_compute (remoteDst_iff.mpr (by omega)) he (fun l _ => computeIllegal_integer l.u (by omega))

/-- A multiplier command puts both words of the product in flight (R98). -/
theorem laneDoes_mul (hk : k ≤ 2) (he : ∀ s, exec c s = .next (s.live (trigger s p (0x41 + k) t))) :
    LaneDoes c p (0x41 + k) (fun _ => True) (fun now l => l.fireMul now k t) := by
  simp only [← Lane.fireCompute_mul _ _ t hk]
  exact laneDoes_compute (remoteDst_iff.mpr (by omega)) he (fun l _ => computeIllegal_integer l.u (by omega))

/-- An FPU command whose mode is not reserved puts its result and flags in flight (R101, R102). -/
theorem laneDoes_fpu (hk : k ≤ 4) (he : ∀ s, exec c s = .next (s.live (trigger s p (0x4A + k) t))) :
    LaneDoes c p (0x4A + k) (fun l => fpuIllegal l.u.fmode k = false) (fun now l => l.fireFpu now k t) := by
  simp only [← Lane.fireCompute_fpu _ _ t hk]
  exact laneDoes_compute (remoteDst_iff.mpr (by omega)) he (fun l h => (computeIllegal_fpu l.u hk).trans h)

/-- `mac.fK` in a mode that is not reserved replaces accumulator K (R112, R113). -/
theorem laneDoes_macF (hk : k ≤ 3) (he : ∀ s, exec c s = .next (s.live (trigger s p (0x52 + k) t))) :
    LaneDoes c p (0x52 + k) (fun l => macIllegal l.u.macmode = false) (fun now l => l.fireMacF now k t) := by
  simp only [← Lane.fireCompute_macF _ _ t hk]
  exact laneDoes_compute (remoteDst_iff.mpr (by omega)) he (fun l h => (computeIllegal_mac l.u (by omega)).trans h)
end

end Sys2Proof.Machine
end

section
/-! The statements about the compute units, settled. -/

namespace Sys2Proof.Machine
open Sys2Proof

/-- Settles O8: each command is an ALU command whose operation is the stated function (`laneDoes_alu`); the comparisons, minimum
and maximum agree by value. -/
theorem aluOperationsWriteTheirResult : Obligations.AluOperationsWriteTheirResult := by
  unfold Obligations.AluOperationsWriteTheirResult
  intro p n t
  refine ⟨?add, ?sub, ?and, ?or, ?xor, ?andn, ?shl, ?shr, ?sra, ?rotl, ?eq, ?lt, ?ltu, ?min, ?max⟩
  case add | sub | and | or | xor | andn | shl | shr | sra | rotl =>
    exact laneDoes_alu (by decide) (fun _ => rfl) (fun _ => rfl)
  case eq => exact laneDoes_alu (by decide) (fun _ => rfl) (fun o => aluOp_eq o t)
  case lt => exact laneDoes_alu (by decide) (fun _ => rfl) (fun o => aluOp_lt o t)
  case ltu => exact laneDoes_alu (by decide) (fun _ => rfl) (fun o => aluOp_ltu o t)
  case min => exact laneDoes_alu (by decide) (fun _ => rfl) (fun o => aluOp_min o t)
  case max => exact laneDoes_alu (by decide) (fun _ => rfl) (fun o => aluOp_max o t)

/-- Settles O9: the three are the multiplier's operations 0 to 2 (`laneDoes_mul`). -/
theorem multiplierFormsTheExactProduct : Obligations.MultiplierFormsTheExactProduct := by
  unfold Obligations.MultiplierFormsTheExactProduct
  exact fun p t => ⟨laneDoes_mul (k := 0) (by decide) (fun _ => rfl), laneDoes_mul (k := 1) (by decide) (fun _ => rfl),
    laneDoes_mul (k := 2) (by decide) (fun _ => rfl)⟩

/-- Settles O10: the five are the FPU's operations 0 to 4 (`laneDoes_fpu`), of which 2, fma, takes a cycle more. -/
theorem fpuOperationsWriteTheirResult : Obligations.FpuOperationsWriteTheirResult := by
  unfold Obligations.FpuOperationsWriteTheirResult
  exact fun p t => ⟨laneDoes_fpu (k := 0) (by decide) (fun _ => rfl), laneDoes_fpu (k := 1) (by decide) (fun _ => rfl),
    laneDoes_fpu (k := 2) (by decide) (fun _ => rfl), laneDoes_fpu (k := 3) (by decide) (fun _ => rfl),
    laneDoes_fpu (k := 4) (by decide) (fun _ => rfl)⟩

/-- Settles O11, from `laneDoes_macF`; `mac.clr` examines no mode and `mac.set` the same as `mac.fK`. -/
theorem macCommandsUpdateAccumulators : Obligations.MacCommandsUpdateAccumulators := by
  unfold Obligations.MacCommandsUpdateAccumulators
  refine fun p k t => ⟨laneDoes_macF (by omega) (fun _ => rfl), ?clr, ?set⟩
  case clr => exact laneDoes_compute (d := 0x56) rfl (fun _ => rfl) (fun _ _ => rfl)
  case set => exact laneDoes_compute (d := 0x57) rfl (fun _ => rfl) (fun l h => (computeIllegal_mac l.u (.inr rfl)).trans h)

end Sys2Proof.Machine
end

section
/-! SUPPORT. What recording an event, and reading a rod of a lane, leave of the state (R149, R241, R243, R372). -/

namespace Sys2Proof.Machine
open Sys2Proof

/-! ### Events -/

/-- The state without its lanes and without what an event is recorded in: the queue, the log and the photo-finish. -/
def State.unheard (s : State) : State :=
  { s with lanes := [], ev := State.reset.ev, log := State.reset.log, snap := State.reset.snap }

theorem State.journal_unheard (s : State) (e : Event) : (s.journal e).unheard = s.unheard := by
  simp only [State.journal]
  split <;> simp only [State.unheard]

theorem State.enqueue_unheard (s : State) (code : Nat) (src : Word) (data : BitVec 64) (tied : Bool) :
    (s.enqueue code src data tied).unheard = s.unheard := by
  simp only [State.enqueue]
  split <;> split <;> simp only [State.journal_unheard] <;> simp only [State.unheard]

theorem State.raiseCore_unheard (s : State) (code : Nat) (src : Word) (data : BitVec 64) (tied : Bool) :
    (s.raiseCore code src data tied).unheard = s.unheard :=
  s.enqueue_unheard code src data tied

theorem State.pfTrigger_unheard (s : State) (bit code : Nat) (armBit : Option Nat) :
    (s.pfTrigger bit code armBit).unheard = s.unheard := by
  simp only [State.pfTrigger]
  split
  · exact State.raiseCore_unheard _ _ _ _ _
  · rfl
  · rfl

/-- An event is recorded, and interrupts lanes; nothing else changes (R372). -/
theorem State.raise_unheard (s : State) (code : Nat) (src : Word) (data : BitVec 64) (tied : Bool) :
    (s.raise code src data tied).unheard = s.unheard := by
  simp only [State.raise]
  split
  · exact (State.pfTrigger_unheard _ _ _ _).trans (s.raiseCore_unheard _ _ _ _)
  · exact s.raiseCore_unheard _ _ _ _

theorem State.mems_of_unheard {s t : State} (h : t.unheard = s.unheard) : t.mems = s.mems := (congrArg State.mems h :)
theorem State.con_of_unheard {s t : State} (h : t.unheard = s.unheard) : t.con = s.con := (congrArg State.con h :)

/-! ### Results in flight stay in flight -/

theorem mem_addLast_of_mem {f g : Flight} {r : List Flight} (h : g ∈ r) : g ∈ addLast f r := by
  induction r with
  | nil => cases h
  | cons x r ih =>
    simp only [addLast]
    split
    · rcases List.mem_cons.mp h with rfl | h
      · exact List.mem_cons_self
      · exact List.mem_cons_of_mem _ (ih h)
    · exact List.mem_cons_of_mem _ h

theorem Lane.mem_flight_fly_of_mem {l : Lane} {f : Flight} (h : f ∈ l.flight) (d k : Nat) (r : Res) :
    f ∈ (l.fly d k r).flight := mem_addLast_of_mem h

section
variable {s : State} {q : Nat} {f : Flight} (h : f ∈ (s.lane q).flight)
include h

theorem State.mem_flight_pendInt (p k : Nat) : f ∈ ((s.pendInt p k).lane q).flight := by
  rw [State.pendInt, State.lane_setLane]
  split
  case isTrue hq => exact Lane.mem_flight_fly_of_mem (hq ▸ h) _ _ _
  case isFalse => exact h

theorem State.mem_flight_raiseCore (code : Nat) (src : Word) (data : BitVec 64) (tied : Bool) :
    f ∈ ((s.raiseCore code src data tied).lane q).flight := by
  simp only [State.raiseCore]
  have hq (t : State) (ht : t.lanes = s.lanes) : f ∈ (t.lane q).flight := by rwa [State.lane_of_lanes ht]
  refine State.mem_flight_pendInt (State.mem_flight_pendInt (State.mem_flight_pendInt (State.mem_flight_pendInt ?_ _ _) _ _) _ _) _ _
  exact hq _ (s.enqueue_lanes code src data tied)

theorem State.mem_flight_pfTrigger (bit code : Nat) (armBit : Option Nat) :
    f ∈ ((s.pfTrigger bit code armBit).lane q).flight := by
  simp only [State.pfTrigger]
  split
  · exact State.mem_flight_raiseCore (by exact h) _ _ _ _
  · exact h
  · exact h

theorem State.mem_flight_raise (code : Nat) (src : Word) (data : BitVec 64) (tied : Bool) :
    f ∈ ((s.raise code src data tied).lane q).flight := by
  have hc := State.mem_flight_raiseCore h code src data tied
  simp only [State.raise]
  split
  · exact State.mem_flight_pfTrigger hc _ _ _
  · exact hc
end

/-! ### Reads of rods -/

theorem Lane.lsu_of_standing {a b : Lane} (h : a.standing = b.standing) : a.lsu = b.lsu ∧ a.ctl.after = b.ctl.after :=
  ⟨(congrArg Lane.lsu h :), (congrArg (fun l : Lane => l.ctl.after) h :)⟩

/-- The three data arrays of a lane's memory block. -/
def LaneMem.arrays (m : LaneMem) : RodArr × RodArr × RodArr := (m.h0, m.h1, m.is)

theorem LaneMem.use_arrays (m : LaneMem) (k now : Nat) : (m.use k now).arrays = m.arrays := by
  simp only [LaneMem.use, LaneMem.setSp]
  split
  · rfl
  · split <;> rfl

theorem LaneMem.note_arrays (m : LaneMem) (k src a : Nat) (r : RowRead) : (m.note k src a r).arrays = m.arrays := by
  simp only [LaneMem.note]
  split <;> split_ifs <;> rfl

/-- `t` is `s` after reads: no lane has changed but for results that have joined its flight and what fetch notes, and no array has
been written. -/
structure State.Reads (s t : State) : Prop where
  standing : ∀ q, (t.lane q).standing = (s.lane q).standing
  flight : ∀ q, ∀ f ∈ (s.lane q).flight, f ∈ (t.lane q).flight
  arrays : ∀ q, (t.lmem q).arrays = (s.lmem q).arrays

theorem State.Reads.refl (s : State) : s.Reads s := ⟨fun _ => rfl, fun _ _ h => h, fun _ => rfl⟩

theorem State.Reads.trans {s t u : State} (h : s.Reads t) (h' : t.Reads u) : s.Reads u :=
  ⟨fun q => (h'.standing q).trans (h.standing q), fun q f hf => h'.flight q f (h.flight q f hf),
    fun q => (h'.arrays q).trans (h.arrays q)⟩

theorem State.reads_setLmem {s : State} {p : Nat} {m : LaneMem} (h : m.arrays = (s.lmem p).arrays) : s.Reads (s.setLmem p m) := by
  refine ⟨fun _ => rfl, fun _ _ hf => hf, fun q => ?_⟩
  rw [State.lmem_setLmem]
  split
  case isTrue hq => rw [hq, h]
  case isFalse => rfl

theorem State.reads_raise (s : State) (code : Nat) (src : Word) (data : BitVec 64) (tied : Bool) :
    s.Reads (s.raise code src data tied) :=
  ⟨s.raise_standing code src data tied, fun _ _ hf => State.mem_flight_raise hf code src data tied,
    fun q => by rw [State.lmem, State.mems_of_unheard (s.raise_unheard code src data tied), ← State.lmem]⟩

theorem State.reads_rodRead (s : State) (p a src : Nat) : s.Reads (s.rodRead p a src).2 := by
  simp only [State.rodRead]
  have hn := State.reads_setLmem (s := s) (LaneMem.note_arrays (s.lmem p) (arrOf a) src a
    (readRow ((s.lmem p).arr (arrOf a)) (arrRows (arrOf a)) (rowOf a)))
  split
  · exact hn.trans (State.reads_raise _ _ _ _ _)
  · exact hn

theorem reads_loadPart (s : State) (p at_ : Nat) (part : Nat × BitVec 32) : s.Reads (loadPart s p at_ part).2 := by
  simp only [loadPart]
  split
  · split <;> exact State.Reads.refl s
  · exact (State.reads_setLmem (LaneMem.use_arrays _ _ _)).trans (State.reads_rodRead _ _ _ _)

/-- A load reads the bytes it does not forward, and changes nothing (R142, R149). -/
theorem reads_loadBytes (s : State) (p a n : Nat) : s.Reads (loadBytes s p a n).2 := by
  unfold loadBytes
  split
  · exact reads_loadPart _ _ _ _
  · exact (reads_loadPart _ _ _ _).trans (reads_loadPart _ _ _ _)
  · exact State.Reads.refl s

end Sys2Proof.Machine
end

section
/-! SUPPORT. The access triggers of the LSU: their checks in order, the trigger as one operation on the state, and stores
(R124, R128–R134, R139, R145–R147, R162, R175). -/

namespace Sys2Proof.Machine
open Sys2Proof

/-! ### Checks -/

/-- The rule of R133 on where an access of `n` bytes at `a` may lie. -/
def AccessPlaced (op a n : Nat) : Prop :=
  a + n ≤ 2 ^ 32 ∧ regionOf a = regionOf (a + n - 1) ∧ (2 ≤ op → a % n = 0 ∧ regionOf a = .home) ∧
    (regionOf a = .sysblk → n = 4 ∧ a % 4 = 0)

theorem lsuAligned_iff (op a n : Nat) : lsuAligned op a n = true ↔ AccessPlaced op a n := by
  unfold lsuAligned accRegion AccessPlaced
  by_cases hw : a + n ≤ 2 ^ 32
  · have hw' : ¬ a + n > 4294967296 := by omega
    by_cases hr : regionOf a = regionOf (a + n - 1)
    · simp only [if_neg hw', if_pos hr, Bool.and_eq_true, Bool.or_eq_true, decide_eq_true_eq, hw, true_and]
      rw [← hr]
      have hop : op ≤ 1 ↔ ¬ 2 ≤ op := by omega
      simp only [hop, ← imp_iff_not_or, imp_iff_or_not, ne_eq, true_and]
    · simp [hw', hr]
  · have hw' : a + n > 4294967296 := by omega
    simp [hw']

section
variable (l : Lane) {op : Nat} (t : Word)

/-- The effective address of an access (R129). -/
def Lane.accAddr (l : Lane) (t : Word) : Nat := (lsuEa l.u t).1.toNat

/-- The number of its authority capability (R128). -/
def Lane.authIdx (l : Lane) : Nat := (l.u.lmode.extractLsb' 8 3).toNat

/-- Its authority capability (R128). -/
def Lane.authCap (l : Lane) : Cap := l.cReg l.authIdx

/-- `lsu.fence` has no check. -/
theorem lsuCheck_fence : lsuCheck l 6 t = none := rfl

/-- A plain access of the reserved size is refused before anything else is looked at (R128). -/
theorem lsuCheck_reservedSize (h1 : op ≤ 1) (h3 : l.u.lmode.extractLsb' 0 2 = 3) :
    lsuCheck l op t = some ⟨1, 0, 0, (lsuEa l.u t).1⟩ := by
  have h6 : op ≠ 6 := by omega
  simp [lsuCheck, h6, h1, h3]

/-- The checks of every other access, in their order (R175). -/
theorem lsuCheck_order (h : op < 6) (hs : op ≤ 1 → l.u.lmode.extractLsb' 0 2 ≠ 3) : lsuCheck l op t =
    if l.authCap.tag = false then some ⟨2, l.authIdx, 0, (lsuEa l.u t).1⟩
    else if l.authCap.otype ≠ 0 then some ⟨5, l.authIdx, 0, (lsuEa l.u t).1⟩
    else if lsuPerm l op (l.accAddr t) l.authCap = false then some ⟨4, l.authIdx, 0, (lsuEa l.u t).1⟩
    else if lsuAligned op (l.accAddr t) (lsuSize op l.u) = false then some ⟨12, 0, 0, (lsuEa l.u t).1⟩
    else if l.authCap.covers (l.accAddr t) (lsuSize op l.u) = false then some ⟨3, l.authIdx, 0, (lsuEa l.u t).1⟩
    else none := by
  have h6 : op ≠ 6 := by omega
  have hz : ¬ (op ≤ 1 ∧ l.u.lmode.extractLsb' 0 2 = 3) := fun hh => hs hh.1 hh.2
  simp only [lsuCheck, if_neg h6, if_neg hz, Bool.not_eq_true', Cap.sealed, decide_eq_true_eq]
  rfl

/-- An access that is not refused lies where R133 allows it. -/
theorem accessPlaced_of_lsuCheck {l : Lane} {t : Word} (h : op < 6) (hc : lsuCheck l op t = none) :
    AccessPlaced op (l.accAddr t) (lsuSize op l.u) := by
  have hs : op ≤ 1 → l.u.lmode.extractLsb' 0 2 ≠ 3 := by
    intro h1 h3
    rw [lsuCheck_reservedSize l t h1 h3] at hc
    cases hc
  rw [lsuCheck_order l t h hs] at hc
  rw [← lsuAligned_iff]
  by_contra hn
  rw [Bool.not_eq_true] at hn
  simp only [hn, if_true] at hc
  split_ifs at hc

/-- Reservations, conditionals and capabilities have their place in the home memory (R124, R133). -/
theorem home_of_lsuCheck {l : Lane} {t : Word} (h2 : 2 ≤ op) (h : op < 6) (hc : lsuCheck l op t = none) :
    regionOf (l.accAddr t) = .home :=
  have ⟨_, _, hhome, _⟩ := accessPlaced_of_lsuCheck h hc
  (hhome h2).2
end

end Sys2Proof.Machine
end

section
/-! SUPPORT. The access triggers of the LSU as one operation on the state, and the accesses that change their lane alone: stores,
conditionals, the lane system block and unmapped addresses (R124, R129, R130, R139–R147, R162). -/

namespace Sys2Proof.Machine
open Sys2Proof

/-! ### The trigger -/

/-- Of an access trigger the LSU's own checks are all that is made. -/
theorem unitCheck_lsu (p : Nat) (l : Lane) {k : Nat} (hk : k ≤ 6) (v : Word) : unitCheck p l (0x5C + k) v = lsuCheck l k v := by
  have hi : computeIllegal l.u (0x5C + k) = false := by
    unfold computeIllegal
    rw [if_neg (by omega), if_neg (by omega)]
  unfold unitCheck
  rw [hi, if_neg Bool.false_ne_true, if_pos (by omega), Nat.add_sub_cancel_left]

theorem slotForbidden_lsu {k : Nat} (hk : k ≤ 6) : slotForbidden (0x5C + k) = false := by
  simp only [slotForbidden, within, Bool.or_eq_false_iff, Bool.and_eq_false_iff, decide_eq_false_iff_not]
  omega

theorem State.fire_lsu (s : State) (p : Nat) {k : Nat} (hk : k ≤ 6) (v : Word) : s.fire p (0x5C + k) v = lsuFire s p k v := by
  unfold State.fire
  rw [if_pos (by omega), Nat.add_sub_cancel_left]

theorem State.fireLate_lsu (s : State) (p : Nat) {k : Nat} (hk : k ≤ 6) : s.fireLate p (0x5C + k) = s := by
  unfold State.fireLate
  split
  case h_5 => rfl
  all_goals omega

/-- An access trigger that acts and whose checks hold performs its access, after the drains it waits for (R142, R143). -/
theorem trigger_lsu {s : State} {p k : Nat} {v : Word} (hk : k ≤ 6) (h : s.Acts p (0x5C + k))
    (hc : lsuCheck (s.laneNow p) k v = none) : trigger s p (0x5C + k) v =
      lsuFire (((s.settle p).drainHeld p (0x5C + k) v).step2 p (0x5C + k)) p k v := by
  rw [trigger_acts s p _ v h (by rw [slotForbidden_lsu hk, Bool.and_false])
    ((moveChecks_imm p _ _ (by omega) v none).trans ((unitCheck_lsu p _ hk v).trans hc)),
    State.fireLate_lsu _ p hk, State.fire_lsu _ p hk]

/-- With nothing to wait for no drain is forced. -/
theorem State.drainHeld_of_no_hold {s : State} {p k : Nat} {v : Word} (h : lsuHold (s.lane p) k v = none) :
    s.drainHeld p (0x5C + k) v = s := by
  unfold State.drainHeld
  split
  · rw [Nat.add_sub_cancel_left, h]
  · rfl

/-! ### What step 2 leaves of an access -/

section
variable {l m : Lane} (h : l.own = m.own)
include h

/-- Remote moves, stalls and fetch leave the operands of the LSU alone (R225). -/
theorem lsuOperands_of_own (t : Word) (op : Nat) : lsuEa l.u t = lsuEa m.u t ∧ lsuSize op l.u = lsuSize op m.u := by
  have hu : l.own.u = m.own.u := congrArg Lane.u h
  exact ⟨(congrArg (lsuEa · t) hu :), (congrArg (lsuSize op ·) hu :)⟩

theorem accAddr_of_own (t : Word) : l.accAddr t = m.accAddr t := by
  rw [Lane.accAddr, (lsuOperands_of_own h t 0).1, ← Lane.accAddr]

/-- Where the checks place the address in the home memory, it is there in step 3. -/
theorem home_of_own {t : Word} {op : Nat} (h2 : 2 ≤ op) (h6 : op < 6) (hc : lsuCheck m op t = none) :
    regionOf (l.accAddr t) = .home := by
  rw [accAddr_of_own h]
  exact home_of_lsuCheck h2 h6 hc

theorem lsu_of_own : l.lsu = m.lsu := (congrArg Lane.lsu h :)
end

/-! ### Accesses that change their lane alone -/

/-- An access that waits for nothing and works on its lane alone. -/
theorem laneDoes_lsu {c : Instr} {p k : Nat} {v : Word} {ok : Lane → Prop} {f : Nat → Lane → Lane} (hk : k ≤ 6)
    (he : ∀ s, exec c s = .next (s.live (trigger s p (0x5C + k) v)))
    (hok : ∀ l, ok l → lsuCheck l k v = none ∧ lsuHold l k v = none)
    (hf : ∀ (u : State) (l : Lane), ok l → (u.lane p).own = l.own → lsuFire u p k v = u.setLane p (f u.now (u.lane p))) :
    LaneDoes c p (0x5C + k) ok f := by
  intro s h ho
  obtain ⟨hcheck, hhold⟩ := hok _ ho
  refine ⟨_, exec_of_live h.1 (he s) rfl, ?_⟩
  rw [trigger_lsu hk h hcheck, State.drainHeld_of_no_hold hhold, hf _ _ ho (State.step2_own _ p _)]
  exact State.laneOnly_step2 _ _ _ _

/-- Outside the store buffer's regions nothing is held (R124). -/
theorem lsuHold_of_unbuffered {l : Lane} {v : Word} (op : Nat) (h : buffered (l.accAddr v) = false) : lsuHold l op v = none := by
  simp only [Lane.accAddr] at h
  simp [lsuHold, h]

theorem buffered_iff (a : Nat) : buffered a = true ↔ regionOf a = .home ∨ regionOf a = .istore := by
  simp [buffered]

/-- An access outside them works on its lane alone, as the region of its address says. -/
theorem laneDoes_unbuffered {c : Instr} {p k : Nat} {v : Word} {r : Region} {f : Nat → Lane → Lane} (hk : k ≤ 6)
    (hr : r ≠ .home ∧ r ≠ .istore) (he : ∀ s, exec c s = .next (s.live (trigger s p (0x5C + k) v)))
    (hf : ∀ u : State, regionOf ((u.lane p).accAddr v) = r → lsuFire u p k v = u.setLane p (f u.now (u.lane p))) :
    LaneDoes c p (0x5C + k) (fun l => lsuCheck l k v = none ∧ regionOf (lsuEa l.u v).1.toNat = r) f := by
  refine laneDoes_lsu hk he (fun l ⟨hc, hl⟩ => ⟨hc, lsuHold_of_unbuffered k ?_⟩) (fun u l ⟨_, hl⟩ ho => hf u ?_)
  · have hl : regionOf (l.accAddr v) = r := hl
    rw [Bool.eq_false_iff, ne_eq, buffered_iff, hl]
    exact not_or.mpr hr
  · rw [accAddr_of_own ho]
    exact hl

/-- A conditional without its reservation stores nothing, and so waits for nothing (R146). -/
theorem lsuHold_failed_sc {l : Lane} {v : Word} (h : l.lsu.rsv ≠ some (l.accAddr v / 32 * 32)) : lsuHold l 3 v = none := by
  simp only [Lane.accAddr] at h
  simp [lsuHold, lsuIsLoad, lsuIsStore, h]

section
variable {u : State} {p : Nat} {t : Word}

/-- A data store enters the store buffer (R139). -/
theorem lsuFire_store (h : buffered ((u.lane p).accAddr t) = true) : lsuFire u p 1 t =
    u.setLane p ((((u.lane p).lsuUpdate u.now t).bufStore u.now ((u.lane p).accAddr t)
      (leBytes (u.lane p).u.data.toNat (lsuSize 1 (u.lane p).u)) none).addStall u.now
        (lsuStall 1 ((u.lane p).accAddr t) (lsuSize 1 (u.lane p).u))) := by
  simp only [Lane.accAddr] at h ⊢
  rcases (buffered_iff _).mp h with h | h <;> simp [lsuFire, h, lsuIsLoad]

/-- A capability enters the store buffer with its tag (R145). -/
theorem lsuFire_storeCap (h : regionOf ((u.lane p).accAddr t) = .home) : lsuFire u p 5 t =
    u.setLane p (((u.lane p).lsuUpdate u.now t).bufStore u.now ((u.lane p).accAddr t)
      ((u.lane p).cReg ((u.lane p).u.lmode.extractLsb' 12 3).toNat).bytes
      (some ((u.lane p).cReg ((u.lane p).u.lmode.extractLsb' 12 3).toNat).tag)) := by
  simp only [Lane.accAddr] at h ⊢
  simp [lsuFire, h, lsuIsLoad]

/-- A conditional with its reservation stores, and shows 1 (R146). -/
theorem lsuFire_sc_stores (h : regionOf ((u.lane p).accAddr t) = .home)
    (hr : (u.lane p).lsu.rsv = some ((u.lane p).accAddr t / 32 * 32)) : lsuFire u p 3 t =
      u.setLane p (let b := ((u.lane p).lsuUpdate u.now t).bufStore u.now ((u.lane p).accAddr t) (leBytes (u.lane p).u.data.toNat 4) none
        { b.fly (u.now + 2) 5 (.scs 1) with lsu := { b.lsu with
          rsv := none, scUndo := some (u.now, (u.lane p).accAddr t / 32 * 32, (u.lane p).lsu.sb) } }) := by
  simp only [Lane.accAddr] at h hr ⊢
  simp [lsuFire, h, hr, lsuIsLoad, b2w]

/-- A conditional without it stores nothing, and shows 0 (R146). -/
theorem lsuFire_sc_fails (h : regionOf ((u.lane p).accAddr t) = .home)
    (hr : (u.lane p).lsu.rsv ≠ some ((u.lane p).accAddr t / 32 * 32)) : lsuFire u p 3 t =
      u.setLane p (let b := (u.lane p).lsuUpdate u.now t
        { b.fly (u.now + 2) 5 (.scs 0) with lsu := { b.lsu with rsv := none } }) := by
  simp only [Lane.accAddr] at h hr ⊢
  simp [lsuFire, h, hr, lsuIsLoad, b2w]

/-- A load from the lane system block reads a system register (R124, R162). -/
theorem lsuFire_load_sysblk (h : regionOf ((u.lane p).accAddr t) = .sysblk) : lsuFire u p 0 t =
    u.setLane p (let b := ((u.lane p).lsuUpdate u.now t).fly (u.now + 2) 5 (.lsuR (sysRead p (u.lane p) (((u.lane p).accAddr t - 0x18000) / 4)))
      { b with ctl := { b.ctl with lsuMark := u.now + 1 } }) := by
  simp only [Lane.accAddr] at h ⊢
  simp [lsuFire, h]

/-- A store to it writes one, past the store buffer. -/
theorem lsuFire_store_sysblk (h : regionOf ((u.lane p).accAddr t) = .sysblk) : lsuFire u p 1 t =
    u.setLane p (((u.lane p).lsuUpdate u.now t).sysLater u.now (((u.lane p).accAddr t - 0x18000) / 4) (u.lane p).u.data) := by
  simp only [Lane.accAddr] at h ⊢
  simp [lsuFire, h]

/-- A load from an unmapped address shows 0 (R124). -/
theorem lsuFire_load_unmapped (h : regionOf ((u.lane p).accAddr t) = .unmapped) : lsuFire u p 0 t =
    u.setLane p (let b := (u.lane p).lsuUpdate u.now t
      let b := { b with lsu := { b.lsu with unmapped := true } }
      let b := b.fly (u.now + 2) 5 (.lsuR 0)
      { b with ctl := { b.ctl with lsuMark := u.now + 1 } }) := by
  simp only [Lane.accAddr] at h ⊢
  simp [lsuFire, h]

/-- A store to one is discarded. -/
theorem lsuFire_store_unmapped (h : regionOf ((u.lane p).accAddr t) = .unmapped) : lsuFire u p 1 t =
    u.setLane p (let b := (u.lane p).lsuUpdate u.now t
      { b with lsu := { b.lsu with unmapped := true } }) := by
  simp only [Lane.accAddr] at h ⊢
  simp [lsuFire, h]
end

end Sys2Proof.Machine
end

section
/-! SUPPORT. Loads from the lane's own memories and `lsu.fence`: the drains they wait for, the bytes that are read and what the
lane gains by them (R130, R134–R137, R142–R149, R198). -/

namespace Sys2Proof.Machine
open Sys2Proof

/-! ### The drains that an access waits for -/

/-- A drain cycle works on the store buffer of its lane; its failure is a result in flight (R140, R150). -/
theorem State.drainStep_lane (s : State) (p j : Nat) : ∃ sb fl,
    (s.drainStep p j).lane p = { s.lane p with lsu := { (s.lane p).lsu with sb := sb }, flight := fl } := by
  simp only [State.drainStep]
  split
  case h_1 => exact ⟨_, _, rfl⟩
  case h_2 e _ =>
    by_cases hf : e.full = true
    · simp only [hf, if_true, State.lane_setLane_same]
      exact ⟨_, _, rfl⟩
    · by_cases hb : e.begun = true
      · simp only [hf, hb, Bool.false_eq_true, if_true, if_false, State.lane_setLane_same]
        exact ⟨_, _, rfl⟩
      · simp only [hf, hb, Bool.false_eq_true, if_false, State.lane_setLane_same]
        split <;> exact ⟨_, _, rfl⟩

theorem State.drainStep_u (s : State) (p j : Nat) : ((s.drainStep p j).lane p).u = (s.lane p).u := by
  obtain ⟨sb, fl, h⟩ := s.drainStep_lane p j
  rw [h]

theorem State.drainSel_u (s : State) (p : Nat) (sel : SbEntry → Bool) (n : Nat) :
    ((s.drainSel p sel n).lane p).u = (s.lane p).u := by
  induction n generalizing s with
  | zero => rfl
  | succ n ih =>
    simp only [State.drainSel]
    split
    · rfl
    · rw [ih, State.drainStep_u]

/-- The units stand while an access waits. -/
theorem State.drainHeld_u (s : State) (p d : Nat) (v : Word) : ((s.drainHeld p d v).lane p).u = (s.lane p).u := by
  unfold State.drainHeld
  split
  · split
    case h_1 h _ =>
      rw [State.drainSel_u, State.lane_setLane_same]
      simp only [Lane.beginHold]
      rfl
    · rfl
  · rfl

/-- The state in which an access of port `d` acts: the drains it waits for are done and step 2 has passed. -/
def State.accessing (s : State) (p d : Nat) (t : Word) : State := ((s.settle p).drainHeld p d t).step2 p d

/-- The address is that of the checks. -/
theorem State.accessing_accAddr (s : State) (p d : Nat) (t : Word) :
    ((s.accessing p d t).lane p).accAddr t = (s.laneNow p).accAddr t := by
  rw [State.accessing, accAddr_of_own (State.step2_own _ p d), Lane.accAddr, State.drainHeld_u]
  rfl

/-! ### What a load gains -/

/-- The results of load `op` in flight: the word of the bytes found, or the capability and its tag (R134, R145, R149). -/
def Lane.loadShows (l : Lane) (op due a n : Nat) (md : Word) (x : List Byte × BitVec 2 × Bool) : Lane :=
  if op = 4 then
    let tag := !x.2.2 && x.2.1.getLsbD (a % 32 / 16)
    (l.fly due 5 (.lsuR (b2w tag))).fly due 5 (.capC (md.extractLsb' 12 3).toNat (if x.2.2 then nullCap else capOf x.1 tag))
  else l.fly due 5 (.lsuR (if x.2.2 then 0 else loadExt n (decide (op = 0) && md.getLsbD 2) x.1))

/-- The lane after a load that found `x`: it stalls, its results are in flight, an uncorrectable rod is a trap to come, and
`lsu.lr` has its reservation (R136, R137, R146, R149). -/
def Lane.loadEnd (l : Lane) (now op a n : Nat) (md : Word) (x : List Byte × BitVec 2 × Bool) : Lane :=
  let m := ({ l with ctl := { l.ctl with lsuMark := now + 1 } }).addStall now (lsuStall op a n)
  let m := m.loadShows op (if lsuStall op a n = 2 then now + 3 else now + 2) a n md x
  let m := if x.2.2 then m.failLoad (BitVec.ofNat 32 a) (now + 2) else m
  if op = 2 then { m with lsu := { m.lsu with rsv := some (a / 32 * 32) } } else m

/-- What a load reads, through the store buffer, on the lane whose base it has updated. -/
def State.loadRead (s : State) (p op : Nat) (t : Word) : (List Byte × BitVec 2 × Bool) × State :=
  loadBytes (s.setLane p ((s.lane p).lsuUpdate s.now t)) p ((s.lane p).accAddr t) (lsuSize op (s.lane p).u)

/-- A load of the store buffer's regions. -/
theorem lsuFire_load {u : State} {p op : Nat} {t : Word} (hl : lsuIsLoad op = true) (h : buffered ((u.lane p).accAddr t) = true) :
    lsuFire u p op t = (u.loadRead p op t).2.setLane p (((u.loadRead p op t).2.lane p).loadEnd u.now op ((u.lane p).accAddr t)
      (lsuSize op (u.lane p).u) (u.lane p).u.lmode (u.loadRead p op t).1) := by
  have h6 : op ≠ 6 := by rintro rfl; cases hl
  simp only [State.loadRead, Lane.accAddr] at h ⊢
  rcases (buffered_iff _).mp h with h | h <;> simp only [lsuFire, if_neg h6, h, hl, if_true] <;> rfl

section
variable (l : Lane) (now op a n : Nat) (md : Word) (x : List Byte × BitVec 2 × Bool)

theorem Lane.loadShows_frame (due : Nat) : ∃ fl, l.loadShows op due a n md x = { l with flight := fl } := by
  unfold Lane.loadShows
  split <;> exact ⟨_, rfl⟩

/-- A load changes the results in flight, the stalls, the trap to come, and with `lsu.lr` the reservation (R137, R146, R149). -/
theorem Lane.loadEnd_frame : ∃ fl ct tr, l.loadEnd now op a n md x = { l with
    flight := fl, ctl := ct, trap := tr, lsu := if op = 2 then { l.lsu with rsv := some (a / 32 * 32) } else l.lsu } := by
  unfold Lane.loadEnd
  obtain ⟨fl, hshows⟩ := (({ l with ctl := { l.ctl with lsuMark := now + 1 } }).addStall now (lsuStall op a n)).loadShows_frame
    op a n md x (if lsuStall op a n = 2 then now + 3 else now + 2)
  simp only [hshows]
  split <;> split <;> exact ⟨_, _, _, rfl⟩

theorem Lane.loadEnd_flight : (l.loadEnd now op a n md x).flight =
    (l.loadShows op (if lsuStall op a n = 2 then now + 3 else now + 2) a n md x).flight := by
  simp only [Lane.loadEnd, Lane.loadShows]
  split_ifs <;> rfl

theorem Lane.mem_loadEnd_of_mem {f : Flight} (h : f ∈ l.flight) : f ∈ (l.loadEnd now op a n md x).flight := by
  rw [Lane.loadEnd_flight]
  simp only [Lane.loadShows]
  split
  · exact Lane.mem_flight_fly_of_mem (Lane.mem_flight_fly_of_mem h _ _ _) _ _ _
  · exact Lane.mem_flight_fly_of_mem h _ _ _

/-- A plain load or `lsu.lr` shows its word (R134). -/
theorem Lane.mem_loadEnd_word (h : op ≠ 4) :
    ⟨now + (if lsuStall op a n = 2 then 3 else 2), 5, .lsuR (if x.2.2 then 0 else loadExt n (decide (op = 0) && md.getLsbD 2) x.1)⟩
      ∈ (l.loadEnd now op a n md x).flight := by
  have hdue : now + (if lsuStall op a n = 2 then 3 else 2) = if lsuStall op a n = 2 then now + 3 else now + 2 :=
    apply_ite (now + ·) _ _ _
  rw [Lane.loadEnd_flight, Lane.loadShows, if_neg h, hdue]
  exact Lane.mem_flight_fly _ _ _ _

/-- `lsu.ldc` shows the capability and its tag; it comes from the home memory, and so in two cycles (R136, R145). -/
theorem Lane.mem_loadEnd_cap (h : regionOf a = .home) :
    let tag := !x.2.2 && x.2.1.getLsbD (a % 32 / 16)
    ⟨now + 2, 5, .capC (md.extractLsb' 12 3).toNat (if x.2.2 then nullCap else capOf x.1 tag)⟩ ∈ (l.loadEnd now 4 a n md x).flight ∧
    ⟨now + 2, 5, .lsuR (b2w tag)⟩ ∈ (l.loadEnd now 4 a n md x).flight := by
  have hst : ¬ lsuStall 4 a n = 2 := by simp only [lsuStall, h]; split <;> decide
  rw [Lane.loadEnd_flight, if_neg hst, Lane.loadShows, if_pos rfl]
  exact ⟨Lane.mem_flight_fly _ _ _ _, Lane.mem_flight_fly_of_mem (Lane.mem_flight_fly _ _ _ _) _ _ _⟩
end

section
variable (s : State) (p op : Nat) (t : Word)

/-- Reading leaves the lane as its base update made it, and every array as it was. -/
theorem State.reads_loadRead : (s.setLane p ((s.lane p).lsuUpdate s.now t)).Reads (s.loadRead p op t).2 := reads_loadBytes _ _ _ _

theorem State.loadRead_standing : ((s.loadRead p op t).2.lane p).standing = ((s.lane p).lsuUpdate s.now t).standing :=
  ((s.reads_loadRead p op t).standing p).trans (by rw [State.lane_setLane_same])

theorem State.mem_loadRead_ua : ⟨s.now + 1, 5, .lsuUa (lsuEa (s.lane p).u t).2.2⟩ ∈ ((s.loadRead p op t).2.lane p).flight := by
  refine (s.reads_loadRead p op t).flight p _ ?_
  rw [State.lane_setLane_same]
  exact Lane.mem_flight_fly _ _ _ _

/-- The state after a load. -/
def State.afterLoad : State :=
  (s.loadRead p op t).2.setLane p (((s.loadRead p op t).2.lane p).loadEnd s.now op ((s.lane p).accAddr t)
    (lsuSize op (s.lane p).u) (s.lane p).u.lmode (s.loadRead p op t).1)

theorem State.afterLoad_regs : ((s.afterLoad p op t).lane p).w = (s.lane p).w ∧ ((s.afterLoad p op t).lane p).g = (s.lane p).g ∧
    ((s.afterLoad p op t).lane p).c = (s.lane p).c ∧ ((s.afterLoad p op t).lane p).u.base = (lsuEa (s.lane p).u t).2.1 := by
  have hst := s.loadRead_standing p op t
  obtain ⟨hw, hg, hc⟩ := Lane.regs_of_standing hst
  obtain ⟨hu, -⟩ := Lane.units_of_standing hst
  obtain ⟨fl, ct, tr, hend⟩ := Lane.loadEnd_frame ((s.loadRead p op t).2.lane p) s.now op ((s.lane p).accAddr t)
    (lsuSize op (s.lane p).u) (s.lane p).u.lmode (s.loadRead p op t).1
  rw [State.afterLoad, State.lane_setLane_same, hend]
  exact ⟨hw, hg, hc, congrArg Units.base hu⟩

theorem State.afterLoad_lsu : ((s.afterLoad p op t).lane p).lsu.sb = (s.lane p).lsu.sb ∧
    ((s.afterLoad p op t).lane p).lsu.rsv = if op = 2 then some ((s.lane p).accAddr t / 32 * 32) else (s.lane p).lsu.rsv := by
  obtain ⟨hst, -⟩ := Lane.lsu_of_standing (s.loadRead_standing p op t)
  obtain ⟨fl, ct, tr, hend⟩ := Lane.loadEnd_frame ((s.loadRead p op t).2.lane p) s.now op ((s.lane p).accAddr t)
    (lsuSize op (s.lane p).u) (s.lane p).u.lmode (s.loadRead p op t).1
  rw [State.afterLoad, State.lane_setLane_same, hend, hst]
  simp only [apply_ite Lsu.sb, apply_ite Lsu.rsv, ite_self]
  exact ⟨rfl, rfl⟩

theorem State.afterLoad_lane_other {q : Nat} (h : q ≠ p) : (s.afterLoad p op t).lane q = (s.loadRead p op t).2.lane q :=
  State.lane_setLane_other _ _ h

theorem State.mem_afterLoad_ua : ⟨s.now + 1, 5, .lsuUa (lsuEa (s.lane p).u t).2.2⟩ ∈ ((s.afterLoad p op t).lane p).flight := by
  rw [State.afterLoad, State.lane_setLane_same]
  exact Lane.mem_loadEnd_of_mem _ _ _ _ _ _ _ (s.mem_loadRead_ua p op t)

theorem State.afterLoad_arrays (q : Nat) : ((s.afterLoad p op t).lmem q).h0 = (s.lmem q).h0 ∧
    ((s.afterLoad p op t).lmem q).h1 = (s.lmem q).h1 ∧ ((s.afterLoad p op t).lmem q).is = (s.lmem q).is := by
  have h : ((s.afterLoad p op t).lmem q).arrays = (s.lmem q).arrays := (s.reads_loadRead p op t).arrays q
  simpa only [LaneMem.arrays, Prod.mk.injEq] using h
end

/-- A load command that acts, whose checks hold and whose address lies in the lane's own memories. -/
theorem exec_load {c : Instr} {s : State} {p d k : Nat} {t : Word} (hd : d = 0x5C + k) (hl : lsuIsLoad k = true)
    (he : exec c s = .next (s.live (trigger s p d t))) (h : s.Acts p d) (hc : lsuCheck (s.laneNow p) k t = none)
    (hb : buffered ((s.laneNow p).accAddr t) = true) : exec c s = .next ((s.accessing p d t).afterLoad p k t) := by
  have hk : k ≤ 6 := by
    simp only [lsuIsLoad, Bool.or_eq_true, decide_eq_true_eq] at hl
    omega
  subst hd
  refine exec_of_live h.1 he ((trigger_lsu hk h hc).trans (lsuFire_load hl ?_))
  exact (congrArg buffered (s.accessing_accAddr p (0x5C + k) t)).trans hb

/-! ### `lsu.fence` -/

/-- The lane after `lsu.fence`: all its entries drain in the cycles that follow, and it stalls as long (R148). -/
def Lane.lsuFenced (l : Lane) (now : Nat) : Lane :=
  (l.forceDrain (fun _ => true) (now + 1 + sbLeft l.lsu.sb)).addStall now (sbLeft l.lsu.sb)

/-- After `lsu.fence` only the stalls and the drains of the lane are new (R148). -/
theorem State.setLane_lsuFenced (v : State) (p : Nat) :
    let l := v.lane p
    let r := v.setLane p (l.lsuFenced v.now)
    (r.lane p).lsu.force = l.lsu.sb.map (fun e => (e.rod, e.alloc)) ∧ v.now + sbLeft l.lsu.sb + 1 ≤ (r.lane p).ctl.stallUntil ∧
    (r.lane p).w = l.w ∧ (r.lane p).g = l.g ∧ (r.lane p).u = l.u ∧ (r.lane p).c = l.c ∧ (r.lane p).flight = l.flight ∧
    (r.lane p).lsu.sb = l.lsu.sb ∧ (∀ q, q ≠ p → r.lane q = v.lane q) ∧ { r with lanes := [] } = { v with lanes := [] } := by
  intro l r
  obtain ⟨hlane, hother, hrest⟩ := v.laneOnly_setLane p (l.lsuFenced v.now)
  rw [show r.lane p = _ from hlane]
  exact ⟨l.forceDrain_all _, le_max_right _ _, rfl, rfl, rfl, rfl, rfl, rfl, hother, hrest⟩

/-- `lsu.fence` that acts, after the drain due in its cycle (R148). -/
theorem exec_lsuFence {s : State} {p : Nat} (t : Word) (h : s.Acts p 0x62) : exec (.lsuFence p t) s =
    .next ((s.drainTaken p 0x62).setLane p (((s.drainTaken p 0x62).lane p).lsuFenced (s.drainTaken p 0x62).now)) := by
  have hnow : (s.drainTaken p 0x62).now = ((s.settle p).step2 p 0x62).now := now_of_core (by simp [State.drainTaken])
  refine exec_of_live h.1 rfl ((trigger_lsu (k := 6) (by decide) h (lsuCheck_fence _ t)).trans ?_)
  rw [State.drainHeld_other _ _ _ _ (by decide), hnow]
  rfl

end Sys2Proof.Machine
end

section
/-! SUPPORT. A drain cycle of the store buffer: what STORE_BUFFER_DRAIN performs, and what the write of a whole entry changes
(R139, R140, R142, R145). -/

namespace Sys2Proof.Machine
open Sys2Proof

/-! ### At most one drain cycle a cycle -/

section
variable {s : State} {p : Nat}

/-- With a drain of this cycle done there is no other. -/
theorem drainNow_done (h : ((s.settleBuf p).lane p).lsu.drainAt = (s.settleBuf p).now + 1) : drainNow s p = s.settleBuf p := by
  simp only [drainNow, h, if_true]

theorem drainNow_none (h : ((s.settleBuf p).lane p).lsu.drainAt ≠ (s.settleBuf p).now + 1) (hn : drainPick (s.settleBuf p) p = none) :
    drainNow s p = s.settleBuf p := by
  simp only [drainNow, if_neg h, hn]

theorem drainNow_some {j : Nat} (h : ((s.settleBuf p).lane p).lsu.drainAt ≠ (s.settleBuf p).now + 1)
    (hj : drainPick (s.settleBuf p) p = some j) :
    drainNow s p = (((s.settleBuf p).drainUse p j).drainStep p j).drained p := by
  simp only [drainNow, if_neg h, hj]
end

/-! ### A write of a rod by its lane -/

/-- The state without the memory blocks of the lanes. -/
def State.unstored (s : State) : State := { s with mems := [] }

theorem State.foldl_unstored {α : Type} (g : State → α → State) (h : ∀ s x, (g s x).unstored = s.unstored) (xs : List α) (s : State) :
    (xs.foldl g s).unstored = s.unstored := by
  induction xs generalizing s with
  | nil => rfl
  | cons x xs ih => exact (ih _).trans (h s x)

theorem State.dirtyMark_unstored (s : State) (p a : Nat) : (s.dirtyMark p a).unstored = s.unstored := by
  simp only [State.dirtyMark]
  apply State.foldl_unstored
  exact fun _ _ => rfl

/-- It changes memory blocks and nothing else (R140, R406). -/
theorem State.laneWrite_unstored (s : State) (p a : Nat) (d : List Byte) (t : BitVec 2) (mark : Bool) :
    (s.laneWrite p a d t mark).unstored = s.unstored :=
  State.dirtyMark_unstored _ _ _

theorem State.laneWrite_lane (s : State) (p a : Nat) (d : List Byte) (t : BitVec 2) (mark : Bool) (q : Nat) :
    (s.laneWrite p a d t mark).lane q = s.lane q :=
  State.lane_of_lanes (congrArg State.lanes (s.laneWrite_unstored p a d t mark) :) q

/-! ### The drain of a whole entry -/

/-- The tags of a rod once the entry is stored: cleared, kept or set as the entry says (R145). -/
def SbEntry.newTags (e : SbEntry) (old : BitVec 2) : BitVec 2 :=
  (match e.tag1 with | none => old &&& 2 | some b => if b then 2 else 0) |||
    (match e.tag0 with | none => old &&& 1 | some b => if b then 1 else 0)

theorem SbEntry.newTags_bit0 (e : SbEntry) (old : BitVec 2) : (e.newTags old).getLsbD 0 = e.tag0.getD (old.getLsbD 0) := by
  rcases h1 : e.tag1 with _ | _ | _ <;> rcases h0 : e.tag0 with _ | _ | _ <;> simp [SbEntry.newTags, h0, h1]

theorem SbEntry.newTags_bit1 (e : SbEntry) (old : BitVec 2) : (e.newTags old).getLsbD 1 = e.tag1.getD (old.getLsbD 1) := by
  rcases h1 : e.tag1 with _ | _ | _ <;> rcases h0 : e.tag0 with _ | _ | _ <;> simp [SbEntry.newTags, h0, h1]

/-- An entry whose 32 bytes are valid is written whole, and leaves the buffer (R140, R142). -/
theorem State.drainStep_full {s : State} {p j : Nat} {e : SbEntry} (h : (s.lane p).lsu.sb[j]? = some e) (hf : e.full = true) :
    s.drainStep p j = (s.laneWrite p e.rod (rodBytes e.data) (e.newTags (s.rodPeek p e.rod).tags) false).setLane p
      { s.lane p with lsu := { (s.lane p).lsu with sb := (s.lane p).lsu.sb.eraseIdx j } } := by
  simp only [State.drainStep, h, hf, if_true]
  rfl

end Sys2Proof.Machine
end

section
/-! SUPPORT. The end of a lane's remote access: what the lane becomes, and the last rod of a steward's access to steward memory
through port A (R138, R251, R292, R293). -/

namespace Sys2Proof.Machine
open Sys2Proof

/-! ### What the lane becomes -/

/-- `m` is lane `l` whose remote access `ra` has ended with a response code and data in cycle `now` (R138, R293). -/
structure Lane.RemoteEnded (l m : Lane) (now : Nat) (ra : RemoteAcc) (code : BitVec 2) (d : List Byte) : Prop where
  mode : m.mode = l.ctl.after.getD .run
  remote : m.lsu.remote = none
  unmapped : m.lsu.unmapped = (l.lsu.unmapped || decide (code = 2))
  shows : ra.store = false →
    ⟨now + 1, 5, .lsuR (if code = 2 ∨ code = 3 then 0 else loadExt ra.size ra.sx d)⟩ ∈ m.flight
  regs : m.w = l.w ∧ m.g = l.g ∧ m.c = l.c
  units : m.u = l.u

theorem State.remoteFinish_ends {s : State} {p : Nat} {ra : RemoteAcc} (h : (s.lane p).lsu.remote = some ra) (code : BitVec 2)
    (d : List Byte) : ∃ m, s.remoteFinish p code d = s.setLane p m ∧ (s.lane p).RemoteEnded m s.now ra code d := by
  simp only [State.remoteFinish, h]
  refine ⟨_, rfl, ?_⟩
  split
  case isTrue hs => exact ⟨rfl, rfl, rfl, fun hn => absurd hs (by simp [hn]), ⟨rfl, rfl, rfl⟩, rfl⟩
  case isFalse =>
    split
    case isTrue h2 =>
      refine ⟨rfl, rfl, rfl, fun _ => ?_, ⟨rfl, rfl, rfl⟩, rfl⟩
      rw [if_pos (c := code = 2 ∨ code = 3) (.inl h2)]; exact Lane.mem_flight_fly _ _ _ _
    case isFalse h2 =>
      split
      case isTrue h3 =>
        refine ⟨rfl, rfl, rfl, fun _ => ?_, ⟨rfl, rfl, rfl⟩, rfl⟩
        rw [if_pos (c := code = 2 ∨ code = 3) (.inr h3)]; exact Lane.mem_flight_fly _ _ _ _
      case isFalse h3 =>
        refine ⟨rfl, rfl, rfl, fun _ => ?_, ⟨rfl, rfl, rfl⟩, rfl⟩
        rw [if_neg (c := code = 2 ∨ code = 3) (not_or.mpr ⟨h2, h3⟩)]; exact Lane.mem_flight_fly _ _ _ _

/-! ### Port A takes the last rod of a load -/

/-- With nothing to retry and no collision port A goes on (R251). -/
theorem State.portAMeet_free {s : State} {rod : Nat} (hr : s.sm.retry = []) (hc : collides s.sm.lastB s.now rod false = false) :
    s.portAMeet rod false false = (s, true) := by
  simp [State.portAMeet, hr, hc]

/-- The read of a rod by port A, with its access noted (R251). -/
def State.portARead (s : State) (rod : Nat) (be : List Bool) : RowRead × State :=
  ({ s with sm := s.sm.mark false ⟨s.now, rod, false, be⟩ } : State).smRead false rod

section
variable (s : State) (rod : Nat) (be : List Bool)

theorem State.portARead_standing (q : Nat) : ((s.portARead rod be).2.lane q).standing = (s.lane q).standing :=
  State.smRead_standing _ _ _ q

theorem State.portARead_now : (s.portARead rod be).2.now = s.now := now_of_core (State.smRead_core _ _ _)

/-- A sound rod is read without an event. -/
theorem State.portARead_lane (h : (readRow s.sm.arr smRows rod).bad = false) (q : Nat) : (s.portARead rod be).2.lane q = s.lane q := by
  refine State.lane_of_lanes ?_ q
  simp only [State.portARead, State.smRead]
  exact (congrArg State.lanes (if_neg (c := (readRow s.sm.arr smRows rod).bad = true) (by simp [h])) :)
end

theorem State.portAStep_last {s : State} {p rod o n : Nat} {ra : RemoteAcc} (h : (s.lane p).lsu.remote = some ra)
    (hl : ra.left = [(rod, o, n)]) (hs : ra.store = false) : ∃ be, s.portAStep p =
      ((s.portARead rod be).2.setRemote p { ra with
        left := [], data := ra.data ++ ((s.portARead rod be).1.data.drop o).take n,
        bad := if (s.portARead rod be).1.bad then 3 else ra.bad }).remoteFinish p
          (if (s.portARead rod be).1.bad then 3 else ra.bad) (ra.data ++ ((s.portARead rod be).1.data.drop o).take n) := by
  refine ⟨(spread o (ra.data.take n)).2, ?_⟩
  delta State.portARead
  simp only [State.portAStep, h, hl, hs, Bool.false_eq_true, if_false, List.isEmpty_nil, if_true]

/-- The last rod of a load through port A ends the access on the lane as it stood; its own event, where the rod is uncorrectable,
is all that other lanes see (R251, R293). -/
theorem State.portAStep_last_ends {s : State} {p rod o n : Nat} {ra : RemoteAcc} (h : (s.lane p).lsu.remote = some ra)
    (hl : ra.left = [(rod, o, n)]) (hs : ra.store = false) :
    let x := readRow s.sm.arr smRows rod
    (s.lane p).RemoteEnded ((s.portAStep p).lane p) s.now ra (if x.bad then 3 else ra.bad) (ra.data ++ (x.data.drop o).take n) ∧
      (x.bad = false → ∀ q, q ≠ p → (s.portAStep p).lane q = s.lane q) := by
  intro x
  obtain ⟨be, hstep⟩ := State.portAStep_last h hl hs
  have hset := State.lane_setLane_same (s.portARead rod be).2 p
  obtain ⟨m, hend, hm⟩ := State.remoteFinish_ends (congrArg (·.lsu.remote) (hset { (s.portARead rod be).2.lane p with
    lsu := { ((s.portARead rod be).2.lane p).lsu with remote := some { ra with
      left := [], data := ra.data ++ (x.data.drop o).take n, bad := if x.bad then 3 else ra.bad } } }))
    (if x.bad then 3 else ra.bad) (ra.data ++ (x.data.drop o).take n)
  have hstep' : s.portAStep p = _ := hstep.trans hend
  have hst := s.portARead_standing rod be p
  obtain ⟨hw, hg, hc⟩ := Lane.regs_of_standing hst
  obtain ⟨hu, -⟩ := Lane.units_of_standing hst
  obtain ⟨hlsu, hafter⟩ := Lane.lsu_of_standing hst
  refine ⟨?_, fun hb q hq => ?_⟩
  · rw [hstep', State.lane_setLane_same]
    obtain ⟨mode, remote, unmapped, shows, ⟨mw, mg, mc⟩, mu⟩ := hm
    rw [hset] at mode unmapped mw mg mc mu
    exact ⟨mode.trans (by rw [hafter]), remote, unmapped.trans (by rw [hlsu]),
      s.portARead_now rod be ▸ shows, ⟨mw.trans hw, mg.trans hg, mc.trans hc⟩, mu.trans hu⟩
  · rw [hstep', State.lane_setLane_other _ _ hq, State.lane_setLane_other _ _ hq, s.portARead_lane rod be hb]

/-! ### REMOTE_ACCESS_DONE -/

/-- The responses that have come for the transactions of an access. -/
def RemoteAcc.answers (ra : RemoteAcc) (done : List FResp) : List FResp :=
  ra.ids.filterMap (fun i => done.find? (fun r => decide (r.id = i)))

/-- The response code of the access: an error stands before poison (R293). -/
def worstCode (got : List FResp) : BitVec 2 :=
  got.foldl (fun c r => if r.code = 2 then 2 else if r.code = 3 ∧ c ≠ 2 then 3 else c) 0

/-- The state whose fabric has delivered the answers of an access. -/
def State.answersTaken (s : State) (ra : RemoteAcc) : State :=
  { s with fab := { s.fab with done := s.fab.done.filter (fun r => !ra.ids.contains r.id) } }

/-- The access that its answers end: the lane is left ended, the answers are taken, and no other lane changes. -/
theorem State.answersTaken_ends {s : State} {p : Nat} {ra : RemoteAcc} (h : (s.lane p).lsu.remote = some ra) (code : BitVec 2)
    (d : List Byte) :
    let r := (s.answersTaken ra).remoteFinish p code d
    (s.lane p).RemoteEnded (r.lane p) s.now ra code d ∧ (∀ q, q ≠ p → r.lane q = s.lane q) ∧
      r.fab.done = s.fab.done.filter (fun x => !ra.ids.contains x.id) := by
  intro r
  obtain ⟨m, hend, hm⟩ := State.remoteFinish_ends (s := s.answersTaken ra) h code d
  have hr : r = (s.answersTaken ra).setLane p m := hend
  rw [hr, State.lane_setLane_same]
  exact ⟨hm, fun q hq => State.lane_setLane_other _ _ hq, rfl⟩

section
variable {s : State} {p : Nat} {ra : RemoteAcc} (hm : (s.laneNow p).mode = .remote) (hr : (s.laneNow p).lsu.remote = some ra)
include hm hr

/-- With a response outstanding the lane stays stalled. -/
theorem remoteAccessDone_waits (hl : ra.left = []) (hg : (ra.answers (s.settle p).fab.done).length < ra.ids.length) :
    remoteAccessDone s p = s.settle p := by
  simp only [State.laneNow] at hm hr
  simp only [RemoteAcc.answers] at hg
  simp [remoteAccessDone, hm, hr, hl, hg]

/-- With all of them there the access ends (R138). -/
theorem remoteAccessDone_answered (hl : ra.left = []) (hg : (ra.answers (s.settle p).fab.done).length = ra.ids.length) :
    remoteAccessDone s p = ((s.settle p).answersTaken ra).remoteFinish p (worstCode (ra.answers (s.settle p).fab.done))
      ((ra.answers (s.settle p).fab.done).flatMap (fun r => r.data)) := by
  simp only [State.laneNow] at hm hr
  have hnlt : ¬ (ra.answers (s.settle p).fab.done).length < ra.ids.length := by omega
  simp only [RemoteAcc.answers] at hnlt
  simp [remoteAccessDone, hm, hr, hl, hnlt, State.answersTaken, worstCode, RemoteAcc.answers]

/-- A rod that port A can take is taken (R251). -/
theorem remoteAccessDone_portA {rod o n : Nat} (hl : ra.left = [(rod, o, n)]) (hs : ra.store = false)
    (hretry : (s.settle p).sm.retry = []) (hfree : (s.settle p).portAFree rod false = true)
    (hc : collides (s.settle p).sm.lastB (s.settle p).now rod false = false) : remoteAccessDone s p = (s.settle p).portAStep p := by
  simp only [State.laneNow] at hm hr
  simp [remoteAccessDone, hm, hr, hl, hs, hretry, hfree, State.portAMeet_free hretry hc]
end

end Sys2Proof.Machine
end

section
/-! SUPPORT. The compare timer of a lane and the seat that is late (R157, R158). -/

namespace Sys2Proof.Machine
open Sys2Proof

section
variable {s : State} {p : Nat}

/-- In its cycle an armed timer makes interrupt 34 pending, and disarms unless it is periodic (R158). -/
theorem splTimerFire_meets (h : timerMeets (s.settle p) (s.laneNow p) = true) : (s.settle p).LaneOnly (splTimerFire s p) p
    ({ s.laneNow p with spl := { (s.laneNow p).spl with tmrArm := (s.laneNow p).spl.tmrPer, tmrFrom := (s.settle p).now + 1 } }.fly
      ((s.settle p).now + 1) 13 (.pend 2)) := by
  simp only [State.laneNow] at h ⊢
  simp only [splTimerFire, h, if_true, State.pendInt, State.lane_setLane_same]
  exact ((s.settle p).laneOnly_setLane p _).setLane _

theorem splTimerFire_misses (h : timerMeets (s.settle p) (s.laneNow p) = false) : splTimerFire s p = s.settle p := by
  simp only [State.laneNow] at h
  simp only [splTimerFire, h, Bool.false_eq_true, if_false]

theorem splLate_in_time (h : lateNow (s.settle p) p = false) : splLate s p = s.settle p := by
  simp only [splLate, h, Bool.false_eq_true, if_false]

/-- The seat of a lane is that of its master identity. -/
theorem State.seatOf_setLane (s : State) (p : Nat) {l : Lane} (h : l.master = (s.lane p).master) :
    (s.setLane p l).seatOf p = s.seatOf p := by
  simp only [State.seatOf, State.lane_setLane_same, h, State.setLane_con]

/-- A seat that is late is flagged, and its contract is marked broken with cause 3 (R157). -/
theorem splLate_late {c : Contract} {r : SeatRec} (h : lateNow (s.settle p) p = true) (hs : (s.settle p).seatOf p = some (c, r)) :
    splLate s p = ((((s.settle p).setLane p { s.laneNow p with spl := { (s.laneNow p).spl with
      late := true, lateAt := (s.settle p).pacer.heatNum.toNat + 1 } }).raise 0x0207 (srcW 2 r.seat) 0).markBroken c.handle 3 r.seat
        ((s.settle p).pacer.heatNum.toNat + 1)) := by
  simp only [splLate, h, if_true]
  rw [State.seatOf_setLane _ _ (by rfl), hs]
  rfl
end

end Sys2Proof.Machine
end

section
/-! SUPPORT. The record of the sample points that a contract has seen in a heat: a sample adds its point, and nothing that
bringing a lane to the present cycle or comparing a pair may set off takes one back (R192, R321, R398, R401). -/

namespace Sys2Proof.Machine
open Sys2Proof

/-! ### What leaves the contracts alone -/

@[simp] theorem State.raise_con (s : State) (code : Nat) (src : Word) (data : BitVec 64) (tied : Bool) :
    (s.raise code src data tied).con = s.con :=
  State.con_of_unheard (s.raise_unheard code src data tied)

@[simp] theorem State.tally_con (s : State) (k : Nat) : (s.tally k).con = s.con := rfl

@[simp] theorem State.pcount_con (s : State) (k : Nat) : (s.pcount k).con = s.con := rfl

@[simp] theorem ite_con (c : Prop) [Decidable c] (a b : State) : (if c then a else b).con = if c then a.con else b.con :=
  apply_ite State.con c a b

@[simp] theorem State.rodRead_con (s : State) (p a src : Nat) : (s.rodRead p a src).2.con = s.con := by
  simp [State.rodRead]

@[simp] theorem State.laneWrite_con (s : State) (p a : Nat) (d : List Byte) (t : BitVec 2) (mark : Bool) :
    (s.laneWrite p a d t mark).con = s.con :=
  (congrArg State.con (s.laneWrite_unstored p a d t mark) :)

@[simp] theorem State.drainStep_con (s : State) (p j : Nat) : (s.drainStep p j).con = s.con := by
  simp only [State.drainStep]
  split <;> simp

@[simp] theorem State.drainSel_con (s : State) (p : Nat) (sel : SbEntry → Bool) (n : Nat) : (s.drainSel p sel n).con = s.con := by
  induction n generalizing s with
  | zero => rfl
  | succ n ih =>
    simp only [State.drainSel]
    split
    · rfl
    · rw [ih, State.drainStep_con]

@[simp] theorem State.drainAll_con (s : State) (p : Nat) : (s.drainAll p).con = s.con := State.drainSel_con _ _ _ _

@[simp] theorem State.settleBuf_con (s : State) (p : Nat) : (s.settleBuf p).con = s.con := by
  simp [State.settleBuf]

@[simp] theorem State.sourceFault_con (s : State) (seat : Nat) : (s.sourceFault seat).con = s.con := by
  simp only [State.sourceFault]
  split <;> rfl

@[simp] theorem readDesc_con (s : State) (p n : Nat) : (readDesc s p n).2.con = s.con := by
  simp only [readDesc]
  split_ifs <;> simp

theorem State.foldl_con {α : Type} (g : State → α → State) (h : ∀ s x, (g s x).con = s.con) (xs : List α) (s : State) :
    (xs.foldl g s).con = s.con := by
  induction xs generalizing s with
  | nil => rfl
  | cons x xs ih => exact (ih _).trans (h s x)

@[simp] theorem State.pushFrame_con (s : State) (p : Nat) (f : Push) : (s.pushFrame p f).con = s.con := by
  simp only [State.pushFrame, State.setLane_con, State.setLmem_con]
  exact State.foldl_con _ (fun _ _ => State.laneWrite_con _ _ _ _ _ _) _ _

@[simp] theorem State.pushAdvance_con (s : State) (p : Nat) : (s.pushAdvance p).con = s.con := by
  simp only [State.pushAdvance]
  split
  · split <;> simp
  · rfl

@[simp] theorem State.retRead_con (s : State) (p r : Nat) (fa : Word) : (s.retRead p r fa).con = s.con := by
  simp [State.retRead]

@[simp] theorem State.retAdvance_con (s : State) (p : Nat) : (s.retAdvance p).con = s.con := by
  simp only [State.retAdvance]
  split
  · split <;> simp
  · rfl

/-! ### The record -/

/-- The points of the heat that contract `h` has been sampled at, if there is such a contract. -/
def sampledIn (con : List Contract) (h : Nat) : Option (List Nat) := (con.find? (fun c => c.handle == h)).map (·.sampled)

theorem State.contract_handle {s : State} {h : Nat} {c : Contract} (hc : s.contract h = some c) : c.handle = h := by
  simpa using List.find?_some hc

/-- Of the contracts that `setContract` leaves, one is replaced. -/
theorem State.contract_setContract (s : State) (c : Contract) (h : Nat) :
    (s.setContract c).contract h = if c.handle = h then (s.contract h).map (fun _ => c) else s.contract h := by
  have hcomp : ((fun d : Contract => d.handle == h) ∘ fun d => if d.handle = c.handle then c else d) = fun d => d.handle == h := by
    funext d
    by_cases hd : d.handle = c.handle <;> simp [hd]
  simp only [State.contract, State.setContract, List.find?_map, hcomp]
  cases hf : s.con.find? (fun d => d.handle == h) with
  | none => simp
  | some d =>
    have hh : d.handle = h := State.contract_handle hf
    by_cases hc : c.handle = h <;> simp [hh, hc, eq_comm]

/-- An update of a contract that keeps its record keeps every record. -/
theorem State.setContract_sampled {s : State} {c d : Contract} (hd : s.contract c.handle = some d) (hs : c.sampled = d.sampled)
    (h : Nat) : sampledIn (s.setContract c).con h = sampledIn s.con h := by
  have hset := s.contract_setContract c h
  simp only [State.contract] at hset hd
  simp only [sampledIn, hset]
  split
  case isTrue hh => rw [← hh, hd]; simp [hs]
  case isFalse => rfl

@[simp] theorem State.markBroken_sampled (s : State) (h cause seat w k : Nat) :
    sampledIn (s.markBroken h cause seat w).con k = sampledIn s.con k := by
  simp only [State.markBroken]
  split
  · rfl
  case h_2 c hc =>
    split
    · simp only [State.tally_con, State.raise_con]
      refine State.setContract_sampled (d := c) ?_ ?_ k
      · rw [State.contract_handle hc, hc]
      · rfl
    · rfl

@[simp] theorem State.faultCause_sampled (s : State) (p : Nat) (kind : ActKind) (cause due k : Nat) :
    sampledIn (s.faultCause p kind cause due).con k = sampledIn s.con k := by
  simp only [State.faultCause]
  split
  · split <;> rfl
  · split
    · rfl
    · split
      · split <;> split_ifs <;> simp
      · split_ifs <;> simp

@[simp] theorem State.fence_sampled (s : State) (p : Nat) (first : TrapReq) (sub : Nat) (heat : Word) (cyc at_ k : Nat) :
    sampledIn (s.fence p first sub heat cyc at_).con k = sampledIn s.con k := by
  simp [State.fence]

@[simp] theorem State.entryStart_sampled (s : State) (p : Nat) (r : TrapReq) (k : Nat) :
    sampledIn (s.entryStart p r).con k = sampledIn s.con k := by
  simp only [State.entryStart]
  split
  · split <;> simp
  · simp

@[simp] theorem State.entryStep_sampled (s : State) (p : Nat) (q : TrapReq) (a : Nat) (heat : Word) (cyc k : Nat) :
    sampledIn (s.entryStep p q a heat cyc).con k = sampledIn s.con k := by
  have hstart : sampledIn (if q.n = 0 then s else s.entryStart p q).con k = sampledIn s.con k := by split <;> simp
  rw [← hstart]
  simp only [State.entryStep]
  generalize (if q.n = 0 then s else s.entryStart p q) = t
  have hread := readDesc_con t p q.n
  split
  case h_1 hd => rw [hd] at hread; rw [← hread]; rfl
  case h_2 hd =>
    rw [hd] at hread
    rw [← hread]
    split
    · exact State.fence_sampled _ _ _ _ _ _ _ _
    · rfl

@[simp] theorem State.entryAdvance_sampled (s : State) (p : Nat) (first : Bool) (k : Nat) :
    sampledIn (s.entryAdvance p first).con k = sampledIn s.con k := by
  simp only [State.entryAdvance]
  split
  · split
    · split <;> simp
    · rfl
  · rfl

/-- Bringing a lane to the present cycle keeps every record. -/
@[simp] theorem State.settle_sampled (s : State) (p k : Nat) : sampledIn (s.settle p).con k = sampledIn s.con k := by
  simp [State.settle]

/-! ### A sample -/

theorem State.sampleSeat_sampled (s : State) (n pt k : Nat) : sampledIn (s.sampleSeat n pt).2.con k = sampledIn s.con k := by
  simp only [State.sampleSeat]
  split
  · rfl
  · split <;> simp

theorem State.sampleAll_sampled (s : State) (c : Contract) (pt k : Nat) :
    sampledIn (s.sampleAll c pt).2.con k = sampledIn s.con k := by
  have hfold (xs : List SeatRec) (a : List (Nat × Option (Word × Bool)) × State) : sampledIn (xs.foldl (fun a r =>
      (a.1 ++ [(r.seat, (a.2.sampleSeat r.seat pt).1)], (a.2.sampleSeat r.seat pt).2)) a).2.con k = sampledIn a.2.con k := by
    induction xs generalizing a with
    | nil => rfl
    | cons x xs ih => exact (ih _).trans (State.sampleSeat_sampled _ _ _ _)
  exact hfold _ _

/-- A new selection of a contract keeps every record. -/
theorem State.setSel_sampled {s : State} {h : Nat} {c : Contract} (hc : s.contract h = some c) (sel : List PairSel) (k : Nat) :
    sampledIn (s.setContract { c with sel := sel }).con k = sampledIn s.con k := by
  refine State.setContract_sampled (d := c) ?_ ?_ k
  · rw [State.contract_handle hc, hc]
  · rfl

section
variable {s : State} {h : Nat} {c : Contract} (hc : s.contract h = some c) (r : SeatRec) (pt k : Nat)
include hc

theorem State.comparePair_sampled (due : Nat) (a b : Word × Bool) :
    sampledIn (s.comparePair c r pt due a b).con k = sampledIn s.con k := by
  have hsel (sel : List PairSel) : sampledIn (s.setContract { c with sel := sel }).con k = sampledIn s.con k :=
    State.setSel_sampled hc sel k
  unfold State.comparePair
  extract_lets x y e1 e2 first decides z s1 s2 s3
  have he2 : e2.con = e1.con := by simp only [e2, ite_con, State.tally_con, State.pcount_con, ite_self]
  have hs2 : s2.con = s1.con := by simp only [s2, ite_con, State.tally_con, State.pcount_con, ite_self]
  have hs3 : s3.con = s2.con := by simp only [s3, ite_con, State.raise_con, ite_self]
  split
  · simp only [ite_con, State.tally_con, State.pcount_con, ite_self, he2]
    exact hsel _
  · have hs : sampledIn s3.con k = sampledIn s.con k := by rw [hs3, hs2]; exact hsel _
    rw [← hs]
    split
    · split
      · exact State.faultCause_sampled _ _ _ _ _ _
      · rfl
    · split
      · split
        · exact State.faultCause_sampled _ _ _ _ _ _
        · rfl
      · rfl

theorem State.singlePair_sampled (a b : Option (Word × Bool)) : sampledIn (s.singlePair c r pt a b).con k = sampledIn s.con k := by
  have hsel (sel : List PairSel) : sampledIn (s.setContract { c with sel := sel }).con k = sampledIn s.con k :=
    State.setSel_sampled hc sel k
  simp only [State.singlePair, ite_con, State.sourceFault_con, ite_self, hsel]
end

theorem State.foldl_sampled {α : Type} (k : Nat) (g : State → α → State) (hg : ∀ s x, sampledIn (g s x).con k = sampledIn s.con k)
    (xs : List α) (s : State) : sampledIn (xs.foldl g s).con k = sampledIn s.con k := by
  induction xs generalizing s with
  | nil => rfl
  | cons x xs ih => exact (ih _).trans (hg s x)

/-- A contract that runs and has not been sampled at the point has it in its record after the sample (R398). -/
theorem State.samplePoint_sampled {s : State} {h pt : Nat} {c : Contract} (hc : s.contract h = some c) (hr : c.running = true)
    (hn : c.sampled.contains pt = false) (due : Nat) : sampledIn (s.samplePoint h pt due).con h = some (pt :: c.sampled) := by
  have hall : sampledIn (s.sampleAll c pt).2.con h = some c.sampled := by
    rw [State.sampleAll_sampled]
    exact congrArg (Option.map (·.sampled)) hc
  obtain ⟨d, hd, -⟩ := Option.map_eq_some_iff.mp hall
  have hadd : sampledIn ((s.sampleAll c pt).2.setContract { c with sampled := pt :: c.sampled }).con h = some (pt :: c.sampled) := by
    have hset := (s.sampleAll c pt).2.contract_setContract { c with sampled := pt :: c.sampled } h
    rw [if_pos (State.contract_handle hc), show (s.sampleAll c pt).2.contract h = some d from hd] at hset
    exact congrArg (Option.map (·.sampled)) hset
  rw [← hadd]
  simp only [State.samplePoint, hc, hr, hn, Bool.not_true, Bool.false_or, Bool.false_eq_true, if_false]
  split
  · refine State.foldl_sampled h _ (fun t r => ?_) _ _
    split
    · rfl
    case h_2 c' hc' => exact State.setSel_sampled hc' _ h
  · refine State.foldl_sampled h _ (fun t r => ?_) _ _
    split
    · rfl
    case h_2 c' hc' =>
      split
      · split
        · exact State.comparePair_sampled hc' _ _ _ _ _ _
        · exact State.singlePair_sampled hc' _ _ _ _ _
      · exact State.singlePair_sampled hc' _ _ _ _ _

/-! ### COMPARE_POINT -/

theorem comparePoint_none {s : State} {h : Nat} (hc : s.contract h = none) (pt : SamplePoint) : comparePoint s h pt = s := by
  simp only [comparePoint, hc]

section
variable {s : State} {h : Nat} {c : Contract} (hc : s.contract h = some c) {pt : SamplePoint}
include hc

/-- The cycle that samples a point is its own (R398). -/
theorem comparePoint_elsewhere (ha : s.atPoint c pt = false) : comparePoint s h pt = s := by
  simp only [comparePoint, hc, ha, Bool.false_eq_true, if_false]

theorem comparePoint_samples (ha : s.atPoint c pt = true) : comparePoint s h pt =
    s.samplePoint h (pointNum pt) (s.pacer.heatNum.toNat + (if pt = .gun then 2 else 1)) := by
  simp only [comparePoint, hc, ha, if_true]

/-- A point is sampled once a heat. -/
theorem comparePoint_again (hs : c.sampled.contains (pointNum pt) = true) : comparePoint s h pt = s := by
  simp only [comparePoint, hc, State.samplePoint, hs, Bool.or_true, if_true, ite_self]
end

end Sys2Proof.Machine
end

section
/-! The statements about the memory and control units, settled. -/

namespace Sys2Proof.Machine
open Sys2Proof

/-- Settles O17: a load leaves what `exec_load` says, on lanes and arrays as its reads left them (`State.reads_loadRead`); the
fence forces every entry after the drain due in its cycle (`exec_lsuFence`). -/
theorem loadsReservationsAndFences : Obligations.LoadsReservationsAndFences := by
  unfold Obligations.LoadsReservationsAndFences
  refine ⟨fun s p t => ?loads, fun s p t => ⟨fun h hc => ?ldc, fun h => ?fence⟩⟩
  case loads =>
    intro load
    have loads : ∀ (c : Instr) (d k : Nat), d = 0x5C + k → k ≠ 4 → lsuIsLoad k = true →
        (exec c s = .next (s.live (trigger s p d t))) → load c d k := by
      intro c d k hd hk hl he h hc hb v l a n y x
      obtain ⟨hw, hg, hcap, hbase⟩ := (s.accessing p d t).afterLoad_regs p k t
      obtain ⟨hsb, hrsv⟩ := (s.accessing p d t).afterLoad_lsu p k t
      refine ⟨_, exec_load hd hl he h hc hb, ?word, State.mem_afterLoad_ua _ _ _ _, hbase, hrsv, hw, hg, hcap, hsb,
        fun q hq => State.afterLoad_lane_other _ _ _ _ hq, State.afterLoad_arrays _ p k t⟩
      case word =>
        rw [State.afterLoad, State.lane_setLane_same]
        exact Lane.mem_loadEnd_word (y.2.lane p) v.now k a n l.u.lmode x hk
    exact ⟨loads _ _ 0 rfl (by decide) rfl rfl, loads _ _ 2 rfl (by decide) rfl rfl⟩
  case ldc =>
    intro v l a y x tag
    have hhome : regionOf ((s.laneNow p).accAddr t) = .home := home_of_lsuCheck (by decide) (by decide) hc
    have hcaps := Lane.mem_loadEnd_cap (y.2.lane p) v.now a (lsuSize 4 l.u) l.u.lmode x
      ((congrArg regionOf (s.accessing_accAddr p 0x60 t)).trans hhome)
    obtain ⟨hw, hg, hcap, -⟩ := (s.accessing p 0x60 t).afterLoad_regs p 4 t
    refine ⟨_, exec_load (k := 4) rfl rfl rfl h hc ((buffered_iff _).mpr (.inl hhome)), ?cap, ?tag, hcap, hw, hg,
      fun q hq => State.afterLoad_lane_other _ _ _ _ hq, State.afterLoad_arrays _ p 4 t⟩
    case cap => rw [State.afterLoad, State.lane_setLane_same]; exact hcaps.1
    case tag => rw [State.afterLoad, State.lane_setLane_same]; exact hcaps.2
  case fence =>
    have hr := exec_lsuFence t h
    rw [State.drainTaken] at hr
    exact ⟨_, hr, State.setLane_lsuFenced _ p⟩

/-- Settles O19: the checks of `lsuCheck_order`, of which the placement is `lsuAligned_iff`. -/
theorem accessChecksComeInOrder : Obligations.AccessChecksComeInOrder := by
  unfold Obligations.AccessChecksComeInOrder
  intro l op t hop ea ci au n placed
  refine ⟨lsuCheck_fence l t, fun h1 h3 => lsuCheck_reservedSize l t h1 h3, fun hs => ?_⟩
  rw [lsuCheck_order l t hop hs]
  have hplaced : lsuAligned op (l.accAddr t) (lsuSize op l.u) = true ↔ placed := lsuAligned_iff _ _ _
  have hcovers : (l.authCap.covers (l.accAddr t) (lsuSize op l.u) = true) ↔ au.base.toNat ≤ ea.toNat ∧ ea.toNat + n ≤ au.top := by
    simp only [Cap.covers, Bool.and_eq_true, decide_eq_true_eq]
    rfl
  change (l.authCap.tag = false → _) ∧ (l.authCap.tag = true → l.authCap.otype ≠ 0 → _) ∧
    (l.authCap.tag = true → l.authCap.otype = 0 → lsuPerm l op (l.accAddr t) l.authCap = false → _) ∧
    (l.authCap.tag = true → l.authCap.otype = 0 → lsuPerm l op (l.accAddr t) l.authCap = true → _)
  refine ⟨fun ht => ?untagged, fun ht ho => ?sealed, fun ht ho hp => ?permission, fun ht ho hp => ⟨fun hn => ?place,
    fun hn hb => ?bounds, fun hn hb1 hb2 => ?passes⟩⟩
  case untagged => exact if_pos ht
  case sealed => rw [if_neg (by simp [ht])]; exact if_pos ho
  case permission => rw [if_neg (by simp [ht]), if_neg (by simp [ho])]; exact if_pos hp
  case place =>
    rw [← hplaced, Bool.not_eq_true] at hn
    rw [if_neg (by simp [ht]), if_neg (by simp [ho]), if_neg (by simp [hp])]
    exact if_pos hn
  case bounds =>
    rw [← hcovers, Bool.not_eq_true] at hb
    rw [if_neg (by simp [ht]), if_neg (by simp [ho]), if_neg (by simp [hp]), if_neg (by simp [hplaced.mpr hn])]
    exact if_pos hb
  case passes =>
    rw [if_neg (by simp [ht]), if_neg (by simp [ho]), if_neg (by simp [hp]), if_neg (by simp [hplaced.mpr hn])]
    exact if_neg (by simp [hcovers.mpr ⟨hb1, hb2⟩])

/-- Settles O29: the three cases of the command are those of `drainNow`; the drain of a whole entry is a write of its rod
(`State.drainStep_full`), which changes memory blocks alone. -/
theorem storeBufferDrains : Obligations.StoreBufferDrains := by
  unfold Obligations.StoreBufferDrains
  refine ⟨fun s p hr => ⟨fun h => exec_of_live hr rfl (drainNow_done h), fun h hn => exec_of_live hr rfl (drainNow_none h hn),
    fun j h hj => exec_of_live hr rfl (drainNow_some h hj)⟩, fun s p j e he hf => ?entry⟩
  intro r old tag
  have hr : r = _ := State.drainStep_full he hf
  rw [hr]
  refine ⟨⟨e.newTags old, e.newTags_bit0 old, e.newTags_bit1 old, rfl⟩, State.lane_setLane_same _ _ _, fun q hq => ?other, ?rest⟩
  case other => rw [State.lane_setLane_other _ _ hq, State.laneWrite_lane]
  case rest => exact congrArg (fun u : State => { u with lanes := [] }) (s.laneWrite_unstored p e.rod (rodBytes e.data) (e.newTags old) false)

/-- Settles O14: `spl.chk` is an operation that a remote move may also start (`laneDoes_compute`), `spl.cmp` sets the timer of its
lane. -/
theorem splitSignatureAndTimerCommands : Obligations.SplitSignatureAndTimerCommands := by
  unfold Obligations.SplitSignatureAndTimerCommands
  refine fun p t => ⟨?chk, ?cmp⟩
  case chk => exact laneDoes_compute (d := 0x69) rfl (fun _ => rfl) (fun _ _ => rfl)
  case cmp =>
    exact laneDoes_of _ p 0x6A t _ _ (fun _ => rfl) (by decide) (fun l _ => by simp [slotForbidden, within])
      (fun l _ => (moveChecks_imm p l l (by decide) t none).trans rfl) (fun u l _ _ => rfl)

/-- Settles O18: the stores, conditionals and unusual accesses are accesses that wait for nothing and work on their lane alone
(`laneDoes_lsu`, `laneDoes_unbuffered`); what each does there is its equation for `lsuFire`. -/
theorem storesAndUnusualAccesses : Obligations.StoresAndUnusualAccesses := by
  unfold Obligations.StoresAndUnusualAccesses
  refine ⟨fun p t => ⟨?st, ?stc, ?sc⟩, fun p t => ?scFails, fun p t => ⟨?ldSys, ?stSys, ?ldNone, ?stNone⟩⟩
  case st =>
    refine laneDoes_lsu (k := 1) (by decide) (fun _ => rfl) (fun l ⟨hc, hh, _⟩ => ⟨hc, hh⟩) (fun u l ⟨_, _, hb⟩ ho => ?_)
    exact lsuFire_store (by rw [accAddr_of_own ho]; exact hb)
  case stc =>
    exact laneDoes_lsu (k := 5) (by decide) (fun _ => rfl) (fun l h => h)
      (fun u l ⟨hc, _⟩ ho => lsuFire_storeCap (home_of_own ho (by decide) (by decide) hc))
  case sc =>
    refine laneDoes_lsu (k := 3) (by decide) (fun _ => rfl) (fun l ⟨hc, hh, _⟩ => ⟨hc, hh⟩) (fun u l ⟨hc, _, hr⟩ ho => ?_)
    exact lsuFire_sc_stores (home_of_own ho (by decide) (by decide) hc) (by rw [accAddr_of_own ho, lsu_of_own ho]; exact hr)
  case scFails =>
    refine laneDoes_lsu (k := 3) (by decide) (fun _ => rfl) (fun l ⟨hc, hr⟩ => ⟨hc, lsuHold_failed_sc hr⟩) (fun u l ⟨hc, hr⟩ ho => ?_)
    exact lsuFire_sc_fails (home_of_own ho (by decide) (by decide) hc) (by rw [accAddr_of_own ho, lsu_of_own ho]; exact hr)
  case ldSys => exact laneDoes_unbuffered (k := 0) (by decide) (by decide) (fun _ => rfl) (fun _ => lsuFire_load_sysblk)
  case stSys => exact laneDoes_unbuffered (k := 1) (by decide) (by decide) (fun _ => rfl) (fun _ => lsuFire_store_sysblk)
  case ldNone => exact laneDoes_unbuffered (k := 0) (by decide) (by decide) (fun _ => rfl) (fun _ => lsuFire_load_unmapped)
  case stNone => exact laneDoes_unbuffered (k := 1) (by decide) (by decide) (fun _ => rfl) (fun _ => lsuFire_store_unmapped)

/-- Settles O30: the access ends as `Lane.RemoteEnded` says, with the answers of the fabric (`remoteAccessDone_answered`) or with
the last rod of port A (`State.portAStep_last_ends`). -/
theorem remoteAccessEndsWithItsResponses : Obligations.RemoteAccessEndsWithItsResponses := by
  unfold Obligations.RemoteAccessEndsWithItsResponses
  intro s p ra hreset hm hr u l shows ends
  have ended : ∀ {code d sound r}, l.RemoteEnded (r.lane p) u.now ra code d →
      (sound = true → ∀ q, q ≠ p → r.lane q = u.lane q) → ends code d sound r :=
    fun ⟨mode, remote, unmapped, hshows, ⟨mw, mg, mc⟩, mu⟩ hother => ⟨mode, remote, unmapped, hshows, mw, mg, mc, mu, hother⟩
  refine ⟨fun hl => ⟨fun hg => ?waits, fun hg => ?answered⟩, fun rod o n hl hs hretry hfree hc => ?portA⟩
  case waits => exact exec_of_live hreset rfl (remoteAccessDone_waits hm hr hl hg)
  case answered =>
    obtain ⟨hend, hother, hdone⟩ := State.answersTaken_ends (s := u) hr (worstCode (ra.answers u.fab.done))
      ((ra.answers u.fab.done).flatMap (fun r => r.data))
    exact ⟨_, exec_of_live hreset rfl (remoteAccessDone_answered hm hr hl hg), ended hend fun _ => hother, hdone⟩
  case portA =>
    obtain ⟨hend, hother⟩ := State.portAStep_last_ends (s := u) hr hl hs
    exact ⟨_, exec_of_live hreset rfl (remoteAccessDone_portA hm hr hl hs hretry hfree hc),
      ended hend fun hsound => hother (by simpa using hsound)⟩

/-- Settles O45: the timer and the late seat are the cases of their commands; that a sampled point is in the record afterwards is
`State.samplePoint_sampled`. -/
theorem splitTimersAndLateSeats : Obligations.SplitTimersAndLateSeats := by
  unfold Obligations.SplitTimersAndLateSeats
  intro s p h pt c r hreset u l
  refine ⟨fun hm => ⟨_, exec_of_live hreset rfl rfl, splTimerFire_meets hm⟩, fun hm => exec_of_live hreset rfl (splTimerFire_misses hm),
    fun hl => exec_of_live hreset rfl (splLate_in_time hl), fun hl hs => exec_of_live hreset rfl (splLate_late hl hs),
    fun hc => exec_of_live hreset rfl (comparePoint_none hc pt), fun hc ha => exec_of_live hreset rfl (comparePoint_elsewhere hc ha),
    fun hc _ hs => exec_of_live hreset rfl (comparePoint_again hc hs),
    fun hc ha => exec_of_live hreset rfl (comparePoint_samples hc ha), fun hc ha hr hn => ?sampled⟩
  case sampled =>
    obtain ⟨c', hc', hs⟩ := Option.map_eq_some_iff.mp
      (State.samplePoint_sampled hc hr hn (s.pacer.heatNum.toNat + (if pt = .gun then 2 else 1)))
    exact ⟨_, c', exec_of_live hreset rfl (comparePoint_samples hc ha), hc', hs⟩

end Sys2Proof.Machine
end

section
/-! SUPPORT. The CAP unit: when its checks pass, what an operation makes of its lane, and the authority of what it writes
(R164, R166, R171–R173). -/

namespace Sys2Proof.Machine
open Sys2Proof

/-! ### Checks -/

/-- What R171 and R172 ask of the operation of code `c`: a code that exists, a source field that names a register, and then, for
the codes concerned, a zero selector, an unsealed source, bounds inside those of the source, the authority of cB, and SYS. -/
def CapPasses (l : Lane) (c : Nat) : Prop :=
  capCodeOk c = true ∧ (c ≠ 0x11 → capCs l ≤ 8) ∧ (c = 0x11 ∨ c = 0x12 → l.u.capo.extractLsb' 0 4 = 0) ∧
    (c = 0x09 ∨ c = 0x0A ∨ c = 0x0B ∨ c = 0x0C → (csCap l).otype = 0) ∧ (c = 0x0B → sbndBad (csCap l) l.u.capo = false) ∧
    (c = 0x0E → sealCheck l false = none) ∧ (c = 0x0F → sealCheck l true = none) ∧
    (c = 0x11 ∨ c = 0x12 → l.fcap.perm permSYS = true)

theorem Cap.sealed_eq_false_iff (c : Cap) : c.sealed = false ↔ c.otype = 0 := by
  rw [Cap.sealed, decide_eq_false_iff_not, not_not]

/-- Of two checks in order none fails when the first passes and none fails after it. -/
theorem check_then_none_iff (q : Prop) [Decidable q] (t : TrapSpec) (r : Option TrapSpec) :
    (if q then some t else r) = none ↔ ¬ q ∧ r = none := by
  split <;> simp [*]

theorem capCheck_none_iff (l : Lane) (t : Word) : capCheck l t = none ↔ CapPasses l (t.toNat % 32) := by
  simp only [capCheck, CapPasses, check_then_none_iff]
  generalize t.toNat % 32 = c
  refine and_congr (by simp) (and_congr (by rw [not_and, Nat.not_le, Nat.lt_succ_iff]) (and_congr (by rw [not_and, not_not]) ?own))
  case own => split <;> simp_all [check_then_none_iff, Cap.sealed_eq_false_iff]

/-! ### Operations -/

/-- A CAP operation that acts and passes its checks works on its lane alone. -/
theorem laneDoes_cap {c : Instr} {p : Nat} {t : Word} {ok : Lane → Prop} {f : Nat → Lane → Lane}
    (he : ∀ s, exec c s = .next (s.live (trigger s p 0x76 t))) (hok : ∀ l, ok l → CapPasses l (t.toNat % 32))
    (hf : ∀ now l, l.fireCap now t = f now l) : LaneDoes c p 0x76 ok f := by
  refine laneDoes_of c p 0x76 t ok f he (by decide) (fun l _ => ?slot) (fun l h => ?checks) (fun u _ _ _ => ?fires)
  case slot => exact Bool.and_false _
  case checks =>
    exact (moveChecks_imm p l l (by decide) t none).trans ((capCheck_none_iff l t).mpr (hok l h))
  case fires => rw [← hf]; rfl

section
variable {c : Instr} {p : Nat} {t : Word} (he : ∀ s, exec c s = .next (s.live (trigger s p 0x76 t)))
include he

/-- An operation that shows a word of its source in `cap.r` asks for no more than the source (R171). -/
theorem laneDoes_capWord {v : Lane → Word} (hok : ∀ l, capCs l ≤ 8 → CapPasses l (t.toNat % 32))
    (hv : ∀ l, capWord l (t.toNat % 32) = some (v l)) : LaneDoes c p 0x76 (fun l => capCs l ≤ 8) (capWordEnd v) :=
  laneDoes_cap he hok fun now l => by rw [Lane.fireCap, hv]; rfl

/-- An operation that writes cD (R171, R172). -/
theorem laneDoes_capReg {ok : Lane → Prop} {r : Lane → Cap} (hok : ∀ l, ok l → CapPasses l (t.toNat % 32))
    (hw : ∀ l, capWord l (t.toNat % 32) = none) (hr : ∀ l, capResult l (t.toNat % 32) = some (r l)) :
    LaneDoes c p 0x76 ok (capRegEnd r) :=
  laneDoes_cap he hok fun now l => by rw [Lane.fireCap, hw, hr]; rfl
end

/-- SBND's bounds are inside those of its source (R171). -/
theorem sbndBad_eq_false_iff (c : Cap) (o : Word) : sbndBad c o = false ↔
    c.base.toNat ≤ c.pos.toNat ∧ c.pos.toNat + o.toNat ≤ c.top ∧ ¬ (c.pos = 0 ∧ o = 0) := by
  simp [sbndBad, and_assoc]

/-! ### Authority -/

/-- `c` has no authority that `d` lacks: its tag, its permissions and its bounds are within those of `d` (R164, R166). -/
structure Cap.Within (c d : Cap) : Prop where
  tag : c.tag = true → d.tag = true
  perms : c.perms &&& d.perms = c.perms
  base : d.base.toNat ≤ c.base.toNat
  top : c.top ≤ d.top

/-- A position, a seal or a cleared tag adds no authority. -/
theorem Cap.within_of_same {c d : Cap} (ht : c.tag = true → d.tag = true) (hp : c.perms = d.perms) (hb : c.base = d.base)
    (hl : c.limit = d.limit) : c.Within d :=
  ⟨ht, by rw [hp, BitVec.and_self], by rw [hb], by rw [Cap.top, Cap.top, hl]⟩

/-- APERM only takes permissions away. -/
theorem Cap.within_aperm (c : Cap) (m : BitVec 12) : ({ c with perms := c.perms &&& m &&& 0xFFE } : Cap).Within c := by
  refine ⟨id, ?perms, le_rfl, le_rfl⟩
  case perms => ext i; simp; tauto

theorem Cap.top_le (c : Cap) : c.top ≤ 2 ^ 32 := by
  unfold Cap.top
  split <;> omega

/-- Bounds of `o` bytes at `a` end at `a + o`, also where the limit wraps to 0, which stands for 2^32 (R166). -/
theorem Cap.top_of_length {c : Cap} {a o : Word} (hl : c.limit = a + o) (hzero : ¬ (a = 0 ∧ o = 0))
    (hle : a.toNat + o.toNat ≤ 2 ^ 32) : c.top = a.toNat + o.toNat := by
  unfold Cap.top
  split <;> bv_omega

/-- SBND's new bounds are within those of its source. -/
theorem Cap.within_sbnd {c : Cap} {o : Word} (h : sbndBad c o = false) :
    ({ c with base := c.pos, limit := c.pos + o } : Cap).Within c := by
  obtain ⟨hbase, htop, hzero⟩ := (sbndBad_eq_false_iff c o).mp h
  exact ⟨id, BitVec.and_self, hbase, (Cap.top_of_length rfl hzero (htop.trans c.top_le)).trans_le htop⟩

/-- What an operation other than RDSYS writes has no more authority than its source (R171, R172). SBND, APERM and CLTAG, the
fourth to the sixth, narrow it; the others change a position or a seal at most. -/
theorem capResult_within {l : Lane} {k : Nat} {c : Cap} (h : CapPasses l k) (hk : k ≠ 0x11) (hr : capResult l k = some c) :
    c.Within (csCap l) := by
  obtain ⟨-, -, -, -, hbounds, -⟩ := h
  unfold capResult at hr
  split at hr <;> cases hr
  case h_4 => exact Cap.within_sbnd (hbounds rfl)
  case h_5 => exact Cap.within_aperm _ _
  case h_6 => exact Cap.within_of_same nofun rfl rfl rfl
  case h_9 => exact absurd rfl hk
  all_goals exact Cap.within_of_same id rfl rfl rfl

end Sys2Proof.Machine
end

section
/-! SUPPORT. Entering a trap, returning from one, and the report of a fenced lane (R182, R184, R186–R188, R193, R203, R205, R207,
R393). -/

namespace Sys2Proof.Machine
open Sys2Proof

theorem Lane.cReg_setC (l : Lane) (k j : Nat) (c : Cap) : (l.setC k c).cReg j = if j = k then c else l.cReg j :=
  tget_tput l.c k j c

@[simp] theorem Lane.cReg_setC_same (l : Lane) (k : Nat) (c : Cap) : (l.setC k c).cReg k = c := by
  simp [Lane.cReg_setC]

theorem Lane.cReg_setC_other (l : Lane) {k j : Nat} (c : Cap) (h : j ≠ k) : (l.setC k c).cReg j = l.cReg j := by
  simp [Lane.cReg_setC, h]

/-! ### Entry -/

/-- TRAP_ENTRY of a trap other than 0 whose wait is over and whose descriptor can be used enters through it (R186, R205). -/
theorem trapEntry_enters {s : State} {p a cyc : Nat} {q : TrapReq} {heat : Word} {d : Desc}
    (hdue : (s.laneNow p).trap.due = some q) (ha : q.a = some (a, heat, cyc)) (hb : q.b + a ≤ (s.settle p).now) (hn : q.n ≠ 0)
    (hd : (readDesc ((s.settle p).entryStart p q) p q.n).1 = (0, some d)) :
    trapEntry s p = (readDesc ((s.settle p).entryStart p q) p q.n).2.enterWith p q d heat cyc (q.b + a) := by
  rw [State.laneNow] at hdue
  have hstep : trapEntry s p = (s.settle p).entryStep p q a heat cyc := by
    simp only [trapEntry, State.entryAdvance, hdue, ha, hb, Bool.true_or, decide_true, Bool.and_self, if_true]
  rw [hstep, State.entryStep, if_neg hn]
  generalize readDesc ((s.settle p).entryStart p q) p q.n = x at hd
  obtain ⟨_, v⟩ := x
  subst hd
  rfl

theorem State.enterWith_lane_other (s : State) (q : TrapReq) (d : Desc) (heat : Word) (cyc r : Nat) {p i : Nat} (h : i ≠ p) :
    (s.enterWith p q d heat cyc r).lane i = s.lane i :=
  State.lane_setLane_other _ _ h

section
variable {s : State} {p : Nat} {q : TrapReq} {d : Desc} {heat : Word} {cyc r : Nat} {m : Lane}
  (hm : (s.enterWith p q d heat cyc r).lane p = m)
include hm

/-- The handler runs with the capabilities of its descriptor; c1 may be one of them, c7 always is (R182, R186). -/
theorem State.enterWith_caps : m.fcap = d.code ∧ m.ctl.pc = d.code.pos ∧
    m.cReg 7 = { d.stack with pos := frameAddr ((s.lane p).cReg 7) d.stack } := by
  rw [State.enterWith, State.lane_setLane_same] at hm
  subst hm
  refine ⟨rfl, rfl, ?stack⟩
  case stack =>
    cases hkeep : d.flags.getLsbD 8
    case false => exact (Lane.cReg_setC_other _ _ (by decide)).trans (Lane.cReg_setC_same _ _ _)
    case true => exact Lane.cReg_setC_same _ _ _

/-- What was taken stands in the trap registers, and in the frame that is to be written (R184, R186). -/
theorem State.enterWith_trap : m.trap.curNum = BitVec.ofNat 8 q.n ∧ m.trap.cause = causeWord q ∧ m.trap.addr = q.addr ∧
    m.trap.due = none ∧
    m.trap.mask = maskFix (s.lane p).stw (if d.flags.getLsbD 9 then (s.lane p).trap.mask &&& d.mask else d.mask) ∧
    m.trap.push = some ⟨r + 3, (frameAddr ((s.lane p).cReg 7) d.stack).toNat,
      frameRods (s.lane p) q (d.flags.toNat % 256) heat cyc⟩ := by
  rw [State.enterWith, State.lane_setLane_same] at hm
  subst hm
  cases hkeep : d.flags.getLsbD 8 <;> exact ⟨rfl, rfl, rfl, rfl, rfl, rfl⟩

/-- The handler starts with no reservation, no transfer and no repetition (R186). -/
theorem State.enterWith_restarts : m.lsu.rsv = none ∧ m.ctl.xfer = none ∧ m.ctl.rep = none ∧ m.mode = .run := by
  rw [State.enterWith, State.lane_setLane_same] at hm
  subst hm
  exact ⟨rfl, rfl, rfl, rfl⟩

/-- An entry leaves the general registers, the guards, the ports of the units and the return stack (R186). -/
theorem State.enterWith_keeps : m.w = (s.lane p).w ∧ m.g = (s.lane p).g ∧ m.u = (s.lane p).u ∧
    m.ctl.rstk = (s.lane p).ctl.rstk := by
  rw [State.enterWith, State.lane_setLane_same] at hm
  subst hm
  cases hkeep : d.flags.getLsbD 8 <;> exact ⟨rfl, rfl, rfl, rfl⟩
end

/-! ### Return -/

/-- `trap.ret` outside a delay slot, whose checks on c7 hold, returns after the other moves of its word (R187, R207). -/
theorem exec_trapRet {s : State} {p : Nat} (t : Word) (h : s.Acts p 0x71) (hx : (s.laneNow p).ctl.xfer = none)
    (hc : retCheck (s.laneNow p) = none) : exec (.trapRet p t) s = .next (((s.settle p).step2 p 0x71).trapReturn p) := by
  have hslot : ((s.laneNow p).ctl.xfer.isSome && slotForbidden 0x71) = false := by rw [hx]; rfl
  have hchecks := (moveChecks_imm p (s.laneNow p) (s.laneNow p) (d := 0x71) (by decide) t none).trans hc
  refine exec_of_live h.1 rfl ((trigger_acts s p 0x71 t h hslot hchecks).trans ?_)
  rw [State.drainHeld_other _ _ _ _ (by decide)]
  rfl

theorem State.trapReturn_lane_other (s : State) {p q : Nat} (h : q ≠ p) :
    (s.trapReturn p).lane q = (s.presentDrain p).lane q :=
  State.lane_setLane_other _ _ h

section
variable {s v : State} {p : Nat} {m : Lane} (hv : s.presentDrain p = v) (hm : (s.trapReturn p).lane p = m)
include hv hm

/-- A return takes the drain due in its cycle; the others are forced, and the frame is read once they are over (R187, R207). -/
theorem State.trapReturn_begins : m.lsu.rsv = none ∧
    m.trap.ret = some (v.now + sbLeft (v.lane p).lsu.sb + 1, ((v.lane p).cReg 7).pos) ∧
    m.lsu.force = (v.lane p).lsu.sb.map (fun e => (e.rod, e.alloc)) := by
  rw [State.trapReturn, State.lane_setLane_same, hv] at hm
  subst hm
  exact ⟨rfl, rfl, (v.lane p).forceDrain_all (v.now + sbLeft (v.lane p).lsu.sb + 1)⟩

/-- Until then no register changes (R187). -/
theorem State.trapReturn_keeps : m.w = (v.lane p).w ∧ m.g = (v.lane p).g ∧ m.c = (v.lane p).c ∧ m.fcap = (v.lane p).fcap ∧
    m.u = (v.lane p).u := by
  rw [State.trapReturn, State.lane_setLane_same, hv] at hm
  subst hm
  exact ⟨rfl, rfl, rfl, rfl, rfl⟩
end

section
variable (l : Lane) (r : Nat) (fc c7 c1 : Cap) (w1 w2 : List Byte)

/-- Of the capabilities a frame restores c7 and c1, each null when its tag is not set (R188). -/
theorem Lane.restore_caps :
    let m := l.restore r fc c7 c1 w1 w2
    m.cReg 7 = (if c7.tag then c7 else nullCap) ∧ m.cReg 1 = (if c1.tag then c1 else nullCap) ∧
    ∀ k, k ≠ 1 → k ≠ 7 → m.cReg k = l.cReg k :=
  ⟨(Lane.cReg_setC_other _ _ (by decide)).trans (Lane.cReg_setC_same _ _ _), Lane.cReg_setC_same _ _ _,
    fun _ h1 h7 => (Lane.cReg_setC_other _ _ h1).trans (Lane.cReg_setC_other _ _ h7)⟩

/-- The return stack has at most its 16 entries in use (R188). -/
theorem Lane.restore_depth_le : (l.restore r fc c7 c1 w1 w2).ctl.depth ≤ 16 := Nat.min_le_right _ _

/-- A repetition that the trap interrupted goes on with its remaining count (R88). -/
theorem Lane.restore_resumes (h : (leWordAt w1 24).getLsbD 31 = true) :
    (l.restore r fc c7 c1 w1 w2).ctl.resumeRc = some ((leWordAt w1 24).toNat % 65536) := if_pos h
end

/-! ### The report of a fenced lane -/

/-- A report that is ready takes its turn on channel 64 (R193, R393). -/
theorem fenceReportPost_posts {s : State} {p : Nat} {ws : List Word} (hf : (s.lane p).trap.fence = some ws)
    (hat : (s.lane p).trap.fenceAt ≤ s.now) (hturn : s.fenceTurn p = true) :
    let u := s.setLane p { s.lane p with trap := { (s.lane p).trap with fence := none } }
    fenceReportPost s p = { u with mail := { u.mail with
      path := s.mail.path ++ ws.zipIdx.map (fun q => ⟨64, s.now + 24, .wr q.2 q.1⟩) ++ [⟨64, s.now + 24, .go 8 0⟩] } } := by
  simp only [fenceReportPost, hf, hat, hturn, and_self, if_true]
  rfl

end Sys2Proof.Machine
end

section
/-! The statements about capabilities and traps, settled. -/

namespace Sys2Proof.Machine
open Sys2Proof

/-- Settles O16: what passes its checks writes within the authority of its source (`capResult_within`). -/
theorem noCapabilityGainsAuthority : Obligations.NoCapabilityGainsAuthority := by
  unfold Obligations.NoCapabilityGainsAuthority
  intro l t c hcheck hsys hresult
  obtain ⟨htag, hperms, hbase, htop⟩ := capResult_within ((capCheck_none_iff l t).mp hcheck) hsys hresult
  exact ⟨htag, hperms, hbase, htop⟩

/-- Settles O26: TRAP_ENTRY enters with the descriptor read (`trapEntry_enters`), and `State.enterWith` loads the handler. -/
theorem trapEntryLoadsTheHandler : Obligations.TrapEntryLoadsTheHandler := by
  unfold Obligations.TrapEntryLoadsTheHandler
  intro s p q a heat cyc d hreset hdue ha hb hn v w hd
  have hexec := exec_of_live (c := .trapEntry p) hreset rfl (trapEntry_enters hdue ha hb hn hd)
  obtain ⟨hfcap, hpc, hstack⟩ := State.enterWith_caps (s := w) rfl
  obtain ⟨hnum, hcause, haddr, hnone, hmask, hpush⟩ := State.enterWith_trap (s := w) rfl
  obtain ⟨hrsv, hxfer, hrep, hmode⟩ := State.enterWith_restarts (s := w) rfl
  obtain ⟨hw, hg, hu, hrstk⟩ := State.enterWith_keeps (s := w) rfl
  exact ⟨_, hexec, hfcap, hpc, hstack, hnum, hcause, haddr, hnone, hmask, hpush,
    hrsv, hxfer, hrep, hmode, hw, hg, hu, hrstk, fun _ hi => w.enterWith_lane_other q d heat cyc _ hi⟩

/-- Settles O27: what `trap.ret` begins is `State.trapReturn_begins`; of a restored lane only the capabilities, the depth and the
resumed count need an argument. -/
theorem trapReturnRestoresTheFrame : Obligations.TrapReturnRestoresTheFrame := by
  unfold Obligations.TrapReturnRestoresTheFrame
  refine ⟨fun s p t h hx hc => ?begins, fun l r fc c7 c1 w1 w2 => ?restores⟩
  case begins =>
    obtain ⟨hrsv, hret, hforce⟩ := State.trapReturn_begins (s := (s.settle p).step2 p 0x71) (p := p) rfl rfl
    obtain ⟨hw, hg, hcaps, hfcap, hu⟩ := State.trapReturn_keeps (s := (s.settle p).step2 p 0x71) (p := p) rfl rfl
    exact ⟨_, exec_trapRet t h hx hc, hrsv, hret, hforce, hw, hg, hcaps, hfcap, hu, fun _ hq => State.trapReturn_lane_other _ hq⟩
  case restores =>
    obtain ⟨h7, h1, hother⟩ := l.restore_caps r fc c7 c1 w1 w2
    exact ⟨rfl, rfl, h7, h1, hother, rfl, l.restore_depth_le r fc c7 c1 w1 w2, rfl, rfl, rfl, rfl, rfl,
      l.restore_resumes r fc c7 c1 w1 w2, rfl, rfl, rfl, rfl⟩

/-- Settles O15: each operation is one that shows a word (`laneDoes_capWord`) or writes cD (`laneDoes_capReg`), whose conditions are
those of `CapPasses`; WRSYS alone writes the TDT. -/
theorem capabilityOperationsWriteTheirResult : Obligations.CapabilityOperationsWriteTheirResult := by
  unfold Obligations.CapabilityOperationsWriteTheirResult
  refine ⟨fun p => ⟨?gpos, ?gbase, ?glim, ?gperm, ?gtag, ?glen, ?cmpb⟩,
    fun p => ⟨?move, ?spos, ?ipos, ?sbnd, ?aperm, ?cltag, ?seals, ?unseals, ?rdsys, ?wrsys⟩⟩
  case gpos | gbase | glim | gperm | gtag | glen | cmpb =>
    exact laneDoes_capWord (fun _ => rfl) (fun l h => by simp [CapPasses, capCodeOk, h]) (fun _ => rfl)
  case move | spos | ipos | aperm | cltag | seals | unseals | rdsys =>
    exact laneDoes_capReg (fun _ => rfl) (fun l h => by simp [CapPasses, capCodeOk, h]) (fun _ => rfl) (fun _ => rfl)
  case sbnd =>
    exact laneDoes_capReg (fun _ => rfl)
      (fun l ⟨hsource, hsealed, hbounds⟩ => by simp [CapPasses, capCodeOk, hsource, hsealed, (sbndBad_eq_false_iff _ _).mpr hbounds])
      (fun _ => rfl) (fun _ => rfl)
  case wrsys => exact laneDoes_cap (fun _ => rfl) (fun l h => by simp [CapPasses, capCodeOk, h]) (fun _ _ => rfl)

/-- Settles O28, from `fenceReportPost_posts`. -/
theorem fenceReportIsPostedOnChannel64 : Obligations.FenceReportIsPostedOnChannel64 := by
  unfold Obligations.FenceReportIsPostedOnChannel64
  exact fun s p ws hreset hf hat hturn => exec_of_live hreset rfl (fenceReportPost_posts hf hat hturn)

end Sys2Proof.Machine
end

section
/-! SUPPORT. The check code of a relay word: the check is linear in the word, so that the syndrome of a single wrong bit is the
code of that bit (R214, R215). -/

namespace Sys2Proof.Machine
open Sys2Proof

/-- Place `q` of the code, a value and its bit, adds its value to the check `a` of a word in which the bit is set. -/
def addCode (v : Word) (a : BitVec 7) (q : Nat × Nat) : BitVec 7 :=
  if v.getLsbD q.2 then a ^^^ BitVec.ofNat 7 q.1 else a

theorem addCode_xor (v x : Word) (a b : BitVec 7) (q : Nat × Nat) :
    addCode (v ^^^ x) (a ^^^ b) q = addCode v a q ^^^ addCode x b q := by
  cases hv : v.getLsbD q.2 <;> cases hx : x.getLsbD q.2 <;> simp [addCode, hv, hx]
  case false.true => exact BitVec.xor_assoc _ _ _
  case true.false => rw [BitVec.xor_assoc, BitVec.xor_comm b, BitVec.xor_assoc]
  case true.true => rw [BitVec.xor_comm b, ← BitVec.xor_assoc, BitVec.xor_assoc a, BitVec.xor_self, BitVec.xor_zero]

theorem foldl_addCode_xor (v x : Word) (l : List (Nat × Nat)) (a b : BitVec 7) :
    l.foldl (addCode (v ^^^ x)) (a ^^^ b) = l.foldl (addCode v) a ^^^ l.foldl (addCode x) b := by
  induction l generalizing a b with
  | nil => rfl
  | cons q r ih => simp only [List.foldl_cons, addCode_xor, ih]

/-- The check is linear (R214). -/
theorem rlyCheck_xor (v x : Word) : rlyCheck (v ^^^ x) = rlyCheck v ^^^ rlyCheck x :=
  foldl_addCode_xor v x rlyCodes.zipIdx 0 0

/-- A single bit has its own code as its check (R214). -/
theorem rlyCodes_find_bit : ∀ j, j < 32 → (rlyCheck (1 <<< j)).toNat ≠ 0 ∧
    rlyCodes.findIdx? (fun k => decide (k = (rlyCheck (1 <<< j)).toNat)) = some j := by decide +kernel

theorem rlyDecode_sound (v : Word) : rlyDecode v (rlyCheck v) = (v, rlyCheck v, false, false) := by
  simp [rlyDecode]

/-- A word whose syndrome is the code of one bit has that bit corrected (R215). -/
theorem rlyDecode_of_syndrome_bit {v : Word} {c : BitVec 7} {j : Nat} (hj : j < 32) (h : rlyCheck v ^^^ c = rlyCheck (1 <<< j)) :
    rlyDecode v c = (v ^^^ (1 <<< j), c, true, false) := by
  obtain ⟨hne, hfind⟩ := rlyCodes_find_bit j hj
  simp only [rlyDecode, h, if_neg hne, hfind]

/-- One inverted data bit is corrected (R215). -/
theorem rlyDecode_flipped (v : Word) {j : Nat} (hj : j < 32) :
    rlyDecode (v ^^^ (1 <<< j)) (rlyCheck v) = (v, rlyCheck v, true, false) := by
  have hsyn : rlyCheck (v ^^^ (1 <<< j)) ^^^ rlyCheck v = rlyCheck (1 <<< j) := by
    rw [rlyCheck_xor, BitVec.xor_comm, ← BitVec.xor_assoc, BitVec.xor_self, BitVec.zero_xor]
  rw [rlyDecode_of_syndrome_bit hj hsyn, BitVec.xor_assoc, BitVec.xor_self, BitVec.xor_zero]

end Sys2Proof.Machine
end

section
/-! SUPPORT. A word at a router: its hop, and what becomes of a word that no output takes (R215, R218–R221, R254). -/

namespace Sys2Proof.Machine
open Sys2Proof

/-- The hop's check counts at its router a word corrected or uncorrectable (R215). -/
def State.hopCounted (e : State) (r : RouterId) (w : RWord) : State :=
  let d := rlyDecode w.data w.check
  let c := e.rcnt r
  e.setRcnt r { c with ce := if d.2.2.1 then sat1 c.ce else c.ce, ue := if d.2.2.2 then sat1 c.ue else c.ue }

/-- The outputs of router `r`, each with its entry, that take the word of input `i`; those in `bad` take none (R219, R220, R254). -/
def State.hopOuts (u : State) (r : RouterId) (i : Nat) (bad : List Nat) : List (Nat × BitVec 16) :=
  ((List.range (nOuts r)).filter (fun n => !bad.contains n)).filterMap (fun n => (takes u r n i).map (fun e => (n, e)))

/-- The words that outputs `outs` of router `r` send on for the word `w`, corrected and poisoned as its check says (R215, R218). -/
def hopCopies (r : RouterId) (now : Nat) (w : RWord) (outs : List (Nat × BitVec 16)) : List RWord :=
  let d := rlyDecode w.data w.check
  outs.flatMap (fun q => (onward r q.1 q.2 now).map (fun l => ⟨l.1, l.2, d.1, d.2.1, w.poison || d.2.2.2, none, some r, false⟩))

section
variable {s : State} {r : RouterId} {i : Nat} {bad : List Nat} {w : RWord} (hw : s.relay.words.find? (atInput s.now r i) = some w)
  {e u : State} (he : s.tableUe r bad = e) (hu : e.hopCounted r w = u)
include hw he hu

/-- A word that some output takes is replaced by its copies (R219). -/
theorem relayHop_forwards (hne : u.hopOuts r i bad ≠ []) : relayHop s r ⟨i, bad⟩ =
    { u with relay := { u.relay with
        words := markPassed r i w.due (e.relay.words.filter (fun x => decide (x ≠ w))) ++ hopCopies r u.now w (u.hopOuts r i bad) } } := by
  subst he hu
  simp only [relayHop, hw]
  exact if_neg (mt List.isEmpty_iff.mp hne)

/-- A word that no output takes is off the network (R220, R221). -/
theorem relayHop_untaken (hnil : u.hopOuts r i bad = []) : relayHop s r ⟨i, bad⟩ =
    ({ u with relay := { u.relay with words := e.relay.words.filter (fun x => decide (x ≠ w)) } } : State).untaken r i w := by
  subst he hu
  simp only [relayHop, hw]
  exact if_pos (List.isEmpty_iff.mpr hnil)
end

/-- A word that a lane sent and no output takes is its unslotted send (R221). -/
theorem State.untaken_sent (s : State) (r : RouterId) (i : Nat) {w : RWord} {p : Nat} (h : w.src = some p) :
    s.untaken r i w = s.setLane p { s.lane p with rly := { (s.lane p).rly with unslot := sat1 (s.lane p).rly.unslot } } := by
  simp only [State.untaken, h]

/-- A word from router `q` that nothing takes is a drop of that router, save on the ring (R220). -/
theorem State.untaken_forwarded (s : State) {r : RouterId} (i : Nat) {w : RWord} {q : RouterId} (hs : w.src = none)
    (hp : w.prev = some q) (ht : w.taken = false) (hr : ∀ f, r ≠ .ring f) : s.untaken r i w = s.rdrop q := by
  cases r with
  | ring f => exact absurd rfl (hr f)
  | squad _ | field _ => simp [State.untaken, hs, hp, ht]

@[simp] theorem State.rcnt_setRcnt_same (s : State) (r : RouterId) (c : RCnt) : (s.setRcnt r c).rcnt r = c := by
  simp [State.rcnt, State.setRcnt]

@[simp] theorem State.rdrop_drop (s : State) (r : RouterId) : ((s.rdrop r).rcnt r).drop = sat1 (s.rcnt r).drop := by
  simp [State.rdrop]

end Sys2Proof.Machine
end

section
/-! SUPPORT. A word due at a lane: the drop of a lane out of use, the event of a word unfit for use, the record of a sound one
(R215, R222, R226). -/

namespace Sys2Proof.Machine
open Sys2Proof

/-- The word is at lane `p` and due. -/
def RWord.dueAt (now p : Nat) (w : RWord) : Bool :=
  (match w.loc with | .atLane q _ _ => decide (q = p) | _ => false) && decide (w.due ≤ now)

/-- The state without the word `w` on its network. -/
def State.offNet (s : State) (w : RWord) : State :=
  { s with relay := { s.relay with words := s.relay.words.filter (fun x => decide (x ≠ w)) } }

/-- The port that the word moves to at a lane, 128 for the receive queue (R222). -/
def RWord.port (w : RWord) : Nat := match w.loc with | .atLane _ true dp => dp | _ => 128

/-- A lane with a word that its check corrected, or did not need to (R215). -/
def Lane.corrects (l : Lane) (corrected : Bool) : Lane :=
  if corrected then { l with rly := { l.rly with ce := sat1 l.rly.ce } } else l

/-- What lane `p`, brought to the present cycle, does with the word `w` taken off the network. -/
def State.hears (u : State) (p : Nat) (w : RWord) : State :=
  let l := u.lane p
  let d := rlyDecode w.data w.check
  if l.mode == .held || l.mode == .fenced then u.rdrop (.squad (p / 17))
  else if w.poison || d.2.2.2 then u.setLane p ({ l with rly := { l.rly with ue := sat1 l.rly.ue } }.selfCheck u.now)
  else
    let m := l.corrects d.2.2.1
    u.setLane p { m with rly := { m.rly with moves := m.rly.moves ++ [⟨w.port, d.1, u.now⟩] } }

theorem relayArrival_hears {s : State} {p : Nat} {w : RWord} (hw : s.relay.words.find? (RWord.dueAt s.now p) = some w) :
    relayArrival s p = ((s.offNet w).settleBuf p).hears p w := by
  unfold relayArrival
  extract_lets here
  split
  case h_1 hnone => cases hnone.symm.trans hw
  case h_2 x hx => cases hx.symm.trans hw; rfl

theorem RWord.port_of_loc {w : RWord} {p dp : Nat} {mode : Bool} (h : w.loc = .atLane p mode dp) :
    w.port = if mode then dp else 128 := by
  cases mode <;> simp [RWord.port, h]

/-- A correction advances RLY_CE_CNT and nothing else. -/
theorem Lane.corrects_frame (l : Lane) (corrected : Bool) :
    (l.corrects corrected).rly.moves = l.rly.moves ∧ (l.corrects corrected).w = l.w := by
  cases corrected <;> exact ⟨rfl, rfl⟩

section
variable {u : State} {p : Nat} {w : RWord}

/-- A lane held in reset or fenced leaves the word to its squad router's drops (R226). -/
theorem State.hears_off (h : (u.lane p).mode = .held ∨ (u.lane p).mode = .fenced) : u.hears p w = u.rdrop (.squad (p / 17)) :=
  if_pos (by simpa using h)

variable (hh : (u.lane p).mode ≠ .held) (hf : (u.lane p).mode ≠ .fenced)
include hh hf

/-- A poisoned or uncorrectable word is counted and is a self-check event (R215). -/
theorem State.hears_unfit (h : w.poison = true ∨ (rlyDecode w.data w.check).2.2.2 = true) : u.hears p w =
    u.setLane p ({ u.lane p with rly := { (u.lane p).rly with ue := sat1 (u.lane p).rly.ue } }.selfCheck u.now) :=
  (if_neg (by simp [hh, hf])).trans (if_pos (by simpa using h))

/-- Any other is recorded for its action in this cycle (R222). -/
theorem State.hears_sound (hp : w.poison = false) (hd : (rlyDecode w.data w.check).2.2.2 = false) :
    ∃ m, u.hears p w = u.setLane p m ∧
      m.rly.moves = (u.lane p).rly.moves ++ [⟨w.port, (rlyDecode w.data w.check).1, u.now⟩] ∧ m.w = (u.lane p).w := by
  obtain ⟨hmoves, hregs⟩ := (u.lane p).corrects_frame (rlyDecode w.data w.check).2.2.1
  exact ⟨_, (if_neg (by simp [hh, hf])).trans (if_neg (by simp [hp, hd])), congrArg (· ++ _) hmoves, hregs⟩
end

end Sys2Proof.Machine
end

section
/-! SUPPORT. `rly.send` and the receive queue (R66, R174, R213, R214, R221, R223, R224). -/

namespace Sys2Proof.Machine
open Sys2Proof

/-- `rly.send` needs RLY in `fcap` and has no other check (R174). -/
theorem moveChecks_rlySend (p : Nat) (l : Lane) (v : Word) : moveChecks p l l [(⟨0x78, .imm v, none⟩, v)] =
    if l.fcap.perm permRLY then none else some permTrap := by
  have hport : portCheck l l ⟨0x78, .imm v, none⟩ = if l.fcap.perm permRLY then none else some permTrap := by
    cases h : l.fcap.perm permRLY <;> simp [portCheck, Mv.reads, within, h]
  have hunit : unitCheck p l 0x78 v = none := rfl
  cases h : l.fcap.perm permRLY <;> simp [moveChecks, hport, hunit, h]

section
variable {s : State} {p : Nat}

/-- With RLY the word is sent on the state as the trigger finds it. -/
theorem exec_rlySend (v : Word) (h : s.Acts p 0x78) (hp : (s.laneNow p).fcap.perm permRLY = true) :
    exec (.rlySend p v) s = .next (rlySendOp ((s.settle p).step2 p 0x78) p v) := by
  refine exec_of_live h.1 rfl ((trigger_acts s p 0x78 v h (by simp [slotForbidden, within]) ?checks).trans ?fires)
  case checks => rw [moveChecks_rlySend, if_pos hp]
  case fires => rw [State.drainHeld_other _ _ _ _ (by decide)]; rfl

/-- Without RLY it raises trap 4 and nothing else happens (R174). -/
theorem exec_rlySend_refused (v : Word) (h : s.Acts p 0x78) (hp : (s.laneNow p).fcap.perm permRLY = false)
    (h8 : (s.laneNow p).trap.load8 = none) : exec (.rlySend p v) s = .next ((s.settle p).setLane p
      ((s.laneNow p).raiseTrap permTrap (s.laneNow p).retPoint.1 (s.laneNow p).retPoint.2 ((s.settle p).now + 1))) := by
  obtain ⟨hreset, hstopped, -⟩ := h
  have hcheck : moveChecks p (s.laneNow p) (s.laneNow p) [(⟨0x78, .imm v, none⟩, v)] = some permTrap := by
    rw [moveChecks_rlySend, hp]; rfl
  exact exec_of_live hreset rfl ((trigger_trap s p 0x78 v permTrap hstopped (by simp [slotForbidden, within]) hcheck).trans
    (State.instrTrap_at_instr h8 (by decide) _))

/-- A lane with RLY reads the head of its queue, which leaves it (R223). -/
theorem rxRead_pops (hs : (s.laneNow p).stopped = false) (hp : (s.laneNow p).fcap.perm permRLY = true) :
    rxRead s p = ((s.settle p).setLane p (s.laneNow p).rxPop).answer 0 (rxHead (s.laneNow p)) := by
  simp only [State.laneNow] at hs hp ⊢
  simp [rxRead, hs, hp]

/-- A lane with SYS writes RLY_CTRL, for the moves of the next cycle (R65, R66). -/
theorem rlyFlush_writes (hs : (s.laneNow p).stopped = false) (hp : (s.laneNow p).fcap.perm permSYS = true) (v : Word) :
    rlyFlush s p v = (s.settle p).setLane p ((s.laneNow p).sysLater (s.settle p).now 0xC1 v) := by
  simp only [State.laneNow] at hs hp ⊢
  simp [rlyFlush, hs, hp]
end

theorem Lane.rxHead_cons {l : Lane} {v : Word} {r : List Word} (h : l.rly.rx = v :: r) :
    rxHead l = v ∧ l.rxPop = { l with rly := { l.rly with rx := r } } := by
  simp [rxHead, Lane.rxPop, h]

theorem Lane.rxHead_nil {l : Lane} (h : l.rly.rx = []) : rxHead l = 0 ∧ l.rxPop = { l with rly := { l.rly with unf := true } } := by
  simp [rxHead, Lane.rxPop, h]

/-- A write of RLY_CTRL with FLUSH set empties the queue (R224). -/
theorem sysWrite_flush (l : Lane) {v : Word} (h : v.getLsbD 0 = true) (k : Nat) :
    sysWrite l 0xC1 v k = { l with rly := { l.rly with rx := [] } } := if_pos h

end Sys2Proof.Machine
end

section
/-! The statements about teams and the relay network, settled. -/

namespace Sys2Proof.Machine
open Sys2Proof

/-- Settles O32: the check is linear (`rlyDecode_flipped`), and a hop forwards its word or leaves it untaken. -/
theorem relayHopChecksAndForwards : Obligations.RelayHopChecksAndForwards := by
  unfold Obligations.RelayHopChecksAndForwards
  refine ⟨fun v => ⟨rlyDecode_sound v, fun j hj => rlyDecode_flipped v hj⟩,
    fun s r i bad w hreset hw => ⟨?forwards, ?sent, ?dropped⟩⟩
  case forwards => exact fun hne => exec_of_live hreset rfl (relayHop_forwards hw rfl rfl hne)
  case sent =>
    intro p hnil hsrc
    refine ⟨_, exec_of_live hreset rfl ((relayHop_untaken hw rfl rfl hnil).trans (State.untaken_sent _ r i hsrc)), rfl, ?_⟩
    rw [State.lane_setLane_same]
    rfl
  case dropped =>
    intro q hnil hsrc hprev htaken hring
    exact ⟨_, exec_of_live hreset rfl
      ((relayHop_untaken hw rfl rfl hnil).trans (State.untaken_forwarded _ i hsrc hprev htaken hring)), rfl, State.rdrop_drop _ q⟩

/-- Settles O31: what passes its permission acts as `exec_rlySend`, `rxRead_pops` and `rlyFlush_writes` say. -/
theorem relaySendAndReceiveQueue : Obligations.RelaySendAndReceiveQueue := by
  unfold Obligations.RelaySendAndReceiveQueue
  refine ⟨fun s p v h => ⟨?sends, ?steward, ?refused⟩, fun s p hreset hs => ⟨?pops, ?empty, ?flush⟩⟩
  case sends => exact fun hp hstw => ⟨_, exec_rlySend v h hp, if_neg (by simp [hstw])⟩
  case steward =>
    exact fun hp hstw => ⟨_, (exec_rlySend v h hp).trans (congrArg _ (if_pos hstw)), State.laneOnly_setLane _ _ _⟩
  case refused => exact fun hp h8 => exec_rlySend_refused v h hp h8
  case pops =>
    intro v r hp hq
    obtain ⟨hhead, hpop⟩ := Lane.rxHead_cons hq
    exact exec_of_live hreset rfl (by rw [rxRead_pops hs hp, hhead, hpop])
  case empty =>
    intro hp hq
    obtain ⟨hhead, hpop⟩ := Lane.rxHead_nil hq
    exact exec_of_live hreset rfl (by rw [rxRead_pops hs hp, hhead, hpop])
  case flush =>
    exact fun v hp => ⟨_, exec_of_live hreset rfl (rlyFlush_writes hs hp v), State.laneOnly_setLane _ _ _,
      fun m k hv => sysWrite_flush m hv k⟩

/-- Settles O33: the word is taken off the network (`relayArrival_hears`), and the lane hears it in one of three ways. -/
theorem relayArrivalReachesTheLane : Obligations.RelayArrivalReachesTheLane := by
  unfold Obligations.RelayArrivalReachesTheLane
  intro s p w mode dp hreset hw hloc
  have harrival := relayArrival_hears hw
  refine ⟨fun hoff => ?off, fun hh hf hbad => ?unfit, fun hh hf hp hd => ?sound⟩
  case off => exact exec_of_live hreset rfl (harrival.trans (State.hears_off hoff))
  case unfit => exact exec_of_live hreset rfl (harrival.trans (State.hears_unfit hh hf hbad))
  case sound =>
    obtain ⟨m, hears, hmoves, hregs⟩ := State.hears_sound hh hf hp hd
    rw [RWord.port_of_loc hloc] at hmoves
    refine ⟨_, exec_of_live hreset rfl (harrival.trans hears), ?_, ?_, fun q hq => State.lane_setLane_other _ _ hq⟩
    · rw [State.lane_setLane_same]; exact hmoves
    · rw [State.lane_setLane_same]; exact hregs

end Sys2Proof.Machine
end

section
/-! SUPPORT. What faults, scrub and MEM_CMD leave of the memory blocks of the lanes (R243–R245, R401). -/

namespace Sys2Proof.Machine
open Sys2Proof

/-! ### Events and faults -/

@[simp] theorem State.raise_mems (s : State) (code : Nat) (src : Word) (data : BitVec 64) (tied : Bool) :
    (s.raise code src data tied).mems = s.mems :=
  State.mems_of_unheard (s.raise_unheard code src data tied)

@[simp] theorem State.markBroken_mems (s : State) (h cause seat w : Nat) : (s.markBroken h cause seat w).mems = s.mems := by
  simp only [State.markBroken]
  split
  · rfl
  · split
    · exact State.raise_mems _ _ _ _ _
    · rfl

@[simp] theorem State.sourceFault_mems (s : State) (seat : Nat) : (s.sourceFault seat).mems = s.mems := by
  simp only [State.sourceFault]
  split <;> rfl

/-- A cause of a fault action writes no memory (R401). -/
@[simp] theorem State.faultCause_mems (s : State) (p : Nat) (kind : ActKind) (cause due : Nat) :
    (s.faultCause p kind cause due).mems = s.mems := by
  simp only [State.faultCause]
  split
  · split <;> rfl
  · split
    · rfl
    · split
      · split <;> split_ifs <;> simp
      · split_ifs <;> simp

theorem memEvents_mems (s : State) (p : Nat) (ue full : Bool) : (memEvents s p ue full).mems = s.mems := by
  cases ue <;> cases full <;> simp [memEvents]

theorem memEvents_lmem (s : State) (p : Nat) (ue full : Bool) (q : Nat) : (memEvents s p ue full).lmem q = s.lmem q := by
  rw [State.lmem, memEvents_mems, ← State.lmem]

/-! ### What a read of a row records -/

/-- The block without its ports and without what its reads record: counters, flags and the last error (R243, R258). -/
def LaneMem.unreported (m : LaneMem) : LaneMem :=
  { m with p0 := laneMemReset.p0, p1 := laneMemReset.p1, pis := laneMemReset.pis, exhaust := false, marked := false, ue := false,
           ce := false, ceCnt := [], tagCe := 0, ueCnt := [], lastErr := 0, lastSyn := 0 }

@[simp] theorem LaneMem.note_unreported (m : LaneMem) (k src a : Nat) (r : RowRead) : (m.note k src a r).unreported = m.unreported := by
  simp only [LaneMem.note]
  split <;> split_ifs <;> rfl

@[simp] theorem LaneMem.setSp_unreported (m : LaneMem) (k : Nat) (q : ShPort) : (m.setSp k q).unreported = m.unreported := by
  simp only [LaneMem.setSp]
  split_ifs <;> rfl

@[simp] theorem LaneMem.useShare_unreported (m : LaneMem) (k now n : Nat) : (m.useShare k now n).unreported = m.unreported :=
  LaneMem.setSp_unreported _ _ _

@[simp] theorem LaneMem.setArr_unreported (m : LaneMem) (k : Nat) (a : RodArr) : (m.setArr k a).unreported = m.unreported.setArr k a := by
  simp only [LaneMem.setArr]
  split_ifs <;> rfl

theorem LaneMem.arr_setArr_same (m : LaneMem) (k : Nat) (a : RodArr) : (m.setArr k a).arr k = a := by
  simp only [LaneMem.setArr, LaneMem.arr]
  split_ifs <;> rfl

theorem LaneMem.setArr_scrubPos (m : LaneMem) (k : Nat) (a : RodArr) :
    (m.setArr k a).row = m.row ∧ (m.setArr k a).rowIs = m.rowIs := by
  simp only [LaneMem.setArr]
  split_ifs <;> exact ⟨rfl, rfl⟩

/-! ### Scrub -/

/-- The block with array `k` as a scrub of its physical row `r` leaves it (R244). -/
def LaneMem.scrubbed (m : LaneMem) (k r : Nat) (hard : Bool) : LaneMem :=
  m.setArr k (scrubRow (m.arr k) (arrRows k) 24 r hard m.remapAuto).arr

/-- The block with both row positions moved on, and the sweep counted that ends with the last home row (R244). -/
def LaneMem.advanced (m : LaneMem) : LaneMem :=
  { m with row := (m.row + 1) % 1048, rowIs := (m.rowIs + 1) % 536, sweeps := if m.row = 1047 then m.sweeps + 1 else m.sweeps }

/-- Beside its array a scrub changes only what it records (R243, R244). -/
theorem LaneMem.scrub_unreported (m : LaneMem) (now k r : Nat) (hard : Bool) :
    (m.scrub now k r hard).1.unreported = m.unreported.scrubbed k r hard := by
  have hset := m.setArr_unreported k (scrubRow (m.arr k) (arrRows k) 24 r hard m.remapAuto).arr
  have hexhaust (n : LaneMem) (b : Bool) : ({ n with exhaust := b } : LaneMem).unreported = n.unreported := rfl
  simp only [LaneMem.scrub, hexhaust, LaneMem.useShare_unreported]
  split <;> simp only [LaneMem.note_unreported] <;> exact hset

/-- MEM_CMD remaps the row and is done; its reads are recorded (R243, R245). -/
theorem LaneMem.doCmd_unreported (m : LaneMem) (now k row : Nat) : (m.doCmd now k row).1.unreported =
    { m.unreported.setArr k ((m.arr k).remapRow (arrRows k) 24 row).1 with cmd := none } := by
  have hcmd (n : LaneMem) (b : Bool) :
      ({ n with cmd := none, exhaust := b } : LaneMem).unreported = { n.unreported with cmd := none } := rfl
  simp only [LaneMem.doCmd, hcmd, LaneMem.useShare_unreported, LaneMem.note_unreported, LaneMem.setArr_unreported]

section
variable {s : State} {p : Nat} (h0 h1 hi : Bool)

theorem scrubVisit_closed (h : s.scrubOpen p = false) : scrubVisit s p h0 h1 hi = s := by
  simp [scrubVisit, h]

variable (h : s.scrubOpen p = true)
include h

/-- A visit scrubs the row at each position and moves the positions on (R244). -/
theorem scrubVisit_scrubs (hc : (s.lmem p).cmd = none) : ((scrubVisit s p h0 h1 hi).lmem p).unreported =
    (((({ s.lmem p with visited := s.pacer.heatNum.toNat + 1 } : LaneMem).unreported.scrubbed 0 (s.lmem p).row h0).scrubbed
      1 (s.lmem p).row h1).scrubbed 2 (s.lmem p).rowIs hi).advanced := by
  have hadv (n : LaneMem) : n.advanced.unreported = n.unreported.advanced := rfl
  have hvisit : ∃ m, (scrubVisit s p h0 h1 hi).lmem p = LaneMem.advanced m ∧ m.unreported =
      ((({ s.lmem p with visited := s.pacer.heatNum.toNat + 1 } : LaneMem).unreported.scrubbed 0 (s.lmem p).row h0).scrubbed
        1 (s.lmem p).row h1).scrubbed 2 (s.lmem p).rowIs hi := by
    simp only [scrubVisit, h, hc, Bool.not_true, Bool.false_eq_true, if_false, memEvents_lmem, State.lmem_setLmem_same]
    refine ⟨_, rfl, ?_⟩
    simp only [LaneMem.scrub_unreported]
  obtain ⟨m, hm, hu⟩ := hvisit
  rw [hm, hadv, hu]

/-- A waiting MEM_CMD takes the place of the visit (R245). -/
theorem scrubVisit_remaps {k row : Nat} (hc : (s.lmem p).cmd = some (k, row)) : ((scrubVisit s p h0 h1 hi).lmem p).unreported =
    { ({ s.lmem p with visited := s.pacer.heatNum.toNat + 1 } : LaneMem).unreported.setArr k
        (((s.lmem p).arr k).remapRow (arrRows k) 24 row).1 with cmd := none } := by
  simp only [scrubVisit, h, hc, Bool.not_true, Bool.false_eq_true, if_false, memEvents_lmem, State.lmem_setLmem_same]
  exact LaneMem.doCmd_unreported _ _ _ _
end

/-! ### MEM_CMD -/

section
variable {s : State} {m : BitVec 11} {p : Nat} {v : Word}

/-- A steward's MEM_CMD that names a row in service waits for the cool-down (R245, R258). -/
theorem memCmd_taken (hm : isStwMaster m = true) (hgo : v.getLsbD 31 = true) (hk : (v.extractLsb' 29 2).toNat < 3)
    (hrow : (v.extractLsb' 0 10).toNat < arrRows (v.extractLsb' 29 2).toNat) (hp : p < 1088) : memCmd s m p v =
      (s.setLmem p { s.lmem p with cmd := some ((v.extractLsb' 29 2).toNat, (v.extractLsb' 0 10).toNat) }).answer 0 0 := by
  simp only [memCmd, hm, hgo, hk, hrow, hp, decide_true, Bool.and_true, Bool.not_true, Bool.false_eq_true, if_false, if_true]

/-- Any other write of it is only answered (R258). -/
theorem memCmd_refused (h : isStwMaster m = false ∨ v.getLsbD 31 = false ∨ 3 ≤ (v.extractLsb' 29 2).toNat ∨
    arrRows (v.extractLsb' 29 2).toNat ≤ (v.extractLsb' 0 10).toNat ∨ 1088 ≤ p) : memCmd s m p v = s.answer 0 0 := by
  simp only [memCmd]
  generalize v.getLsbD 31 = go at h ⊢
  generalize (v.extractLsb' 29 2).toNat = k at h ⊢
  generalize (v.extractLsb' 0 10).toNat = row at h ⊢
  rcases h with hm | hgo | hk | hrow | hp
  · simp [hm]
  · simp [hgo]
  · simp [Nat.not_lt.mpr hk]
  · simp [Nat.not_lt.mpr hrow]
  · simp [Nat.not_lt.mpr hp]
end

end Sys2Proof.Machine
end

section
/-! SUPPORT. A sharing port that serves its one pending request, and the write of a whole rod over sound hops (R146, R248–R250). -/

namespace Sys2Proof.Machine
open Sys2Proof

/-! ### The request that is served -/

section
variable {s : State} {p k : Nat} (hop : HopErr)

/-- An array in use serves no sharer (R248). -/
theorem sharerAccess_busy (h : (s.settle p).shareIdle p k = false) : sharerAccess s p ⟨k, hop⟩ = s.settle p := by
  simp [sharerAccess, h]

variable (hk : k < 3) (h : (s.settle p).shareIdle p k = true) (hi : (((s.settle p).lmem p).sp k).ingest = [])
include hk h hi

/-- A port with nothing pending serves nothing. -/
theorem sharerAccess_empty (hp : (((s.settle p).lmem p).sp k).pend = []) : sharerAccess s p ⟨k, hop⟩ = s.settle p := by
  have hnot : ¬ 3 ≤ k := by omega
  simp [sharerAccess, h, hi, hp, hnot, standing, pickReq]

/-- The only pending request, if it need not wait for another of its master, leaves the port and is served (R249, R291). -/
theorem sharerAccess_single {r : ShReq} (hp : (((s.settle p).lmem p).sp k).pend = [r]) (ho : (s.settle p).inOrder r = true) :
    sharerAccess s p ⟨k, hop⟩ = ((s.settle p).setLmem p (((s.settle p).lmem p).setSp k
      { ((s.settle p).lmem p).sp k with pend := [] })).serve p k r hop := by
  have hnot : ¬ 3 ≤ k := by omega
  have hsplit : [r].filter (fun q => decide (q.cls < 5)) ++ [r].filter (fun q => !decide (q.cls < 5)) = [r] := by
    by_cases hc : r.cls < 5 <;> simp [hc]
  have hstand : standing 4 4 [r] = [r] := by
    cases hw : r.isWrite <;> simp [standing, hw]
  simp [sharerAccess, h, hi, hp, hnot, hsplit, hstand, ho, pickReq, dropReq]
end

/-- A request that no master on the fabric waits for keeps no order (R291). -/
theorem State.inOrder_of_fab_none (s : State) {r : ShReq} (h : r.fab = none) : s.inOrder r = true := by
  simp [State.inOrder, h]

/-! ### A whole rod over sound hops -/

/-- Without an error on its way a rod arrives as sent, and its hop CRC holds (R247). -/
theorem hopPass_noHopErr (d : Rod) : hopPass d noHopErr = (d, false) := by
  simp [hopPass, noHopErr]

/-- From `s` to `t` a reservation of rod `a` by lane `p` is cleared; its registers and all other lanes are as they were (R146). -/
def State.RsvCleared (s t : State) (p a : Nat) : Prop :=
  (t.lane p).lsu.rsv = (if (s.lane p).lsu.rsv = some a then none else (s.lane p).lsu.rsv) ∧
    (t.lane p).w = (s.lane p).w ∧ (t.lane p).g = (s.lane p).g ∧ (t.lane p).c = (s.lane p).c ∧ (t.lane p).u = (s.lane p).u ∧
    ∀ q, q ≠ p → t.lane q = s.lane q

/-- The write of a whole rod on a lane that is not held stores the rod and clears a reservation of it (R146, R178). -/
theorem State.shareWrite_wholeRod {s : State} {p : Nat} (a : Nat) (rod : Rod) (hh : (s.lane p).mode ≠ .held)
    (hu : (s.lane p).lsu.scUndo = none) :
    let t := s.shareWrite p a rod fullMask false
    t.mems = (s.rodWrite p a (rodBytes rod) 0 false).mems ∧ s.RsvCleared t p a := by
  have hlost : (s.lane p).scLost s.now a = s.lane p := by simp only [Lane.scLost, hu]
  have hwrite : s.shareWrite p a rod fullMask false = (s.setLane p
      (if (s.lane p).lsu.rsv = some a then { s.lane p with lsu := { (s.lane p).lsu with rsv := none } } else s.lane p)).rodWrite
        p a (rodBytes rod) 0 false := by
    simp [State.shareWrite, hlost, hh]
  intro t
  have hlane (q : Nat) : t.lane q = if q = p then _ else s.lane q :=
    (congrArg (State.lane · q) hwrite).trans (State.lane_setLane s p q _)
  refine ⟨(congrArg State.mems hwrite :), ?_⟩
  rw [State.RsvCleared, hlane p, if_pos rfl]
  split <;> exact ⟨rfl, rfl, rfl, rfl, rfl, fun q hq => (hlane q).trans (if_neg hq)⟩

/-- A whole rod without a signature, in time and over sound hops, is written as sent (R146, R247, R250, R257). -/
theorem State.serve_wholeRod {u : State} {p k : Nat} {r : ShReq} {rod : Rod} (n : LaneMem)
    (hkind : r.kind = .write rod fullMask none false) (hsig : r.sig = none) (hfab : r.fab = none) (hd : r.deadline = none)
    (hh : (u.lane p).mode ≠ .held) (hu : (u.lane p).lsu.scUndo = none) :
    let t := (u.setLmem p n).serve p k r noHopErr
    t.mems = (((u.setLmem p n).setLmem p (n.useShare k u.now 1)).rodWrite p (rodAddr k r.rod) (rodBytes rod) 0 false).mems ∧
      u.RsvCleared t p (rodAddr k r.rod) := by
  have hserve : (u.setLmem p n).serve p k r noHopErr =
      ((u.setLmem p n).setLmem p (n.useShare k u.now 1)).shareWrite p (rodAddr k r.rod) rod fullMask false := by
    simp [State.serve, hkind, hsig, hfab, hd, hopPass_noHopErr, State.shareLate, State.sigBad]
  rw [hserve]
  exact State.shareWrite_wholeRod (s := (u.setLmem p n).setLmem p (n.useShare k u.now 1)) (rodAddr k r.rod) rod hh hu

end Sys2Proof.Machine
end

section
/-! SUPPORT. The steward memory controller: an access that was refused is retried, and a row is scrubbed (R243, R251–R253, R292). -/

namespace Sys2Proof.Machine
open Sys2Proof

/-! ### What a read of a rod records -/

/-- Steward memory without what its reads record (R243, R258). -/
def StewMem.unreported (m : StewMem) : StewMem := { m with ue := false, ce := false, ceCnt := 0, ueCnt := 0, lastErr := 0 }

theorem StewMem.note_unreported (m : StewMem) (portB : Bool) (rod : Nat) (r : RowRead) :
    (m.note portB rod r).unreported = m.unreported := by
  simp only [StewMem.note]
  split
  · rfl
  · split_ifs <;> rfl
  · rfl


@[simp] theorem State.raise_sm (s : State) (code : Nat) (src : Word) (data : BitVec 64) (tied : Bool) :
    (s.raise code src data tied).sm = s.sm :=
  (congrArg State.sm (s.raise_unheard code src data tied) :)

@[simp] theorem State.raise_fab (s : State) (code : Nat) (src : Word) (data : BitVec 64) (tied : Bool) :
    (s.raise code src data tied).fab = s.fab :=
  (congrArg State.fab (s.raise_unheard code src data tied) :)

/-- A read of a rod records what it found, and nothing on the fabric (R243). -/
theorem State.smRead_frame (s : State) (portB : Bool) (rod : Nat) :
    (s.smRead portB rod).2.sm.unreported = s.sm.unreported ∧ (s.smRead portB rod).2.fab = s.fab := by
  have hn := s.sm.note_unreported portB rod (readRow s.sm.arr smRows rod)
  simp only [State.smRead]
  split
  · exact ⟨(congrArg StewMem.unreported (State.raise_sm _ _ _ _ _)).trans hn, State.raise_fab _ _ _ _ _⟩
  · exact ⟨hn, rfl⟩

/-! ### Retries -/

/-- The one granted rod is answered, and the bridge is empty (R292). -/
theorem State.fabAnswer_single {s : State} {b : FRod} {id : Nat} (h : s.fab.bridge = [b]) (hid : b.id = id) (hd : b.drop = false)
    (code : BitVec 2) (d : List Byte) : s.fabAnswer id code d = { s with fab := { s.fab with
      bridge := []
      resps := s.fab.resps ++ [{ id := b.id, master := b.master, target := b.target, addr := b.addr, write := b.write,
                                 code := code, data := d }] } } := by
  simp [State.fabAnswer, h, hid, hd]

/-- A read through port B answers the bytes of the rod, or poison (R253, R292). -/
theorem State.portBDo_reads {s : State} {b : FRod} {id : Nat} (h : s.fab.bridge = [b]) (hid : b.id = id) (hd : b.drop = false)
    (addr : Nat) (d : List Byte) (len : Nat) (poison : Bool) (code : BitVec 2) :
    let x := readRow s.sm.arr smRows ((addr - 0x40000000) / 32)
    let r := s.portBDo id addr false d len poison code
    r.sm.retry = s.sm.retry ∧ r.sm.arr = s.sm.arr ∧ r.fab.bridge = [] ∧
      r.fab.resps = s.fab.resps ++ [{ id := b.id, master := b.master, target := b.target, addr := b.addr, write := b.write
                                      code := if x.bad then 3 else code
                                      data := if x.bad then List.replicate len 0 else (x.data.drop (addr % 32)).take len }] := by
  intro x r
  let t : State := { s with sm := s.sm.mark true ⟨s.now, (addr - 0x40000000) / 32, false, (spread (addr % 32) d).2⟩ }
  obtain ⟨hsm, hfab⟩ := t.smRead_frame true ((addr - 0x40000000) / 32)
  have hr : r = (t.smRead true ((addr - 0x40000000) / 32)).2.fabAnswer id (if x.bad then 3 else code)
      (if x.bad then List.replicate len 0 else (x.data.drop (addr % 32)).take len) := by
    by_cases hbad : x.bad = true
    · rw [if_pos hbad, if_pos hbad]; exact if_pos hbad
    · rw [if_neg hbad, if_neg hbad]; exact if_neg hbad
  rw [hr, State.fabAnswer_single (by rw [hfab]; exact h) hid hd, hfab]
  exact ⟨(congrArg StewMem.retry hsm :), (congrArg StewMem.arr hsm :), rfl, rfl⟩

section
variable {s : State} {q : SmReq}

theorem smBusyRetry_empty (h : s.sm.retry = []) : smBusyRetry s = s := by
  simp [smBusyRetry, h]

variable (h : s.sm.retry = [q])
include h

/-- An access is not retried in the cycle that refused it (R251). -/
theorem smBusyRetry_tooSoon (hat : s.now ≤ q.at_) : smBusyRetry s = s := by
  simp [smBusyRetry, h, hat]

variable (hat : q.at_ < s.now)
include hat

/-- Port A performs the access that it can take (R251). -/
theorem smBusyRetry_portA (hq : q.portA = true) (hf : s.portAFree ((q.addr - 0x40000000) / 32) q.write = true) : smBusyRetry s =
    (({ s with sm := { s.sm with retry := [] } } : State).portAMeet ((q.addr - 0x40000000) / 32) q.write true).1.portAStep q.who := by
  simp [smBusyRetry, h, hat, hq, hf]

/-- Port B performs the access in a cycle that it has free, with answer OK_BUSY (R251, R292). -/
theorem smBusyRetry_portB (hq : q.portA = false) (hs : s.sm.scrubNow s.now = false) (hb : usedAt s.sm.lastB s.now = false) :
    smBusyRetry s = ({ s with sm := { s.sm with retry := [] } } : State).portBDo q.who q.addr q.write q.data q.be.length q.poison 1 := by
  simp [smBusyRetry, h, hat, hq, hs, hb]
end

/-! ### Scrub -/

section
variable {s : State} (hard : Bool)

theorem smScrub_waits (h : s.now < s.sm.scrubAt ∨ usedAt s.sm.lastA s.now = true ∨ usedAt s.sm.lastB s.now = true) :
    smScrub s hard = s := by
  simp only [smScrub]
  exact if_pos (by simpa [or_assoc] using h)

/-- Scrub that is due in a cycle that neither port uses scrubs its row and moves on (R252). -/
theorem smScrub_scrubs (h : s.sm.scrubAt ≤ s.now) (ha : usedAt s.sm.lastA s.now = false) (hb : usedAt s.sm.lastB s.now = false) :
    (smScrub s hard).sm.unreported = ({ s.sm with
      arr := (scrubRow s.sm.arr smRows 64 s.sm.row hard true).arr, row := (s.sm.row + 1) % 32832, scrubAt := s.sm.scrubAt + 1024
      scrubbed := s.now + 1 } : StewMem).unreported := by
  have hnot : ¬ s.now < s.sm.scrubAt := by omega
  simp only [smScrub, hnot, ha, hb, decide_false, Bool.or_false, Bool.false_eq_true, if_false, apply_ite State.sm, State.raise_sm, ite_self]
  split <;> simp only [StewMem.note_unreported]
end

end Sys2Proof.Machine
end

section
/-! The statements about memories and their integrity, settled. -/

namespace Sys2Proof.Machine
open Sys2Proof

/-- Settles O38: reports aside a visit is three scrubs and a move of the positions (`scrubVisit_scrubs`), and each access of a port
is the one operation that its pending request names. -/
theorem memoryScrubRemapAndSharing : Obligations.MemoryScrubRemapAndSharing := by
  unfold Obligations.MemoryScrubRemapAndSharing
  refine ⟨fun s p h0 h1 hi hreset => ?scrub, fun s m p v hreset => ?memCmd, fun s p k hop r rod hreset hk => ?sharer,
    fun s q b hard hreset => ?steward⟩
  case scrub =>
    refine ⟨fun h => exec_of_live hreset rfl (scrubVisit_closed h0 h1 hi h), fun h hc => ?visit, fun k row h hc => ?remap⟩
    case visit =>
      have hv := scrubVisit_scrubs h0 h1 hi h hc
      exact ⟨_, exec_of_live hreset rfl rfl, (congrArg LaneMem.row hv :), (congrArg LaneMem.rowIs hv :), (congrArg LaneMem.sweeps hv :),
        (congrArg LaneMem.visited hv :), (congrArg LaneMem.h0 hv :), (congrArg LaneMem.h1 hv :), (congrArg LaneMem.is hv :)⟩
    case remap =>
      have hv := scrubVisit_remaps h0 h1 hi h hc
      obtain ⟨hrow, hrowIs⟩ := LaneMem.setArr_scrubPos ({ s.lmem p with visited := s.pacer.heatNum.toNat + 1 } : LaneMem).unreported k
        (((s.lmem p).arr k).remapRow (arrRows k) 24 row).1
      exact ⟨_, exec_of_live hreset rfl rfl, (congrArg LaneMem.cmd hv :),
        fun _ => (congrArg (fun m : LaneMem => m.arr k) hv :).trans (LaneMem.arr_setArr_same _ _ _),
        (congrArg LaneMem.row hv :).trans hrow, (congrArg LaneMem.rowIs hv :).trans hrowIs⟩
  case memCmd =>
    exact ⟨fun hm hgo hk hrow hp => exec_of_live hreset rfl (memCmd_taken hm hgo hk hrow hp),
      fun hno => exec_of_live hreset rfl (memCmd_refused hno)⟩
  case sharer =>
    refine ⟨fun h => exec_of_live hreset rfl (sharerAccess_busy hop h),
      fun h hp hi => exec_of_live hreset rfl (sharerAccess_empty hop hk h hi hp),
      fun h hp hi ho => exec_of_live hreset rfl (sharerAccess_single hop hk h hi hp ho), ?write⟩
    intro h hp hi hkind hsig hfab hd rfl hh hu
    exact ⟨_, exec_of_live hreset rfl (sharerAccess_single noHopErr hk h hi hp (State.inOrder_of_fab_none _ hfab)),
      State.serve_wholeRod _ hkind hsig hfab hd hh hu⟩
  case steward =>
    refine ⟨fun h => exec_of_live hreset rfl (smBusyRetry_empty h), fun h hat => exec_of_live hreset rfl (smBusyRetry_tooSoon h hat),
      fun h hat hq hf => exec_of_live hreset rfl (smBusyRetry_portA h hat hq hf), ?portB,
      fun h => exec_of_live hreset rfl (smScrub_waits hard h), fun h ha hb => ?scrubbed⟩
    case portB =>
      intro h hat hq hs hlast hw hb hid hd
      have hport := smBusyRetry_portB h hat hq hs hlast
      rw [hw] at hport
      exact ⟨_, exec_of_live hreset rfl hport,
        State.portBDo_reads (s := { s with sm := { s.sm with retry := [] } }) hb hid hd _ _ _ _ _⟩
    case scrubbed =>
      have hscrub := smScrub_scrubs hard h ha hb
      exact ⟨_, exec_of_live hreset rfl rfl, (congrArg StewMem.arr hscrub :), (congrArg StewMem.row hscrub :),
        (congrArg StewMem.scrubAt hscrub :)⟩

end Sys2Proof.Machine
end

section
/-! SUPPORT. What an event and a failure leave of the QDR channels and the stream engines, and the life cycle of a channel
(R266, R270, R273, R281). -/

namespace Sys2Proof.Machine
open Sys2Proof

/-! ### What leaves the channels and the engines alone -/

theorem State.qch_of_unheard {s t : State} (h : t.unheard = s.unheard) (k : Nat) : t.qch k = s.qch k :=
  (congrArg (fun u : State => u.qch k) h :)

theorem State.engine_of_unheard {s t : State} (h : t.unheard = s.unheard) (e : Nat) : t.engine e = s.engine e :=
  (congrArg (fun u : State => u.engine e) h :)

@[simp] theorem State.raise_qch (s : State) (code : Nat) (src : Word) (data : BitVec 64) (tied : Bool) (k : Nat) :
    (s.raise code src data tied).qch k = s.qch k :=
  State.qch_of_unheard (s.raise_unheard code src data tied) k

@[simp] theorem State.raise_engine (s : State) (code : Nat) (src : Word) (data : BitVec 64) (tied : Bool) (e : Nat) :
    (s.raise code src data tied).engine e = s.engine e :=
  State.engine_of_unheard (s.raise_unheard code src data tied) e

@[simp] theorem State.tally_qch (s : State) (n k : Nat) : (s.tally n).qch k = s.qch k := rfl
@[simp] theorem State.tally_engine (s : State) (n e : Nat) : (s.tally n).engine e = s.engine e := rfl
@[simp] theorem State.tally_mems (s : State) (n : Nat) : (s.tally n).mems = s.mems := rfl

/-! ### Failure -/

/-- The channel once it has been declared failed (R273). -/
def Qdr.failed (q : Qdr) : Qdr := { q.event 4 with state := 3, replay := [], dueRetrain := false, dueZq := false }

/-- A failure is recorded on its channel; a channel that has failed is left as it is. -/
theorem State.qFail_qch (s : State) (k : Nat) :
    (s.qFail k).qch k = if (s.qch k).state = 3 then s.qch k else (s.qch k).failed := by
  simp only [State.qFail]
  split
  · rfl
  · simp only [State.tally_qch, State.raise_qch, State.qch_setQch_same, Qdr.failed]

@[simp] theorem State.qFail_engine (s : State) (k e : Nat) : (s.qFail k).engine e = s.engine e := by
  simp only [State.qFail]
  split
  · rfl
  · simp only [State.tally_engine, State.raise_engine, State.engine_setQch]

@[simp] theorem State.qFail_mems (s : State) (k : Nat) : (s.qFail k).mems = s.mems := by
  simp only [State.qFail]
  split
  · rfl
  · simp only [State.tally_mems, State.raise_mems, State.setQch_mems]

/-! ### Initialisation -/

/-- A training step sets delays and what QDR_TRAIN shows, and nothing else (R266, R268). -/
theorem Qdr.initTrain_frame (q : Qdr) (r : QdrStep) :
    ∃ rd wr tr, q.initTrain r = { q with rdDly := rd, wrDly := wr, train := tr } := by
  simp only [Qdr.initTrain, Qdr.trained]
  split <;> exact ⟨_, _, _, rfl⟩

section
variable {s : State} {m : BitVec 11} {k : Nat}

theorem qdrInit_refused (h : isStwMaster m = false ∨ s.chanUsed k = true) :
    qdrInit s m k = s.setQch k ((s.qch k).event 6) :=
  if_pos (by simpa using h)

/-- The channel begins at step 1 where a device is present (R266). -/
def Qdr.initialising (q : Qdr) : Qdr :=
  { q with
    freqF := q.freq, densF := q.dens, state := if q.present then 1 else 0
    initStep := if q.present then 1 else 0, replay := [], dueRetrain := false, dueZq := false, recent := [] }

theorem qdrInit_begins (hm : isStwMaster m = true) (hu : s.chanUsed k = false) :
    qdrInit s m k = s.setQch k (s.qch k).initialising :=
  if_neg (by simp [hm, hu])

variable {n : Nat} {eyes : List EyeMeas}

/-- A step that the sequence does not await changes nothing. -/
theorem qdrReady_unawaited {r : QdrStep} (h : (s.qch k).state ≠ 1 ∨ r.step ≤ (s.qch k).initStep) : qdrReady s k r = s :=
  if_pos (h.imp_right .inl)

section
variable (hst : (s.qch k).state = 1) (hstep : (s.qch k).initStep < n)
include hst hstep

theorem qdrReady_awaited (hn : n ≤ 11) : ¬ ((s.qch k).state ≠ 1 ∨ n ≤ (s.qch k).initStep ∨ 11 < n) := by
  rintro (h | h | h)
  · exact h hst
  · omega
  · omega

theorem qdrReady_passes (hn : n < 11) :
    qdrReady s k ⟨n, true, eyes⟩ = s.setQch k { (s.qch k).initTrain ⟨n, true, eyes⟩ with initStep := n } := by
  simp only [qdrReady]
  rw [if_neg (qdrReady_awaited hst hstep (by omega)), if_neg (by decide), if_pos hn]

theorem qdrReady_fails (hn : n < 12) (hf : initCanFail n = true) :
    qdrReady s k ⟨n, false, eyes⟩ =
      (s.setQch k { (s.qch k).event 4 with state := 3, initStep := n }).raise 0x0502 (srcW 4 k) 0 := by
  simp only [qdrReady]
  rw [if_neg (qdrReady_awaited hst hstep (by omega)), if_pos (by decide), if_pos hf]
end

/-- Step 11 ends the sequence with the channel READY, its rods zero and no remap in force (R266, R270). -/
theorem qdrReady_ends (hst : (s.qch k).state = 1) (hstep : (s.qch k).initStep < 11) :
    ((qdrReady s k ⟨11, true, eyes⟩).qch k).initStep = 11 ∧ ((qdrReady s k ⟨11, true, eyes⟩).qch k).state = 2 ∧
    ((qdrReady s k ⟨11, true, eyes⟩).qch k).cells = [] ∧ ((qdrReady s k ⟨11, true, eyes⟩).qch k).remap = [] := by
  simp only [qdrReady]
  rw [if_neg (qdrReady_awaited hst hstep le_rfl), if_neg (by decide), if_neg (by decide)]
  simp

theorem qdrCtrlFail_fails (hm : isStwMaster m = true) : qdrCtrlFail s m k = s.qFail k :=
  if_neg (by simp [hm])
end

end Sys2Proof.Machine
end

section
/-! SUPPORT. Maintenance of a QDR channel in the cool-down, and an address-parity report (R265, R267–R272). -/

namespace Sys2Proof.Machine
open Sys2Proof

/-! ### Maintenance -/

section
variable {s : State} {k : Nat} {eyes : List EyeMeas} {drift : Bool} {hard : List Nat}

/-- A step begins in the cool-down of a READY channel, in the cycle that follows the steps before it (R267). -/
theorem State.maintains_iff :
    s.maintains k = true ↔ s.cooling = true ∧ s.coolCyc = 64 + (s.qch k).used ∧ (s.qch k).state = 2 := by
  simp [State.maintains, and_assoc]

/-- In any other cycle no step begins. -/
theorem qdr_unmaintained (h : ¬ s.maintains k = true) :
    qdrWriteReplay s k = s ∧ qdrRetrain s k eyes drift = s ∧ qdrZqCalibration s k = s ∧ qdrScrub s k hard = s := by
  simp [qdrWriteReplay, qdrRetrain, qdrZqCalibration, qdrScrub, h]

/-- A retraining moves delays and what QDR_TRAIN shows, and nothing else (R268). -/
theorem Qdr.retrainStep_frame (q : Qdr) (eyes : List EyeMeas) :
    ∃ rd wr tr, q.retrainStep eyes = { q with rdDly := rd, wrDly := wr, train := tr } :=
  ⟨_, _, _, rfl⟩

/-- The channel with the writes kept for it performed again, oldest first (R272). -/
def Qdr.replayed (q : Qdr) : Qdr :=
  { q with
    cells := q.replay.foldl (fun c a => match a.new with | some d => mwrite c (36 * a.idx) d | none => c) q.cells, replay := [] }

/-- The first step of a cool-down (R267). -/
theorem Qdr.busy_first {q : Qdr} (h : q.used = 0) (now n : Nat) : q.busy now n = { q with used := n, busyTo := now + n } := by
  simp [Qdr.busy, h]

section
variable (ht : s.maintains k = true)
include ht

/-- A replay comes first, and takes 48 cycles (R267; log 29). -/
theorem qdrWriteReplay_replays (hr : (s.qch k).replay ≠ []) (hu : (s.qch k).used = 0) :
    qdrWriteReplay s k = s.setQch k { (s.qch k).replayed with used := 48, busyTo := s.now + 48 } := by
  have hbegins : ¬ (!s.maintains k || (s.qch k).replay.isEmpty || decide ((s.qch k).used ≠ 0)) = true := by simp [ht, hr, hu]
  have hunused : (s.qch k).replayed.used = 0 := hu
  exact (if_neg hbegins).trans (congrArg (s.setQch k) (Qdr.busy_first hunused s.now 48))

variable (hr : (s.qch k).replay = [])
include hr

theorem qdrRetrain_retrains (hd : (s.qch k).dueRetrain = true) (hf : (s.qch k).fits s.D 320 = true) (hdrift : drift = true)
    (heyes : eyes.all (fun e => decide (8 ≤ e.eye)) = true) :
    qdrRetrain s k eyes drift = s.setQch k { ((s.qch k).retrainStep (eyes.take 144)).busy s.now 320 with
      dueRetrain := false, retrainCnt := sat1 (s.qch k).retrainCnt, failRun := 0 } := by
  simp only [qdrRetrain]
  rw [if_neg (by simp [ht, hr, hd, hf]), if_pos (by rw [hdrift, heyes]; rfl), heyes, hdrift]
  rfl

variable (hnt : ((s.qch k).dueRetrain && (s.qch k).fits s.D 320) = false)
include hnt

theorem qdrZqCalibration_calibrates (hd : (s.qch k).dueZq = true) (hf : (s.qch k).fits s.D 64 = true) :
    qdrZqCalibration s k = s.setQch k
      { s.qch k with dueZq := false, used := (s.qch k).used + 64, busyTo := s.now + 64 } := by
  simp only [qdrZqCalibration]
  rw [if_neg (by simp only [ht, hr, hd, hf, hnt]; decide)]
  rfl
end
end

/-! ### Scrub -/

/-- Where scrub of a channel stands and, by the density, how far it goes. -/
def Qdr.place (q : Qdr) : Nat × Bool := (q.scrubPos, q.densF)

theorem State.qFail_place (s : State) (k : Nat) : ((s.qFail k).qch k).place = (s.qch k).place := by
  rw [State.qFail_qch]
  split <;> rfl

theorem State.qNote_place (s : State) (k src i : Nat) (portB : Bool) (ok : RodOk) :
    ((s.qNote k src i portB ok).qch k).place = (s.qch k).place := by
  cases ok with
  | clean => rfl
  | corrected =>
    simp only [State.qNote, State.qch_setQch_same]
    split <;> rfl
  | uncor marked =>
    simp only [State.qNote]
    split <;> simp only [State.qFail_place, State.raise_qch, State.qch_setQch_same] <;> rfl

theorem State.qWrite_place (s : State) (k clk r : Nat) (portB : Bool) (d : List Byte) (poison : Bool) (readAt : Option Nat) :
    ((s.qWrite k clk r portB d poison readAt).qch k).place = (s.qch k).place := by
  simp only [State.qWrite]
  split
  · rfl
  · rw [State.qch_setQch_same]
    rfl

theorem Qdr.remapRod_place (q : Qdr) (r : Nat) (d : List Byte) : (q.remapRod r d).place = q.place := by
  simp only [Qdr.remapRod]
  split <;> rfl

theorem scrubRod_place (s : State) (k clk r : Nat) (hard : Bool) : ((scrubRod s k clk r hard).qch k).place = (s.qch k).place := by
  simp only [scrubRod]
  split
  · split
    · split
      · rw [State.qch_setQch_same, Qdr.remapRod_place, State.qNote_place, State.qNote_place]
      · rw [State.qNote_place, State.qNote_place]
    · rw [State.qWrite_place, State.qNote_place]
  · exact State.qNote_place _ _ _ _ _ _

/-- Scrubbing rods in turn leaves the position to the end of the step. -/
theorem foldl_scrubRod_place (k c : Nat) (hard : List Nat) (rods : List (Nat × Nat)) (s : State) :
    ((rods.foldl (fun s r =>
      if (s.qch k).state = 2 then scrubRod s k (c + r.2) r.1 (hard.contains r.1) else s) s).qch k).place = (s.qch k).place := by
  induction rods generalizing s with
  | nil => rfl
  | cons r rods ih =>
    rw [List.foldl_cons, ih]
    split
    · exact scrubRod_place _ _ _ _ _
    · rfl

/-- Scrub reads its rods, which leaves its place, and then moves on by their number (R269). -/
theorem qdrScrub_scrubs {s : State} {k : Nat} {hard : List Nat} (ht : s.maintains k = true) (he : (s.qch k).scrubEn = true)
    (hs : (s.qch k).scrubbed = false) (hr : (s.qch k).replay = [])
    (hnt : ((s.qch k).dueRetrain && (s.qch k).fits s.D 320) = false) (hnz : ((s.qch k).dueZq && (s.qch k).fits s.D 64) = false) :
    ∃ t : State, (t.qch k).place = (s.qch k).place ∧
      ((qdrScrub s k hard).qch k).scrubbed = true ∧
      ((qdrScrub s k hard).qch k).scrubPos = ((t.qch k).scrubPos + (s.qch k).scrubCount s.D) % (t.qch k).limit := by
  simp only [qdrScrub]
  rw [if_neg (by simp only [ht, he, hs, hr, hnt, hnz]; decide), State.qch_setQch_same]
  exact ⟨_, foldl_scrubRod_place k _ hard _ s, rfl, rfl⟩

/-- How far scrub goes is fixed by its place. -/
theorem Qdr.limit_of_place {q r : Qdr} (h : q.place = r.place) : q.limit = r.limit := by
  have hdens : q.densF = r.densF := (congrArg Prod.snd h :)
  rw [Qdr.limit, Qdr.limit, Qdr.spareBase, Qdr.spareBase, hdens]

/-! ### Address-parity reports -/

/-- A report in QDR clock `c` reaches back to clock `t`: one of the 16 before it (R272; log 30). -/
def aparNear (c t : Nat) : Bool := decide (c ≤ t + 16) && decide (t < c)

/-- The access is a write that goes back to a read within reach, and is not performed (R269, R271). -/
def QAcc.undone (a : QAcc) (c : Nat) : Bool := match a.readAt with | some t => aparNear c t | none => false

/-- The accesses that a report reaches, the writes among them that are performed again, oldest first, and the contents with
what those accesses found put back (R272). -/
def Qdr.aparHit (q : Qdr) (c : Nat) : List QAcc := q.recent.filter (fun a => aparNear c a.clock || a.undone c)
def Qdr.aparKept (q : Qdr) (c : Nat) : List QAcc :=
  ((q.aparHit c).filter (fun a => a.new.isSome && aparNear c a.clock && !a.undone c)).reverse
def Qdr.aparCells (q : Qdr) (c : Nat) : Mem :=
  (q.aparHit c).foldl (fun m a => match a.old with | some d => mwrite m (36 * a.idx) d | none => m) q.cells

/-- The contents once the misdirected writes of a report have left their mark (R265, R272). -/
def aparMisdirect (kept : List QAcc) (cells : Mem) (wrong : List (Nat × Nat)) : Mem :=
  wrong.foldl (fun m e => match kept[e.1]? with
    | some x => if x.idx = e.2 then m else mwrite m (36 * e.2) (misdirected x.idx e.2 (x.new.getD []))
    | none => m) cells

/-- The channel once the report is recorded (R272, R273). -/
def Qdr.reported (q : Qdr) (c : Nat) (wrong : List (Nat × Nat)) : Qdr :=
  { q.event 3 with
    aparCnt := sat1 q.aparCnt, aparHeats := if q.aparIn then q.aparHeats else q.aparHeats + 1, aparIn := true
    cells := aparMisdirect (q.aparKept c) (q.aparCells c) wrong, replay := q.replay ++ q.aparKept c
    recent := q.recent.filter (fun a => !aparNear c a.clock && !a.undone c) }

theorem qdrApar_undoney {s : State} {a : AparIn} (h : (s.qch a.chan).state ≠ 2) : qdrApar s a = s := if_pos h

/-- A report that is not the channel's fourth heat with one in succession leaves the channel READY (R272, R273). -/
theorem qdrApar_reports {s : State} {k : Nat} {wrong : List (Nat × Nat)} (h : (s.qch k).state = 2) (hn : (s.qch k).aparHeats < 3) :
    (qdrApar s ⟨k, wrong⟩).qch k = (s.qch k).reported (s.qclock k s.now) wrong := by
  have hheats : ¬ 4 ≤ if (s.qch k).aparIn then (s.qch k).aparHeats else (s.qch k).aparHeats + 1 := by split <;> omega
  simp only [qdrApar]
  rw [if_neg (not_not.mpr h), if_neg hheats, State.raise_qch]
  exact State.qch_setQch_same s k _

theorem Qdr.event_set (q : Qdr) {n : Nat} (h : n < 7) : (q.event n).events.getLsbD n = true := by
  simp [Qdr.event, h]

theorem aparMisdirect_one {kept : List QAcc} {cells : Mem} {n j : Nat} {x : QAcc} (hx : kept[n]? = some x) (hj : x.idx ≠ j) :
    aparMisdirect kept cells [(n, j)] = mwrite cells (36 * j) (misdirected x.idx j (x.new.getD [])) := by
  simp [aparMisdirect, hx, hj]

end Sys2Proof.Machine
end

section
/-! SUPPORT. A stream engine issues the rod that is due, and a rod arrives at its sharing ports (R264, R274–R279). -/

namespace Sys2Proof.Machine
open Sys2Proof

/-! ### What a read of a channel leaves of the device -/

@[simp] theorem State.qNote_engine (s : State) (k src i : Nat) (portB : Bool) (ok : RodOk) (e : Nat) :
    (s.qNote k src i portB ok).engine e = s.engine e := by
  cases ok with
  | clean => rfl
  | corrected => rfl
  | uncor marked =>
    simp only [State.qNote]
    split <;> simp only [State.qFail_engine, State.raise_engine, State.engine_setQch]

@[simp] theorem State.qNote_mems (s : State) (k src i : Nat) (portB : Bool) (ok : RodOk) :
    (s.qNote k src i portB ok).mems = s.mems := by
  cases ok with
  | clean => rfl
  | corrected => rfl
  | uncor marked =>
    simp only [State.qNote]
    split <;> simp only [State.qFail_mems, State.raise_mems, State.setQch_mems]

/-- Only an uncorrectable read is an event that may interrupt lanes (R271). -/
theorem State.qNote_lanes (s : State) (k src i : Nat) (portB : Bool) {ok : RodOk} (h : ∀ b, ok ≠ .uncor b) :
    (s.qNote k src i portB ok).lanes = s.lanes := by
  cases ok with
  | clean => rfl
  | corrected => rfl
  | uncor marked => exact absurd rfl (h marked)

section
variable (s : State) (k clk r : Nat) (portB : Bool) (src : Nat) (fid : Option Nat)

@[simp] theorem State.qRead_engine (e : Nat) : (s.qRead k clk r portB src fid).2.engine e = s.engine e := by
  simp only [State.qRead]
  split
  · rfl
  · simp only [State.qNote_engine, State.engine_setQch]

@[simp] theorem State.qRead_mems : (s.qRead k clk r portB src fid).2.mems = s.mems := by
  simp only [State.qRead]
  split
  · rfl
  · simp only [State.qNote_mems, State.setQch_mems]

theorem State.qRead_lanes (h : ∀ b, ((s.qch k).decode ((s.qch k).phys r)).2 ≠ .uncor b) :
    (s.qRead k clk r portB src fid).2.lanes = s.lanes := by
  simp only [State.qRead]
  split
  · rfl
  · exact State.qNote_lanes _ _ _ _ _ h
end

/-! ### Issue -/

/-- What the engine turns to after a rod (R274). -/
theorem Engine.next_turns (g : Engine) (d : BitVec 128) :
    ((g.next d).desc, (g.next d).n) = if g.n + 1 < descCount d then (g.desc, g.n + 1) else (g.desc + 1, 0) := by
  simp only [Engine.next]
  split <;> rfl

@[simp] theorem Engine.next_flying (g : Engine) (d : BitVec 128) : (g.next d).flying = g.flying := by
  simp only [Engine.next]
  split <;> rfl

/-- The rod is one of descriptor `d`, number `n`, read in clock `c`: for the seat or list and the home rod that `d` names
(R275, R277). -/
def SRod.IsOf (r : SRod) (d : BitVec 128) (n c : Nat) : Prop :=
  r.clock = c ∧ r.home = descHomeAt d n ∧ r.mc = descMc d ∧ r.seat = if descMc d then descList d else descSeat d

section
variable {s : State} {e : Nat}

theorem State.issueRead_waits {d : BitVec 128} {f : Nat} (h : s.issueHeld e d (s.issueClock e d) = true) : s.issueRead e d f = s :=
  if_pos h

/-- A rod that its port takes is read and put on its way, and the engine turns to what follows (R274, R277). -/
theorem State.issueRead_issues {d : BitVec 128} (f : Nat) (h : s.issueHeld e d (s.issueClock e d) = false) :
    ∃ (t : State) (r : SRod), s.issueRead e d f = t.setEngine e ({ s.engine e with flying := (s.engine e).flying ++ [r] }.next d) ∧
      r.IsOf d (s.engine e).n (s.issueClock e d) ∧ t.mems = s.mems ∧
      ((∀ b, ((s.qch (e / 2)).decode ((s.qch (e / 2)).phys (descRodAt d (s.engine e).n))).2 ≠ .uncor b) → t.lanes = s.lanes) := by
  simp only [State.issueRead]
  rw [if_neg (Bool.not_eq_true _ ▸ h)]
  by_cases hlimit : (s.qch (e / 2)).limit ≤ descRodAt d (s.engine e).n
  · rw [if_pos hlimit]
    exact ⟨s, _, rfl, ⟨rfl, rfl, rfl, rfl⟩, rfl, fun _ => rfl⟩
  · rw [if_neg hlimit, State.qRead_engine]
    exact ⟨_, _, rfl, ⟨rfl, rfl, rfl, rfl⟩, s.qRead_mems _ _ _ _ _ _, s.qRead_lanes _ _ _ _ _ _⟩

/-- An engine that no contract owns, outside the contract part of a heat, or whose program has ended does nothing. -/
theorem streamRodIssue_idle (h : (s.engine e).owner = 0xFFFF ∨ s.working = false ∨ (s.engine e).ended = true) :
    streamRodIssue s e = s := if_pos h

section
variable {d : BitVec 128} (hd : (s.engine e).desc_ (s.engine e).desc = d)
  (hrun : ¬ ((s.engine e).owner = 0xFFFF ∨ s.working = false ∨ (s.engine e).ended = true))
include hd hrun

theorem streamRodIssue_ends (hv : descV d = false) : streamRodIssue s e = s.setEngine e { s.engine e with ended := true } := by
  subst hd
  simp only [streamRodIssue]
  rw [if_neg hrun, if_pos (by rw [hv]; rfl)]

variable (hv : descV d = true)
include hv

theorem streamRodIssue_badDesc (hb : descBad d = true) :
    streamRodIssue s e = s.setEngine e { s.engine e with ended := true, baddesc := true } := by
  subst hd
  simp only [streamRodIssue]
  rw [if_neg hrun, if_neg (by rw [hv]; decide), if_pos hb]

/-- The rod of a read descriptor is issued once it is due (R276). -/
theorem streamRodIssue_read (hb : descBad d = false) (hr : descDir d = false) :
    streamRodIssue s e = if s.now < (s.engine e).issueAt (s.qch (e / 2)).f s.pacer.gunAt d none then s
      else s.issueRead e d (s.qch (e / 2)).f := by
  subst hd
  simp only [streamRodIssue]
  rw [if_neg hrun, if_neg (by rw [hv]; decide), if_neg (by rw [hb]; decide), if_neg (by rw [hr]; decide)]
end

/-! ### Arrival -/

theorem streamRodArrive_none (h : (s.engine e).flying = []) : streamRodArrive s e = s := by
  simp only [streamRodArrive, h]

section
variable {r : SRod} {rest : List SRod} (h : (s.engine e).flying = r :: rest)
include h

theorem streamRodArrive_early (hdue : s.now < r.due) : streamRodArrive s e = s := by
  simp only [streamRodArrive, h]
  exact if_pos hdue

theorem streamRodArrive_delivers (hdue : r.due ≤ s.now) :
    streamRodArrive s e = (s.setEngine e { s.engine e with flying := rest }).toSeats (s.destSeats r.mc r.seat) r.home 4
      (fun n => s.streamDeadline e n (r.due - s.pacer.gunAt)) r.rod r.poison := by
  simp only [streamRodArrive, h]
  exact if_neg (Nat.not_lt.mpr hdue)
end
end

theorem LaneMem.sp_setSp_same (m : LaneMem) (k : Nat) (q : ShPort) : (m.setSp k q).sp k = q := by
  simp only [LaneMem.setSp, LaneMem.sp]
  split_ifs <;> rfl

theorem State.shAdd_pend (s : State) (p k : Nat) (r : ShReq) :
    (((s.shAdd p k r).lmem p).sp k).pend = ((s.lmem p).sp k).pend ++ [r] := by
  simp only [State.shAdd, State.lmem_setLmem_same, LaneMem.sp_setSp_same]

/-- A rod for one seat joins the port of its bank at the lane there (R277). -/
theorem State.toSeats_single (s : State) {n p : Nat} (home cls : Nat) (dl : Nat → Option Nat) (rod : Rod) (poison : Bool)
    (h : s.seatLane n = some p) :
    s.toSeats [n] home cls dl rod poison = s.shAdd p (home % 2)
      { cls := cls, rod := home, deadline := dl n, fab := none, kind := .write rod fullMask none poison } := by
  simp only [State.toSeats, List.foldl_cons, List.foldl_nil, h]

end Sys2Proof.Machine
end

section
/-! The statements about QDR channels and stream engines, settled. -/

namespace Sys2Proof.Machine
open Sys2Proof

/-- Settles O41: each command is one of the cases of `qdrInit`, `qdrReady` and `qdrCtrlFail` above. -/
theorem qdrChannelLifeCycle : Obligations.QdrChannelLifeCycle := by
  unfold Obligations.QdrChannelLifeCycle
  intro s m k n eyes hreset
  refine ⟨fun h => exec_of_live hreset rfl (qdrInit_refused h), fun hm hu => ?begins, fun hst hstep hn => ?passes,
    fun hst hstep => ⟨_, exec_of_live hreset rfl rfl, qdrReady_ends hst hstep⟩, fun hst hstep hn hf => ?fails,
    fun h ok => exec_of_live hreset rfl (qdrReady_unawaited h), fun hm hst => ?declared⟩
  case begins =>
    refine ⟨_, exec_of_live hreset rfl (qdrInit_begins hm hu), ?_⟩
    rw [State.qch_setQch_same]
    exact ⟨rfl, rfl, rfl, rfl, fun j hj => State.qch_setQch_other s _ hj⟩
  case passes =>
    refine ⟨_, exec_of_live hreset rfl (qdrReady_passes hst hstep hn), ?_⟩
    obtain ⟨rd, wr, tr, htrain⟩ := (s.qch k).initTrain_frame ⟨n, true, eyes⟩
    rw [State.qch_setQch_same, htrain]
    exact ⟨rfl, hst, rfl, rfl⟩
  case fails =>
    refine ⟨_, exec_of_live hreset rfl (qdrReady_fails hst hstep hn hf), ?_⟩
    rw [State.raise_qch, State.qch_setQch_same]
    exact ⟨rfl, rfl⟩
  case declared =>
    refine ⟨_, exec_of_live hreset rfl (qdrCtrlFail_fails hm), ?_⟩
    rw [State.qFail_qch, if_neg hst]
    exact ⟨rfl, rfl, rfl, rfl, rfl⟩

/-- Settles O42: the four steps of the cool-down one by one, and what a report leaves on its channel (`Qdr.reported`). -/
theorem qdrMaintenanceAndAddressParity : Obligations.QdrMaintenanceAndAddressParity := by
  unfold Obligations.QdrMaintenanceAndAddressParity
  refine ⟨fun s k eyes drift hard hreset => ?maintenance, fun s k n j x hreset => ?parity⟩
  case maintenance =>
    refine ⟨fun hno => ?none, fun ht hr hu => exec_of_live hreset rfl (qdrWriteReplay_replays (State.maintains_iff.mpr ht) hr hu),
      fun ht hd hr hf hdrift heyes => ?retrain,
      fun ht hd hr hnt hf => exec_of_live hreset rfl (qdrZqCalibration_calibrates (State.maintains_iff.mpr ht) hr hnt hd hf),
      fun ht he hs hr hnt hnz => ?scrub⟩
    case none =>
      obtain ⟨hreplay, hretrain, hzq, hscrub⟩ :=
        qdr_unmaintained (eyes := eyes) (drift := drift) (hard := hard) (mt State.maintains_iff.mp hno)
      exact ⟨exec_of_live hreset rfl hreplay, exec_of_live hreset rfl hretrain, exec_of_live hreset rfl hzq,
        exec_of_live hreset rfl hscrub⟩
    case retrain =>
      refine ⟨_, exec_of_live hreset rfl (qdrRetrain_retrains (State.maintains_iff.mpr ht) hr hd hf hdrift heyes), ?_⟩
      obtain ⟨rd, wr, tr, hstep⟩ := (s.qch k).retrainStep_frame (eyes.take 144)
      rw [State.qch_setQch_same, hstep]
      exact ⟨rfl, rfl, rfl, rfl, rfl, rfl, rfl⟩
    case scrub =>
      obtain ⟨t, hplace, hscrubbed, hpos⟩ := qdrScrub_scrubs (hard := hard) (State.maintains_iff.mpr ht) he hs hr hnt hnz
      have hscrubPos : (t.qch k).scrubPos = (s.qch k).scrubPos := (congrArg Prod.fst hplace :)
      rw [hscrubPos, Qdr.limit_of_place hplace] at hpos
      exact ⟨_, exec_of_live hreset rfl rfl, hscrubbed, hpos⟩
  case parity =>
    refine ⟨fun h => exec_of_live hreset rfl (qdrApar_undoney h), fun h hn => ?reported, fun h hn hx hj => ?misdirected⟩
    case reported =>
      refine ⟨_, exec_of_live hreset rfl rfl, ?_⟩
      rw [qdrApar_reports h hn]
      exact ⟨rfl, Qdr.event_set _ (by decide), rfl, rfl, h⟩
    case misdirected =>
      refine ⟨_, exec_of_live hreset rfl rfl, ?_⟩
      rw [qdrApar_reports h hn]
      exact ⟨aparMisdirect_one hx hj, rfl⟩

/-- Settles O43: what an engine does with its descriptor is one of the cases of `streamRodIssue`, of which an issue is
`State.issueRead_issues`; a rod for one seat arrives at one port (`State.toSeats_single`). -/
theorem streamEnginesIssueAndDeliver : Obligations.StreamEnginesIssueAndDeliver := by
  unfold Obligations.StreamEnginesIssueAndDeliver
  intro s e hreset
  refine ⟨fun h => exec_of_live hreset rfl (streamRodIssue_idle h), fun howner hwork hended => ?running,
    fun h => exec_of_live hreset rfl (streamRodArrive_none h), fun r rest h hdue => exec_of_live hreset rfl (streamRodArrive_early h hdue),
    fun r rest h hdue => ⟨exec_of_live hreset rfl (streamRodArrive_delivers h hdue), fun p hmc hp => ?arrives⟩⟩
  case running =>
    have hrun : ¬ ((s.engine e).owner = 0xFFFF ∨ s.working = false ∨ (s.engine e).ended = true) := by
      rintro (h | h | h)
      · exact howner h
      · simp [hwork] at h
      · simp [hended] at h
    refine ⟨fun hv => exec_of_live hreset rfl (streamRodIssue_ends rfl hrun hv),
      fun hv hb => exec_of_live hreset rfl (streamRodIssue_badDesc rfl hrun hv hb), fun hv hb hr h => ?waits,
      fun hv hb hr hdue hport => ?issues⟩
    case waits =>
      refine exec_of_live hreset rfl ((streamRodIssue_read rfl hrun hv hb hr).trans ?_)
      split
      · rfl
      · next hdue => exact State.issueRead_waits (h.resolve_left hdue)
    case issues =>
      obtain ⟨t, r, hissue, ⟨hclock, hhome, hmc, hseat⟩, hmems, hlanes⟩ := State.issueRead_issues (s.qch (e / 2)).f hport
      have hread := (streamRodIssue_read rfl hrun hv hb hr).trans (if_neg (Nat.not_lt.mpr hdue))
      refine ⟨_, r, exec_of_live hreset rfl (hread.trans hissue), ?_, hclock, hhome, hmc, hseat, ?_, hmems, hlanes⟩
      · rw [State.engine_setEngine_same, Engine.next_flying]
      · rw [State.engine_setEngine_same]
        exact Engine.next_turns _ _
  case arrives =>
    have hseats : s.destSeats r.mc r.seat = [r.seat] := if_neg (by rw [hmc]; decide)
    rw [hseats, State.toSeats_single (s.setEngine e _) _ _ _ _ _ hp]
    exact State.shAdd_pend _ _ _ _

end Sys2Proof.Machine
end

section
/-! SUPPORT. A register write on its way through the fabric: the target filter, the answer, its report and the engine's advisory
error (R286, R300, R301, R354). -/

namespace Sys2Proof.Machine
open Sys2Proof

section
variable {s u : State} {m : BitVec 11} {n t k : Nat} {a v : Word} {code : BitVec 2}

/-! ### What a target answers -/

/-- The lowest target stands at 0x1000_0000. -/
theorem targetOf_of_low (h : n < 0x10000) : targetOf n = none := by
  have hnot : ∀ lo hi, 0x10000 ≤ lo → within n lo hi = false := fun lo hi hlo => by
    simp only [within, Bool.and_eq_false_iff, decide_eq_false_iff_not]
    omega
  simp [targetOf, hnot]

theorem State.regWrite_noReg (be : BitVec 4) (h : s.isReg n = false) : s.regWrite m n be v = (2, s) := by
  simp [State.regWrite, h]

/-- DESIGN CHOICE (log 34): a block whose domain is off answers POISON. -/
theorem State.regWrite_off (be : BitVec 4) (h : s.isReg n = true) (hoff : s.regOff n = true) : s.regWrite m n be v = (3, s) := by
  simp [State.regWrite, h, hoff]

/-- With all four bytes enabled nothing of the old word stays. -/
theorem State.regWrite_word (h : s.isReg n = true) (hon : s.regOff n = false) :
    s.regWrite m n 0xF v = (0, s.regPut m n v v) := by
  have hmask : (List.range 4).foldl (fun (x : Word) i => if (0xF : BitVec 4).getLsbD i then x ||| (0xFF <<< (8 * i)) else x) 0 =
      BitVec.allOnes 32 := by decide
  simp only [State.regWrite, h, hon, hmask, BitVec.not_allOnes, BitVec.and_zero, BitVec.zero_or, BitVec.and_allOnes, Bool.not_true,
    Bool.false_eq_true, if_false]

/-- No target, an address that is not a word's, and a master that the filter refuses get ERR alike. -/
theorem State.targetWrite_refused {o : Option Nat} (h : ∀ t, o = some t → n % 4 ≠ 0 ∨ s.admits m t n true = false) :
    s.targetWrite m n v o = s.answer 2 0 := by
  cases o with
  | none => rfl
  | some t => exact if_pos (by rcases h t rfl with h | h <;> simp [h])

/-- Outside the mailbox block, and with the clock of the peripheral bus locked, an admitted word reaches its register. -/
theorem State.targetWrite_admitted (h4 : n % 4 = 0) (hadm : s.admits m t n true = true) (hmbx : t ≠ 17)
    (hclk : ¬ (t = 19 ∧ s.pwr.clk.getLsbD 1 = false)) (hw : s.regWrite m n 0xF v = (code, u)) :
    s.targetWrite m n v (some t) = u.answer code 0 := by
  have hpass : ¬ (n % 4 ≠ 0 || !s.admits m t n true || (decide (t = 19) && !s.pwr.clk.getLsbD 1)) = true := by
    simpa [h4, hadm] using hclk
  rw [State.targetWrite, if_neg hpass, if_neg hmbx, hw]

/-! ### The report of the answer -/

@[simp] theorem State.reported_resp (s : State) (m : BitVec 11) (t n : Nat) : (s.reported m t n).resp = s.resp := rfl

/-- Only ERR and POISON are reported. -/
theorem State.reported_ok (s : State) (m : BitVec 11) (t n : Nat) (d : Word) :
    (s.answer 0 d).reported m t n = s.answer 0 d := rfl

theorem State.advise_of_ne (s : State) (m : BitVec 11) (h : code ≠ 2) : s.advise m code = s := if_neg fun hc => h hc.2

/-! ### REGISTER_WRITE -/

/-- The engine is stopped until a host reset (R376; log 90). -/
theorem registerWrite_fatal (hm : m = 0x420) (hf : s.hif.fatal = true) : registerWrite s m a v = s := if_pos ⟨hm, hf⟩

/-- A write that goes by the fabric's addresses is answered by its target; the fabric reports the answer, the engine ERR. -/
theorem registerWrite_answered (hpath : m = 0x420 → s.hif.fatal = false ∧ 0x10000 ≤ a.toNat)
    (h : s.targetWrite m a.toNat v (targetOf a.toNat) = u.answer code 0) :
    registerWrite s m a v = ((u.answer code 0).reported m ((targetOf a.toNat).getD 31) a.toNat).advise m code := by
  have hrun : ¬ (m = 0x420 ∧ s.hif.fatal = true) := fun ⟨hm, hf⟩ => by simp [hpath hm] at hf
  have hbar : ¬ (m = 0x420 ∧ a.toNat < 0x10000) := fun ⟨hm, hlow⟩ => absurd (hpath hm).2 (by omega)
  simp only [registerWrite, if_neg hrun, State.writeAt, if_neg hbar, h, State.reported_resp, State.answer_resp]

/-! ### FAB_WAIT_MAX_CLEAR -/

theorem fabWaitMaxClear_clears (hm : isStwMaster m = true) (hk : k < 23) : fabWaitMaxClear s m k = ({ s with
    fab := { s.fab with grants := putN s.fab.grants k 0, rounds := tput ent16 s.fab.rounds k 0 } } : State).answer 0 0 := by
  simp [fabWaitMaxClear, hm, hk]

theorem fabWaitMaxClear_refused (hm : isStwMaster m = false) : fabWaitMaxClear s m k = s.answer 0 0 := by
  simp [fabWaitMaxClear, hm]
end

end Sys2Proof.Machine
end

section
/-! The statement about register writes through the fabric's filter, settled. -/

namespace Sys2Proof.Machine
open Sys2Proof

/-- Settles O46: what a target answers is `State.targetWrite_refused` or `State.targetWrite_admitted`, and what becomes of any answer
`registerWrite_answered`. -/
theorem registerWritesPassTheFilter : Obligations.RegisterWritesPassTheFilter := by
  unfold Obligations.RegisterWritesPassTheFilter
  intro s m a v t k hreset err
  refine ⟨fun hm hf => exec_of_live hreset rfl (registerWrite_fatal hm hf), fun hpath => ?fabric, fun hm hk => ?cleared,
    fun hm => exec_of_live hreset rfl (fabWaitMaxClear_refused hm)⟩
  case fabric =>
    have hanswer : ∀ {u : State} {code}, s.targetWrite m a.toNat v (targetOf a.toNat) = u.answer code 0 → exec (.registerWrite m a v) s =
        .next (((u.answer code 0).reported m ((targetOf a.toNat).getD 31) a.toNat).advise m code) :=
      fun h => exec_of_live hreset rfl (registerWrite_answered hpath h)
    have hrefused : (∀ t, targetOf a.toNat = some t → a.toNat % 4 ≠ 0 ∨ s.admits m t a.toNat true = false) →
        exec (.registerWrite m a v) s = .next err := fun h => hanswer (State.targetWrite_refused h)
    have hnone : targetOf a.toNat = none → exec (.registerWrite m a v) s = .next err :=
      fun h => hrefused fun _ ht => by simp [h] at ht
    refine ⟨fun h4 => hrefused fun _ _ => .inl h4, fun hlow => hnone (targetOf_of_low hlow), hnone,
      fun ht hadm => hrefused fun t' ht' => .inr (Option.some.inj (ht.symm.trans ht') ▸ hadm), fun h4 ht hadm hmbx hclk => ?admitted⟩
    have hreg : ∀ {u : State} {code}, s.regWrite m a.toNat 0xF v = (code, u) → s.targetWrite m a.toNat v (targetOf a.toNat) =
        u.answer code 0 := fun h => by rw [ht, State.targetWrite_admitted h4 hadm hmbx hclk h]
    refine ⟨fun hno => hanswer (hreg (State.regWrite_noReg _ hno)), fun his hoff => ?poison, fun his hon => ?written⟩
    case poison =>
      rw [hanswer (hreg (State.regWrite_off _ his hoff)), State.advise_of_ne _ _ (by decide), ht, Option.getD_some]
    case written =>
      rw [hanswer (hreg (State.regWrite_word his hon)), State.advise_of_ne _ _ (by decide), State.reported_ok]
  case cleared =>
    exact ⟨_, exec_of_live hreset rfl (fabWaitMaxClear_clears hm hk), getN_putN_same _ _ _,
      fun j hj => (getN_putN _ _ _ _).trans (if_neg hj), rfl⟩

end Sys2Proof.Machine
end

section
/-! SUPPORT. How a command of the host ends: LOAD_CARD by the first of its checks that fails, and a command whose common checks
pass by what it makes of the state (R359, R360, R362, R428; log 46). -/

namespace Sys2Proof.Machine
open Sys2Proof

@[simp] theorem State.takeEntry_con (s : State) (q : Nat) : (s.takeEntry q).con = s.con := rfl
@[simp] theorem State.takeEntry_sec (s : State) (q : Nat) : (s.takeEntry q).sec = s.sec := rfl
@[simp] theorem State.takeEntry_now (s : State) (q : Nat) : (s.takeEntry q).now = s.now := rfl

@[simp] theorem State.readBuffer_now (s : State) (e : Sqe) : (s.readBuffer e).now = s.now :=
  (congrArg (·.2.2.1) (s.readBuffer_core e) :)

section
variable {s : State} {e : Sqe}

/-- A command that is taken, clean and allowed answers what its body makes of the state with the entry taken. -/
theorem State.runCmd_runs {op : Nat} {u : Uses} (ht : s.canTake e.sq = true) (hc : sqeClean e u = true)
    (ha : allowedIn op s.sec.lcState = true) (body : State → Done) : s.runCmd op u e body =
      (body (s.takeEntry e.sq)).s.finish e.sq op e.cid (body (s.takeEntry e.sq)).status (body (s.takeEntry e.sq)).r0
        (body (s.takeEntry e.sq)).r1 := by
  simp [State.runCmd, ht, hc, ha]

/-! ### LOAD_CARD -/

theorem loadCard_untaken (ht : s.canTake e.sq = false) : loadCard s e = s := by
  simp [loadCard, ht]

section
variable (ht : s.canTake e.sq = true)
include ht

theorem loadCard_unclean (hc : sqeClean e ⟨false, true, 0x18⟩ = false) :
    loadCard s e = (s.takeEntry e.sq).endLoad e.sq e.cid s.now stField 0 := by
  simp [loadCard, ht, hc]

variable (hc : sqeClean e ⟨false, true, 0x18⟩ = true)
include hc

theorem loadCard_forbidden (ha : allowedIn 3 s.sec.lcState = false) :
    loadCard s e = (s.takeEntry e.sq).endLoad e.sq e.cid s.now stNotAllowed 0 := by
  simp [loadCard, ht, hc, ha]

variable (ha : allowedIn 3 s.sec.lcState = true)
include ha

theorem loadCard_busy (hb : s.runs 3 = true) : loadCard s e = (s.takeEntry e.sq).endLoad e.sq e.cid s.now stBusy 0 := by
  simp [loadCard, ht, hc, ha, hb]

/-- The bytes of the buffer, or that it could not be read, wait for admission (R316, R361). -/
theorem loadCard_loads (hb : s.runs 3 = false) : ∃ l, (loadCard s e).load = some l ∧ l.sq = e.sq ∧ l.cid = e.cid ∧
    l.bytes = sqeInput e ∧ l.takenAt = s.now := by
  simp only [loadCard, ht, hc, State.takeEntry_sec, ha, hb, Bool.not_true, Bool.false_eq_true, if_false]
  cases sqeInput e with
  | none => exact ⟨_, rfl, rfl, rfl, rfl, State.readBuffer_now _ _⟩
  | some b => exact ⟨_, rfl, rfl, rfl, rfl, State.readBuffer_now _ _⟩
end
end

end Sys2Proof.Machine
end

section
/-! SUPPORT. CARD_ADMISSION: the lowest handle that no contract holds, and the card refused or admitted (R316, R317, R321). -/

namespace Sys2Proof.Machine
open Sys2Proof

/-! ### Handles -/

/-- So many contracts leave one of so many handles and one more free. -/
theorem exists_unused_handle (con : List Contract) : ∃ h < con.length + 1, ∀ c ∈ con, c.handle ≠ h := by
  by_contra hall
  push Not at hall
  have hsub : List.range (con.length + 1) ⊆ con.map (·.handle) := fun h hh => by
    obtain ⟨c, hc, rfl⟩ := hall h (List.mem_range.mp hh)
    exact List.mem_map_of_mem hc
  have hlen := (List.nodup_range.subperm hsub).length_le
  simp at hlen

/-- The free handle is the lowest that no contract holds (R321). -/
theorem State.freeHandle_lowest (s : State) : (∀ c ∈ s.con, c.handle ≠ s.freeHandle) ∧
    ∀ h < s.freeHandle, ∃ c ∈ s.con, c.handle = h := by
  obtain ⟨k, hk, hun⟩ := exists_unused_handle s.con
  unfold State.freeHandle
  obtain ⟨h, hf⟩ : ∃ h, (List.range (s.con.length + 1)).find? (fun h => !s.con.any (fun c => decide (c.handle = h))) = some h :=
    Option.isSome_iff_exists.mp (List.find?_isSome.mpr ⟨k, List.mem_range.mpr hk, by simpa using hun⟩)
  obtain ⟨hfree, -, hlow⟩ := List.find?_range_eq_some.mp hf
  rw [hf, Option.getD_some]
  exact ⟨by simpa using hfree, by simpa using hlow⟩

/-! ### The end of a card -/

@[simp] theorem State.blankLane_con (s : State) (p : Nat) : (s.blankLane p).con = s.con := rfl
@[simp] theorem State.endLoad_con (s : State) (q : Nat) (cid : BitVec 16) (since status : Nat) (r0 : Word) :
    (s.endLoad q cid since status r0).con = s.con := rfl

/-- A refused card changes no contract (R316). -/
@[simp] theorem State.refuseCard_con (s : State) (l : Loading) (status : Nat) : (s.refuseCard l status).con = s.con :=
  State.foldl_con _ State.blankLane_con _ _

section
variable {s : State} {l : Loading} {b : List Byte}

theorem cardAdmission_none (hl : s.load = none) : cardAdmission s = s := by
  simp only [cardAdmission, hl]

variable (hl : s.load = some l)
include hl

theorem cardAdmission_unread (hb : l.bytes = none) : cardAdmission s = s.refuseCard l stBuffer := by
  simp only [cardAdmission, hl, hb]

variable (hb : l.bytes = some b)
include hb

theorem cardAdmission_refuses {k : Nat} (hj : s.judge b l.discarded = .inl k) : cardAdmission s = s.refuseCard l (stAdm + k) := by
  simp only [cardAdmission, hl, hb, hj]

theorem cardAdmission_admits {c : Card} (hj : s.judge b l.discarded = .inr c) : cardAdmission s =
    (({ s with load := none, con := addContract (s.newContract b c) s.con } : State).tally 11).endLoad l.sq l.cid l.takenAt
      stSuccess (BitVec.ofNat 32 (s.newContract b c).handle) := by
  simp only [cardAdmission, hl, hb, hj]
end

end Sys2Proof.Machine
end

section
/-! SUPPORT. ACTIVATE and WITHDRAW by the state of their contract (R321–R323, R363). -/

namespace Sys2Proof.Machine
open Sys2Proof

/-! ### What becomes of one contract -/

theorem State.contract_of_con {s t : State} (h : t.con = s.con) (n : Nat) : t.contract n = s.contract n := by
  rw [State.contract, h, State.contract]

/-- A contract that is there is replaced by the new one of its handle. -/
theorem State.contract_setContract_same {s : State} {h : Nat} {c d : Contract} (hd : s.contract h = some d) (hh : c.handle = d.handle) :
    (s.setContract c).contract h = some c := by
  rw [State.contract_setContract, if_pos (hh.trans (State.contract_handle hd)), hd, Option.map_some]

/-- The handle of a contract that leaves the list is free. -/
theorem State.contract_dropContract (s : State) (h : Nat) : (s.dropContract h).contract h = none := by
  have hkeep : ∀ c : Contract, (c.unlink s.heatN h).handle = c.handle := fun c => by
    simp only [Contract.unlink]
    split <;> rfl
  simp [State.contract, State.dropContract, hkeep]

theorem State.contract_release (s : State) (c : Contract) : (s.release c).contract c.handle = none :=
  State.contract_dropContract _ _

section
variable {s : State} {h g : Nat} {c : Contract}

theorem State.contract_schedule (hc : s.contract h = some c) : (s.schedule h g).contract h =
    some { c with state := .scheduled, startGun := g, seeded := false, banksAt := 0 } := by
  simp only [State.schedule, hc]
  exact State.contract_setContract_same hc rfl

/-- Only an admitted contract is scheduled (R363). -/
theorem State.admitted_of_activateStatus (hs : s.activateStatus h g = stSuccess) :
    ∃ c, s.contract h = some c ∧ c.state = .admitted := by
  unfold State.activateStatus at hs
  cases hc : s.contract h with
  | none => simp [hc, stNoContract, stSuccess] at hs
  | some c =>
    refine ⟨c, rfl, ?_⟩
    by_contra hne
    simp [hc, hne, stState, stSuccess] at hs
end

/-! ### ACTIVATE -/

section
variable {s : State} {e : Sqe}

/-- Only a rephase heat that is open makes an activation wait (R9, R20; log 20). -/
theorem State.activateWaits_closed (h : s.pacer.rephase = none) : s.activateWaits e = false := by
  simp [State.activateWaits, h]

theorem activate_waits (h : s.activateWaits e = true) : activate s e = s := if_pos h

variable (ht : s.canTake e.sq = true) (hc : sqeClean e ⟨true, false, 0x20⟩ = true) (hw : s.activateWaits e = false)
  (ha : allowedIn 4 s.sec.lcState = true)
include ht hc hw ha

theorem activate_schedules (hs : (s.takeEntry e.sq).activateStatus e.handle.toNat (sqePar e 0x18 8) = stSuccess) :
    activate s e = ((s.takeEntry e.sq).schedule e.handle.toNat (sqePar e 0x18 8)).finish e.sq 4 e.cid stSuccess 0 0 := by
  simp only [activate, hw, Bool.false_eq_true, if_false, State.runCmd_runs ht hc ha, hs, if_true, done]

theorem activate_fails (hs : (s.takeEntry e.sq).activateStatus e.handle.toNat (sqePar e 0x18 8) ≠ stSuccess) :
    activate s e = (s.takeEntry e.sq).finish e.sq 4 e.cid
      ((s.takeEntry e.sq).activateStatus e.handle.toNat (sqePar e 0x18 8)) 0 0 := by
  simp only [activate, hw, Bool.false_eq_true, if_false, State.runCmd_runs ht hc ha, hs, fail]
end

/-! ### WITHDRAW -/

section
variable {s : State} {c : Contract} {w : Nat}

theorem State.withdraw_admitted (hs : c.state = .admitted) : s.withdraw c w = done 0 0 (s.release c) := by
  simp only [State.withdraw, hs]

/-- A scheduled contract goes back to ADMITTED before its banks are written (R321). -/
theorem State.withdraw_scheduled (hs : c.state = .scheduled) (hg : s.heatN + 3 < c.startGun) :
    s.withdraw c w = done 0 0 (s.setContract { c with state := .admitted, startGun := 0, banksAt := 0 }) := by
  simp only [State.withdraw, hs, hg, if_true]

theorem State.withdraw_starting (hs : c.state = .scheduled) (hg : c.startGun ≤ s.heatN + 3) : s.withdraw c w = fail stState s := by
  simp only [State.withdraw, hs, Nat.not_lt.mpr hg, if_false]

theorem State.withdraw_active (hs : c.state = .active) (hp : c.pendW = none) (hw : s.heatN + 2 ≤ w) :
    s.withdraw c w = done (loW w) (hiW w) (s.setContract { c with pendW := some w }) := by
  have h0 : w ≠ 0 := by omega
  simp only [State.withdraw, hs, hp, h0, if_false, Nat.not_lt.mpr hw]
end

section
variable {s : State} {e : Sqe} (ht : s.canTake e.sq = true) (hclean : sqeClean e ⟨true, false, 0x20⟩ = true)
include ht hclean

theorem withdraw_noContract (hc : (s.takeEntry e.sq).contract e.handle.toNat = none) :
    withdraw s e = (s.takeEntry e.sq).finish e.sq 5 e.cid stNoContract 0 0 := by
  have ha : allowedIn 5 s.sec.lcState = true := rfl
  simp only [withdraw, State.runCmd_runs ht hclean ha, hc, fail]

/-- WITHDRAW answers what `State.withdraw` makes of the contract; it is allowed in every lifecycle state (R428). -/
theorem withdraw_answers {c : Contract} (hc : (s.takeEntry e.sq).contract e.handle.toNat = some c) {d : Done}
    (hd : (s.takeEntry e.sq).withdraw c (sqePar e 0x18 8) = d) : withdraw s e = d.s.finish e.sq 5 e.cid d.status d.r0 d.r1 := by
  have ha : allowedIn 5 s.sec.lcState = true := rfl
  simp only [withdraw, State.runCmd_runs ht hclean ha, hc, hd]
end

end Sys2Proof.Machine
end

section
/-! SUPPORT. The seeds of a contract before its start, and the end of the clearing of a seat (R308, R322–R324). -/

namespace Sys2Proof.Machine
open Sys2Proof

/-! ### SEED_WRITE -/

@[simp] theorem State.rodWrite_con (s : State) (p a : Nat) (d : List Byte) (t : BitVec 2) (mark : Bool) :
    (s.rodWrite p a d t mark).con = s.con := rfl

@[simp] theorem State.useRods_con (s : State) (p : Nat) (as : List Nat) : (s.useRods p as).con = s.con := rfl

@[simp] theorem State.seedSeat_con (s : State) (c : Contract) (r : SeatRec) : (s.seedSeat c r).con = s.con := by
  simp only [State.seedSeat]
  split
  · rw [State.useRods_con]
    exact State.foldl_con _ (fun t x => (State.rodWrite_con _ _ _ _ _ _).trans (t.rodRead_con _ _ _)) _ _
  · rfl

section
variable {s : State} {h : Nat} {c : Contract} (hc : s.contract h = some c)
include hc

/-- Of the contracts the seeds change one mark. -/
theorem State.contract_writeSeeds : (s.writeSeeds c).contract h = some { c with seeded := true } := by
  have hcon : (c.card.seats.foldl (fun s r => s.seedSeat c r) s).contract h = some c :=
    (State.contract_of_con (State.foldl_con _ (fun t r => t.seedSeat_con c r) _ _) h).trans hc
  exact State.contract_setContract_same hcon rfl

theorem seedWrite_writes (hs : c.state = .scheduled ∧ s.heatN + 1 = c.startGun ∧ c.seeded = false ∧ s.cooling = true ∧
    s.seedFree c = true) : seedWrite s h = s.writeSeeds c := by
  simp only [seedWrite, hc]
  exact if_pos hs

theorem seedWrite_waits (hs : ¬ (c.state = .scheduled ∧ s.heatN + 1 = c.startGun ∧ c.seeded = false ∧ s.cooling = true ∧
    s.seedFree c = true)) : seedWrite s h = s := by
  simp only [seedWrite, hc]
  exact if_neg hs
end

/-! ### SEAT_CLEAR_DONE -/

section
variable {s : State} {n : Nat}

theorem seatClearDone_idle (h : s.pair.clearing.any (fun x => decide (x.1 = n)) = false) : seatClearDone s n = s := by
  simp [seatClearDone, h]

/-- The clearing ends when no emission reads the lane (R323, R324). -/
theorem seatClearDone_ends (h : s.pair.clearing.any (fun x => decide (x.1 = n)) = true)
    (hread : ∀ p, s.seatLane n = some p → s.stillRead p = false) : seatClearDone s n = s.endClear n := by
  cases hp : s.seatLane n with
  | none => simp [seatClearDone, h, hp]
  | some p => simp [seatClearDone, h, hp, hread p hp]

theorem State.endClear_clearing (s : State) (n : Nat) : ∀ x ∈ (s.endClear n).pair.clearing, x.1 ≠ n := by
  intro x hx
  simpa using (List.mem_filter.mp hx).2

/-- The lane of a cleared seat holds zeros. -/
theorem State.endClear_lmem {p : Nat} (hp : s.seatLane n = some p) : (s.endClear n).lmem p = (s.lmem p).blank := by
  simp only [State.endClear, hp]
  exact s.lmem_setLmem_same p _
end

end Sys2Proof.Machine
end

section
/-! The statements about race cards and contracts, settled. -/

namespace Sys2Proof.Machine
open Sys2Proof

/-- Settles O47: LOAD_CARD and CARD_ADMISSION by their cases above; the handle of a new contract is `State.freeHandle_lowest`. -/
theorem cardsAreLoadedAndAdmitted : Obligations.CardsAreLoadedAndAdmitted := by
  unfold Obligations.CardsAreLoadedAndAdmitted
  refine ⟨fun s e hreset => ?load, fun s l hreset => ?admission⟩
  case load =>
    refine ⟨fun ht => exec_of_live hreset rfl (loadCard_untaken ht), fun ht hc => exec_of_live hreset rfl (loadCard_unclean ht hc),
      fun ht hc => ⟨fun ha => exec_of_live hreset rfl (loadCard_forbidden ht hc ha),
        fun ha hb => exec_of_live hreset rfl (loadCard_busy ht hc ha hb), fun ha hb => ?_⟩⟩
    obtain ⟨l, hl⟩ := loadCard_loads ht hc ha hb
    exact ⟨_, l, exec_of_live hreset rfl rfl, hl⟩
  case admission =>
    refine ⟨fun hl => exec_of_live hreset rfl (cardAdmission_none hl), fun hl hb => exec_of_live hreset rfl (cardAdmission_unread hl hb),
      fun b k hl hb hj => ⟨exec_of_live hreset rfl (cardAdmission_refuses hl hb hj), State.refuseCard_con _ _ _⟩,
      fun b c hl hb hj => ?_⟩
    obtain ⟨hfree, hlow⟩ := s.freeHandle_lowest
    exact ⟨_, exec_of_live hreset rfl (cardAdmission_admits hl hb hj), rfl, rfl, rfl, hfree, hlow, _, rfl, rfl, rfl, rfl, rfl⟩

/-- Settles O48: ACTIVATE and WITHDRAW answer by the state of their contract; the seeds of a contract change no other contract
(`State.contract_writeSeeds`), and the end of a clearing blanks the arrays of the seat's lane (`State.endClear_lmem`). -/
theorem contractsAreScheduledAndWithdrawn : Obligations.ContractsAreScheduledAndWithdrawn := by
  unfold Obligations.ContractsAreScheduledAndWithdrawn
  refine ⟨fun s e hreset ht hclean => ?commands, fun s h n c hreset => ?seats⟩
  case commands =>
    intro u h g
    refine ⟨fun hw => exec_of_live hreset rfl (activate_waits hw), State.activateWaits_closed, fun hw ha hs => ?schedules,
      fun hw ha hs => exec_of_live hreset rfl (activate_fails ht hclean hw ha hs),
      fun hc => exec_of_live hreset rfl (withdraw_noContract ht hclean hc), fun c hc => ?withdraws⟩
    case schedules =>
      obtain ⟨c, hc, hadm⟩ := State.admitted_of_activateStatus hs
      exact ⟨c, hc, hadm, exec_of_live hreset rfl (activate_schedules ht hclean hw ha hs), State.contract_schedule hc⟩
    case withdraws =>
      have hexec : ∀ {d : Done}, u.withdraw c g = d → exec (.withdraw e) s = .next (d.s.finish e.sq 5 e.cid d.status d.r0 d.r1) :=
        fun hd => exec_of_live hreset rfl (withdraw_answers ht hclean hc hd)
      refine ⟨fun hs => ⟨hexec (State.withdraw_admitted hs), ?_⟩, fun hs hg => hexec (State.withdraw_scheduled hs hg),
        fun hs hg => hexec (State.withdraw_starting hs hg), fun hs hp hw => hexec (State.withdraw_active hs hp hw)⟩
      rw [← State.contract_handle hc]
      exact u.contract_release c
  case seats =>
    refine ⟨fun hc hst hgun hsd hcool hfree => ⟨exec_of_live hreset rfl (seedWrite_writes hc ⟨hst, hgun, hsd, hcool, hfree⟩),
        State.contract_writeSeeds hc⟩, fun hc hs => exec_of_live hreset rfl (seedWrite_waits hc ?_), fun hcl hread => ?ends,
      fun hcl => exec_of_live hreset rfl (seatClearDone_idle hcl)⟩
    · rintro ⟨hst, hgun, hsd, hcool, hfree⟩
      simp [hst, hgun, hsd, hcool, hfree] at hs
    case ends =>
      refine ⟨_, exec_of_live hreset rfl (seatClearDone_ends hcl hread), s.endClear_clearing n, fun p hp => ?_⟩
      rw [State.endClear_lmem hp]
      exact ⟨rfl, rfl, rfl⟩

end Sys2Proof.Machine
end

section
/-! SUPPORT. Device reset: the commands that act in it, what a step makes of the fuses, and the state of a device that stands still
(R416, R461, R463, R465, R466). -/

namespace Sys2Proof.Machine
open Sys2Proof

/-! ### Device reset -/

/-- A command that does not act in device reset runs through `State.live` (R461). -/
theorem exec_live {c : Instr} (h : runsInReset c = false) (s : State) : ∃ t, exec c s = .next (s.live t) := by
  cases c with
  | resetRelease => cases h
  | deviceReset => cases h
  | mainPowerFail => cases h
  | vbatApplication => cases h
  | secTamper => cases h
  | _ => exact ⟨_, rfl⟩

theorem exec_in_reset {c : Instr} (h : runsInReset c = false) {s : State} (hr : s.pwr.inReset = true) : exec c s = .next s := by
  obtain ⟨t, ht⟩ := exec_live h s
  rw [ht, State.live_true s t hr]

/-! ### What a step makes of the fuses and the lifecycle record -/

theorem step_vault_grows {s t : State} (h : step s = .next t) : s.sec.vault.grows t.sec.vault := by
  unfold step at h
  split at h
  · cases h
    exact (tick_fuses s).2
  · rename_i c r _
    obtain ⟨u, hu, hf, -⟩ := exec_fuses c { s with pending := r }
    cases hu.symm.trans h
    exact hf.2

theorem getLsbD_of_and_eq {w : Nat} {a b : BitVec w} (h : a &&& b = a) {k : Nat} (hk : a.getLsbD k = true) : b.getLsbD k = true := by
  rw [← h, BitVec.getLsbD_and, Bool.and_eq_true] at hk
  exact hk.2

/-! ### The device stands still in device reset -/

theorem deviceReset_still (s : State) (c : ResetCause) : (deviceReset s c).stillInReset := fun _ => ⟨rfl, rfl, rfl, rfl, rfl, rfl, rfl, rfl⟩

theorem mainPowerFail_still (s : State) : (mainPowerFail s).stillInReset := by
  intro _
  unfold mainPowerFail
  dsimp only
  split <;> exact ⟨rfl, rfl, rfl, rfl, rfl, rfl, rfl, rfl⟩

/-- Out of device reset nothing is claimed. -/
theorem stillInReset_of_live {s : State} (h : s.pwr.inReset = false) : s.stillInReset := fun hr => absurd hr (by simp [h])

theorem inReset_of_core {s t : State} (h : t.core = s.core) : t.pwr.inReset = s.pwr.inReset := congrArg (fun x => x.2.2.2.1) h

/-- No cause of device reset but those that reset the device (R465). -/
theorem pacerCircDisagree_inReset (s : State) (c0 c1 : CircView) : (pacerCircDisagree s c0 c1).pwr.inReset = s.pwr.inReset := by
  have h : ∀ (u : State) (k : Nat), (u.pRaise k).pwr.inReset = u.pwr.inReset := fun u k => inReset_of_core (State.pRaise_core u k)
  simp only [pacerCircDisagree]
  (repeat' split) <;> simp only [h]

theorem gun_inReset (s : State) : (gun s).pwr.inReset = s.pwr.inReset := by
  cases hd : s.pacer.gunDue s.now
  · rw [gun_idle s hd]
  · exact congrArg (fun x => x.2.2.1) (gun_core s hd).1

/-- Watchdog `st` has expired: it is counted and restarted, with its event (R467). -/
def State.wdtCounted (s : State) (st : Nat) : State :=
  (({ s with pwr := { s.pwr with wdtExp := sat1 s.pwr.wdtExp, kick := putN s.pwr.kick st s.now } }).pwrEvent 3).raise 0x0B05 0
    (BitVec.ofNat 64 st) false

@[simp] theorem State.wdtCounted_core (s : State) (st : Nat) : (s.wdtCounted st).core = s.core := by simp [State.wdtCounted]

theorem wdtExpired_early {s : State} {st : Nat}
    (h : 4 ≤ st ∨ s.pwr.wdtEn = false ∨ s.now < getN s.pwr.kick st + 1250 * s.pwr.wdtPer) : wdtExpired s st = s := if_pos h

theorem wdtExpired_late {s : State} {st : Nat}
    (h : ¬ (4 ≤ st ∨ s.pwr.wdtEn = false ∨ s.now < getN s.pwr.kick st + 1250 * s.pwr.wdtPer)) :
    wdtExpired s st = if (s.wdtCounted st).svcPair.contains (1088 + st) then
        if (s.wdtCounted st).pair.stbyOk then { s.wdtCounted st with pair := { (s.wdtCounted st).pair with takeover := true } }
        else deviceReset (s.wdtCounted st) .wdt
      else
        let u := (s.wdtCounted st).resetPair (s.wdtCounted st).stbyPair
        { u with pair := { u.pair with stbyOk := false, selfTest := true } } := if_neg h

theorem wdtExpired_still {s : State} (hr : s.pwr.inReset = false) (st : Nat) : (wdtExpired s st).stillInReset := by
  have hu : ∀ {u : State}, u.core = s.core → u.stillInReset := fun h => stillInReset_of_live ((inReset_of_core h).trans hr)
  by_cases h : 4 ≤ st ∨ s.pwr.wdtEn = false ∨ s.now < getN s.pwr.kick st + 1250 * s.pwr.wdtPer
  · rw [wdtExpired_early h]
    exact hu rfl
  · rw [wdtExpired_late h]
    split
    · split
      · exact hu (by simp)
      · exact deviceReset_still _ _
    · exact hu (by simp)

/-- The commands that move the clock of a device out of device reset, one by one: each leaves it out of device reset or puts it into
the state of `deviceReset`. -/
theorem exec_movesClock_still {c : Instr} {s t : State} (hc : movesClock c = true) (hr : s.pwr.inReset = false)
    (h : exec c s = .next t) : t.stillInReset := by
  have hl : ∀ {u : State}, exec c s = .next (s.live u) → t = u := fun he => by
    rw [he, State.live_false _ _ hr] at h
    cases h; rfl
  cases c with
  | gun => rw [hl rfl]; exact stillInReset_of_live ((gun_inReset s).trans hr)
  | pacerCircDisagree c0 c1 => rw [hl rfl]; exact stillInReset_of_live ((pacerCircDisagree_inReset s c0 c1).trans hr)
  | deviceReset r => cases h; exact deviceReset_still s r
  | resetRelease => cases h; rw [resetRelease, if_pos (by simp [hr])]; exact stillInReset_of_live hr
  | mainPowerFail => cases h; exact mainPowerFail_still s
  | corePllLockLoss => rw [hl rfl]; exact deviceReset_still s _
  | wdtExpired st => rw [hl rfl]; exact wdtExpired_still hr st
  | thermalTrip i =>
    rw [hl rfl, thermalTrip]
    split
    · exact deviceReset_still s _
    · exact stillInReset_of_live hr
  | _ => cases hc

/-- Tamper source `src` is latched and counted, and the secure bank is wiped (R431). -/
def State.tampered (s : State) (src : Nat) : State :=
  let u := (s.wipeBank.cutAttest).tally 9
  { u with sec := { u.sec with
      tamper := u.sec.tamper ||| ((1 : BitVec 6) <<< src), tamperCnt := sat1 u.sec.tamperCnt, tamperSince := true } }

theorem secTamper_unpowered {s : State} {src : Nat} (h : 6 ≤ src ∨ (4 ≤ src ∧ s.pwr.mainOn = false)) : secTamper s src = s := if_pos h

/-- While no firmware runs the event of a tamper waits for the next boot. -/
theorem secTamper_late {s : State} {src : Nat} (h : ¬ (6 ≤ src ∨ (4 ≤ src ∧ s.pwr.mainOn = false)))
    (hup : (s.pwr.mainOn && s.sec.up) = false) :
    secTamper s src = { s.tampered src with sec := { (s.tampered src).sec with tamperLate := true } } :=
  (if_neg h).trans (if_neg (Bool.eq_false_iff.mp hup))

theorem secTamper_still {s : State} (hr : s.pwr.inReset = true) (hs : s.stillInReset) (src : Nat) : (secTamper s src).stillInReset := by
  obtain ⟨hnow, hpacer, hlanes, hcon, hmail, hready, hup, hev⟩ := hs hr
  by_cases h : 6 ≤ src ∨ (4 ≤ src ∧ s.pwr.mainOn = false)
  · rw [secTamper_unpowered h]
    exact hs
  · rw [secTamper_late h (by simp [hup])]
    exact fun _ => ⟨hnow, hpacer, hlanes, hcon, hmail, hready, hup, hev⟩

theorem vbatApplication_still {s : State} (hs : s.stillInReset) : (vbatApplication s).stillInReset := by
  unfold vbatApplication
  split
  · exact hs
  · exact fun hr => hs hr

/-- RESET_RELEASE ends device reset. -/
theorem resetRelease_inReset (s : State) : (resetRelease s).pwr.inReset = false := by
  cases hr : s.pwr.inReset <;> simp [resetRelease, hr]

theorem exec_in_reset_still {c : Instr} {s t : State} (hr : s.pwr.inReset = true) (hs : s.stillInReset) (h : exec c s = .next t) :
    t.stillInReset := by
  cases hc : runsInReset c
  · cases (exec_in_reset hc hr).symm.trans h
    exact hs
  · cases c with
    | resetRelease => cases h; exact stillInReset_of_live (resetRelease_inReset s)
    | deviceReset r => cases h; exact deviceReset_still s r
    | mainPowerFail => cases h; exact mainPowerFail_still s
    | vbatApplication => cases h; exact vbatApplication_still hs
    | secTamper k => cases h; exact secTamper_still hr hs k
    | _ => cases hc

theorem exec_live_still {c : Instr} {s t : State} (hr : s.pwr.inReset = false) (h : exec c s = .next t) : t.stillInReset := by
  cases hc : movesClock c
  · obtain ⟨u, hu, -, hkeeps⟩ := commandsAlwaysCompleteAndKeepTheQueue c s
    cases hu.symm.trans h
    exact stillInReset_of_live ((hkeeps hc).2.1.trans hr)
  · exact exec_movesClock_still hc hr h

theorem exec_still {c : Instr} {s t : State} (hs : s.stillInReset) (h : exec c s = .next t) : t.stillInReset := by
  cases hr : s.pwr.inReset
  · exact exec_live_still hr h
  · exact exec_in_reset_still hr hs h

/-- In device reset only the real-time counter passes; out of it a cycle does not enter reset. -/
theorem tick_still {s : State} (hs : s.stillInReset) : (tick s).stillInReset := by
  cases hr : s.pwr.inReset
  · have hc : (tick s).core = ({ s with pwr := s.pwr.rtcTick, now := s.now + 1, pacer := s.pacer.tick } : State).core := by
      simp only [tick, Pwr.rtcTick_inReset, hr, Bool.false_eq_true, if_false, State.tickSecond_core, State.tickTimers_core,
        State.tickReady_core]
    exact stillInReset_of_live ((inReset_of_core hc).trans ((Pwr.rtcTick_inReset s.pwr).trans hr))
  · simp only [tick, Pwr.rtcTick_inReset, hr, if_true]
    exact fun _ => hs hr

end Sys2Proof.Machine
end

section
/-! The statements about device reset, the fuses and TOKEN_SEQ, settled. -/

namespace Sys2Proof.Machine
open Sys2Proof

/-- Settles O3: a step makes the fuses and the record grow (`step_vault_grows`), and a bit that stands in what has grown stays. -/
theorem fusesAndTokenSequenceNeverGoBack : Obligations.FusesAndTokenSequenceNeverGoBack := by
  intro s t h
  obtain ⟨hserial, hvendor, howner, hlc, hseq⟩ := step_vault_grows h
  exact ⟨hserial, hvendor, fun _ => getLsbD_of_and_eq howner, fun _ => getLsbD_of_and_eq hlc, hseq⟩

/-- Settles O4: a command in device reset is `exec_in_reset_still`, one out of it `exec_live_still`, and a cycle `tick_still`. -/
theorem deviceResetHoldsEverythingStill : Obligations.DeviceResetHoldsEverythingStill := by
  unfold Obligations.DeviceResetHoldsEverythingStill
  refine ⟨fun s t hs h => ?_, fun _ => ⟨rfl, rfl, rfl, rfl, rfl, rfl, rfl, rfl⟩⟩
  unfold step at h
  split at h
  · cases h
    exact tick_still hs
  · rename_i c r _
    have hq : ({ s with pending := r } : State).stillInReset := hs
    exact exec_still hq h

/-- Settles O5: every other command runs through `State.live` (`exec_live`). -/
theorem noCommandRunsInDeviceReset : Obligations.NoCommandRunsInDeviceReset := fun _ _ hc hr => exec_in_reset hc hr

end Sys2Proof.Machine
end

section
/-! SUPPORT. What recording an event or a count leaves of the device, field by field (R372, R446). -/

namespace Sys2Proof.Machine
open Sys2Proof

section
variable (s : State) (code : Nat) (src : Word) (data : BitVec 64) (tied : Bool)

@[simp] theorem State.raise_hif : (s.raise code src data tied).hif = s.hif := (congrArg State.hif (s.raise_unheard code src data tied) :)
@[simp] theorem State.raise_pair : (s.raise code src data tied).pair = s.pair := (congrArg State.pair (s.raise_unheard code src data tied) :)
@[simp] theorem State.raise_sec : (s.raise code src data tied).sec = s.sec := (congrArg State.sec (s.raise_unheard code src data tied) :)
@[simp] theorem State.raise_pwr : (s.raise code src data tied).pwr = s.pwr := (congrArg State.pwr (s.raise_unheard code src data tied) :)
@[simp] theorem State.raise_ports : (s.raise code src data tied).ports = s.ports := (congrArg State.ports (s.raise_unheard code src data tied) :)
@[simp] theorem State.raise_out : (s.raise code src data tied).out = s.out := (congrArg State.out (s.raise_unheard code src data tied) :)

@[simp] theorem State.raise_port (k : Nat) : (s.raise code src data tied).port k = s.port k :=
  congrArg (tget portDflt · k) (s.raise_ports code src data tied)
end

section
variable (s : State) (k : Nat)

@[simp] theorem State.tally_hif : (s.tally k).hif = s.hif := rfl
@[simp] theorem State.tally_snap : (s.tally k).snap = s.snap := rfl
end

end Sys2Proof.Machine
end

section
/-! SUPPORT. The checks that the commands of the host share, and the first of them that fails (R359, R360, R362, R363, R428; log 46). -/

namespace Sys2Proof.Machine
open Sys2Proof

/-- What `t` is for an entry of `s` that no command runs: the entry is not taken, has a reserved or unused field set, or comes in a
lifecycle state that forbids the command. -/
def ChecksFirst (s t : State) (op : Nat) (w : Uses) (e : Sqe) : Prop :=
  (s.canTake e.sq = false → t = s) ∧
    (s.canTake e.sq = true → sqeClean e w = false → t = (s.takeEntry e.sq).finish e.sq op e.cid stField 0 0) ∧
    (s.canTake e.sq = true → sqeClean e w = true → allowedIn op s.sec.lcState = false →
      t = (s.takeEntry e.sq).finish e.sq op e.cid stNotAllowed 0 0)

section
variable (s : State) (e : Sqe)

theorem runCmd_checksFirst (op : Nat) (w : Uses) (body : State → Done) : ChecksFirst s (s.runCmd op w e body) op w e :=
  ⟨fun ht => by simp [State.runCmd, ht], fun ht hc => by simp [State.runCmd, ht, hc, fail],
    fun ht hc ha => by simp [State.runCmd, ht, hc, ha, fail]⟩

theorem attest_checksFirst : ChecksFirst s (attest s e) 2 ⟨false, true, 0x38⟩ e :=
  ⟨fun ht => by simp [attest, ht], fun ht hc => by simp [attest, ht, hc], fun ht hc ha => by simp [attest, ht, hc, ha]⟩

theorem fwCommit_checksFirst : ChecksFirst s (fwCommit s e) 0x0B ⟨false, false, 0x20⟩ e :=
  ⟨fun ht => by simp [fwCommit, ht], fun ht hc => by simp [fwCommit, ht, hc], fun ht hc ha => by simp [fwCommit, ht, hc, ha]⟩

theorem fwStage_checksFirst : ChecksFirst s (fwStage s e) 0x0A ⟨false, true, 0x18⟩ e := by
  unfold fwStage
  exact runCmd_checksFirst s e _ _ _

/-- An ACTIVATE waits for the end of a rephase only when its checks pass. -/
theorem activate_checksFirst : ChecksFirst s (activate s e) 4 ⟨true, false, 0x20⟩ e := by
  cases hw : s.activateWaits e
  · simp only [activate, hw, Bool.false_eq_true, if_false]
    exact runCmd_checksFirst s e 4 _ _
  · rw [activate_waits hw]
    simp only [State.activateWaits, Bool.and_eq_true] at hw
    obtain ⟨⟨⟨-, hc⟩, ha⟩, -⟩ := hw
    exact ⟨fun _ => rfl, fun _ hn => absurd hc (by simp [hn]), fun _ _ hn => absurd ha (by simp [hn])⟩

theorem resourceClaim_runs (h : ¬ (sqeAction e = 2 ∨ sqeAction e = 3)) : resourceClaim s e = s.resourceCmd e := if_neg h
theorem resourceRelease_runs (h : sqeAction e = 2) : resourceRelease s e = s.resourceCmd e := if_pos h
theorem resourceQuery_runs (h : sqeAction e = 3) : resourceQuery s e = s.resourceCmd e := if_pos h

theorem resourceCmd_checksFirst : ChecksFirst s (s.resourceCmd e) 0x0D ⟨false, false, 0x24⟩ e := runCmd_checksFirst s e _ _ _
end

/-- Each command of the list checks its entry before it runs. -/
theorem checksFirst_of_hostRow {c : Instr} {op : Nat} {w : Uses} {e : Sqe} (h : hostRow c = some (op, w, e)) (s : State) :
    ∃ t, exec c s = .next (s.live t) ∧ ChecksFirst s t op w e := by
  cases c with
  | identify => cases h; exact ⟨_, rfl, runCmd_checksFirst s e _ _ _⟩
  | attest => cases h; exact ⟨_, rfl, attest_checksFirst s e⟩
  | activate => cases h; exact ⟨_, rfl, activate_checksFirst s e⟩
  | withdraw => cases h; exact ⟨_, rfl, runCmd_checksFirst s e _ _ _⟩
  | queryContract => cases h; exact ⟨_, rfl, runCmd_checksFirst s e _ _ _⟩
  | readLog => cases h; exact ⟨_, rfl, runCmd_checksFirst s e _ _ _⟩
  | snapshotArm => cases h; exact ⟨_, rfl, runCmd_checksFirst s e _ _ _⟩
  | snapshotRead => cases h; exact ⟨_, rfl, runCmd_checksFirst s e _ _ _⟩
  | fwStage => cases h; exact ⟨_, rfl, fwStage_checksFirst s e⟩
  | fwCommit => cases h; exact ⟨_, rfl, fwCommit_checksFirst s e⟩
  | pacerCfg => cases h; exact ⟨_, rfl, runCmd_checksFirst s e _ _ _⟩
  | telemetryCfg => cases h; exact ⟨_, rfl, runCmd_checksFirst s e _ _ _⟩
  | resourceClaim d =>
    by_cases ha : sqeAction d = 2 ∨ sqeAction d = 3
    · simp [hostRow, ha] at h
    · simp only [hostRow, ha, if_false] at h
      cases h
      exact ⟨_, rfl, (resourceClaim_runs s e ha).symm ▸ resourceCmd_checksFirst s e⟩
  | resourceRelease d =>
    by_cases ha : sqeAction d = 2
    · simp only [hostRow, ha, if_true] at h
      cases h
      exact ⟨_, rfl, (resourceRelease_runs s e ha).symm ▸ resourceCmd_checksFirst s e⟩
    · simp [hostRow, ha] at h
  | resourceQuery d =>
    by_cases ha : sqeAction d = 3
    · simp only [hostRow, ha, if_true] at h
      cases h
      exact ⟨_, rfl, (resourceQuery_runs s e ha).symm ▸ resourceCmd_checksFirst s e⟩
    · simp [hostRow, ha] at h
  | _ => cases h

theorem invalidOpcode_answers {s : State} {e : Sqe} {op : Byte} (hop : op.toNat = 0 ∨ 16 ≤ op.toNat) (ht : s.canTake e.sq = true) :
    invalidOpcode s e op = (s.takeEntry e.sq).finish e.sq op.toNat e.cid stOpcode 0 0 := by
  simp [invalidOpcode, hop, ht]

end Sys2Proof.Machine
end

section
/-! SUPPORT. What the commands of the host answer: a buffer that is written, and the effect of each command that is taken, clean and
allowed (R361, R364, R366–R368, R412, R418, R424, R425, R438, R440, R452, R472–R476). -/

namespace Sys2Proof.Machine
open Sys2Proof

/-! ### Buffers -/

/-- A command's accesses to its buffer are reported, after the reads of its scatter list. -/
def State.reachBuffer (s : State) (e : Sqe) : State := (s.emits (listReads e)).aer e.buf

theorem State.emits_eq (s : State) (l : List Out) : s.emits l = { s with out := l.reverse ++ s.out } := by
  induction l generalizing s with
  | nil => rfl
  | cons x r ih =>
    refine (ih (s.emit x)).trans ?_
    simp [State.emit]

/-- A buffer that can be reached and is long enough is written (R361). -/
theorem State.output_writes {s : State} {e : Sqe} {d : List Byte} (hok : e.buf.ok = true) (hsgl : sqeSglOk e = true)
    (hlen : d.length ≤ e.len.toNat) (r0 r1 : Word) :
    s.output e d r0 r1 = done r0 r1 ((s.reachBuffer e).emits (bufferOut e d)) := by
  simp [State.output, State.reachBuffer, hok, hsgl, Nat.not_lt.mpr hlen]

theorem length_fit (n : Nat) (l : List Byte) : (fit n l).length = n := by
  simp [fit]

theorem State.length_identity (s : State) : s.identity.length = 4096 := length_fit _ _

theorem State.length_logRead (s : State) (o n : Nat) : (s.logRead o n).length = n := by simp [State.logRead]

section
variable {s : State} {e : Sqe} (ht : s.canTake e.sq = true)
include ht

/-! ### IDENTIFY, QUERY_CONTRACT, READ_LOG, TELEMETRY_CFG -/

theorem identify_writes (hc : sqeClean e ⟨false, true, 0x18⟩ = true) (hok : e.buf.ok = true) (hsgl : sqeSglOk e = true)
    (hlen : 4096 ≤ e.len.toNat) : identify s e =
      ((s.takeEntry e.sq).reachBuffer e |>.emits (bufferOut e (s.takeEntry e.sq).identity)).finish e.sq 1 e.cid 0 0 0 := by
  have hallowed : allowedIn 1 s.sec.lcState = true := rfl
  simp only [identify, State.runCmd_runs ht hc hallowed, State.output_writes hok hsgl ((State.length_identity _).trans_le hlen), done,
    stSuccess]

section
variable (hc : sqeClean e ⟨true, true, 0x18⟩ = true)
include hc

theorem queryContract_writes_all (hh : e.handle = 0xFFFF) (hok : e.buf.ok = true) (hsgl : sqeSglOk e = true)
    (hlen : ((s.takeEntry e.sq).con.flatMap (s.takeEntry e.sq).contractRecord).length ≤ e.len.toNat) : queryContract s e =
      ((s.takeEntry e.sq).reachBuffer e |>.emits (bufferOut e ((s.takeEntry e.sq).con.flatMap (s.takeEntry e.sq).contractRecord))).finish
        e.sq 6 e.cid 0 (BitVec.ofNat 32 (s.takeEntry e.sq).con.length) 0 := by
  have hallowed : allowedIn 6 s.sec.lcState = true := rfl
  simp only [queryContract, State.runCmd_runs ht hc hallowed, hh, if_true, State.output_writes hok hsgl hlen, done, stSuccess]

theorem queryContract_unknown (hh : e.handle ≠ 0xFFFF) (hn : (s.takeEntry e.sq).contract e.handle.toNat = none) :
    queryContract s e = (s.takeEntry e.sq).finish e.sq 6 e.cid stNoContract 0 0 := by
  have hallowed : allowedIn 6 s.sec.lcState = true := rfl
  simp only [queryContract, State.runCmd_runs ht hc hallowed, hh, if_false, hn, fail]

theorem queryContract_writes {c : Contract} (hh : e.handle ≠ 0xFFFF) (hok : e.buf.ok = true) (hsgl : sqeSglOk e = true)
    (hn : (s.takeEntry e.sq).contract e.handle.toNat = some c) (hlen : ((s.takeEntry e.sq).contractRecord c).length ≤ e.len.toNat) :
    queryContract s e =
      ((s.takeEntry e.sq).reachBuffer e |>.emits (bufferOut e ((s.takeEntry e.sq).contractRecord c))).finish e.sq 6 e.cid 0 1 0 := by
  have hallowed : allowedIn 6 s.sec.lcState = true := rfl
  simp only [queryContract, State.runCmd_runs ht hc hallowed, hh, if_false, hn, State.output_writes hok hsgl hlen, done, stSuccess]
end

theorem readLog_writes (hc : sqeClean e ⟨false, true, 0x1C⟩ = true) (hok : e.buf.ok = true) (hsgl : sqeSglOk e = true)
    (ho : sqePar e 0x18 4 % 32 = 0) (hn : e.len.toNat % 32 = 0) (hrange : sqePar e 0x18 4 + e.len.toNat ≤ 0x400000) : readLog s e =
      ((s.takeEntry e.sq).reachBuffer e |>.emits (bufferOut e ((s.takeEntry e.sq).logRead (sqePar e 0x18 4) e.len.toNat))).finish
        e.sq 7 e.cid 0 (BitVec.ofNat 32 e.len.toNat) 0 := by
  have hallowed : allowedIn 7 s.sec.lcState = true := rfl
  simp only [readLog, State.runCmd_runs ht hc hallowed, ho, hn, ne_eq, not_true_eq_false, or_self, if_false, Nat.not_lt.mpr hrange,
    State.output_writes hok hsgl (State.length_logRead _ _ _).le, done, stSuccess]

theorem telemetryCfg_stops (hc : sqeClean e ⟨false, false, 0x2C⟩ = true) (hb : sqePar e 0x18 8 = 0) : telemetryCfg s e =
    ((((s.takeEntry e.sq).setRing 9 ringReset).setTelem telemReset).finish e.sq 15 e.cid 0 0 0) := by
  have hallowed : allowedIn 15 s.sec.lcState = true := rfl
  simp only [telemetryCfg, State.runCmd_runs ht hc hallowed, hb, if_true, done, stSuccess]

/-! ### SNAPSHOT_ARM and SNAPSHOT_READ -/

section
variable (hc : sqeClean e ⟨false, false, 0x28⟩ = true)
include hc

theorem snapshotArm_reserved (hs : BitVec.ofNat 32 (sqePar e 0x18 4) &&& 0x7E00FFF8 ≠ 0) :
    snapshotArm s e = (s.takeEntry e.sq).finish e.sq 8 e.cid stField 0 0 := by
  have hallowed : allowedIn 8 s.sec.lcState = true := rfl
  simp only [snapshotArm, State.runCmd_runs ht hc hallowed, ne_eq, hs, not_false_eq_true, if_true, fail]

theorem snapshotArm_arms (hs : BitVec.ofNat 32 (sqePar e 0x18 4) &&& 0x7E00FFF8 = 0)
    (h2 : (BitVec.ofNat 32 (sqePar e 0x18 4)).getLsbD 2 = false) (h31 : (BitVec.ofNat 32 (sqePar e 0x18 4)).getLsbD 31 = false)
    (h0 : (BitVec.ofNat 32 (sqePar e 0x18 4)).getLsbD 0 = false) : snapshotArm s e =
      ({ s.takeEntry e.sq with snap := { (s.takeEntry e.sq).snap with
        arm := BitVec.ofNat 32 (sqePar e 0x18 4) &&& 0x01FF0006 } } : State).finish
        e.sq 8 e.cid 0 (fw ((s.takeEntry e.sq).snap.count.toNat + 1) 0) 0 := by
  have hallowed : allowedIn 8 s.sec.lcState = true := rfl
  simp only [snapshotArm, State.runCmd_runs ht hc hallowed, hs, h2, h31, h0, ne_eq, not_true_eq_false, if_false, Bool.false_and,
    Bool.false_eq_true, done, stSuccess]
end

section
variable (hc : sqeClean e ⟨false, true, 0x1C⟩ = true)
include hc

theorem snapshotRead_none (hn : (s.takeEntry e.sq).snap.held = none) :
    snapshotRead s e = (s.takeEntry e.sq).finish e.sq 9 e.cid stNoSnap 0 0 := by
  have hallowed : allowedIn 9 s.sec.lcState = true := rfl
  simp only [snapshotRead, State.runCmd_runs ht hc hallowed, hn, fail]

/-- The held snapshot is written and released (R440). -/
theorem snapshotRead_writes {x : Shot} (hn : (s.takeEntry e.sq).snap.held = some x) (hnum : sqePar e 0x18 4 = x.num)
    (hl : 360288 ≤ e.len.toNat) (hlen : x.bytes.length ≤ e.len.toNat) (hok : e.buf.ok = true) (hsgl : sqeSglOk e = true) :
    snapshotRead s e = ((s.takeEntry e.sq).reachBuffer e |>.emits (bufferOut e x.bytes)).pfRelease.finish e.sq 9 e.cid 0 360288 0 := by
  have hallowed : allowedIn 9 s.sec.lcState = true := rfl
  simp only [snapshotRead, State.runCmd_runs ht hc hallowed, hn, hnum, ne_eq, not_true_eq_false, if_false, Nat.not_lt.mpr hl,
    State.output_writes hok hsgl hlen, done, if_true, stSuccess]
end

/-! ### PACER_CFG -/

section
variable (hc : sqeClean e ⟨false, false, 0x40⟩ = true)
include hc

theorem pacerCfg_outOfRange (ha : (pacerArgs e).ok = false) :
    pacerCfg s e = (s.takeEntry e.sq).finish e.sq 12 e.cid stField 0 0 := by
  have hallowed : allowedIn 12 s.sec.lcState = true := rfl
  simp only [pacerCfg, State.runCmd_runs ht hc hallowed, ha, Bool.not_false, if_true, fail]

variable (ha : (pacerArgs e).ok = true)
include ha

theorem pacerCfg_tooNear (hw : (pacerArgs e).waits (s.takeEntry e.sq).pacer.src = true)
    (hg : (pacerArgs e).apply < (s.takeEntry e.sq).heatN + 2) :
    pacerCfg s e = (s.takeEntry e.sq).finish e.sq 12 e.cid stGun 0 0 := by
  have hallowed : allowedIn 12 s.sec.lcState = true := rfl
  simp only [pacerCfg, State.runCmd_runs ht hc hallowed, ha, hw, hg, Bool.not_true, Bool.false_eq_true, if_false, Bool.true_and, decide_true,
    if_true, fail]

variable (hg : ¬ ((pacerArgs e).waits (s.takeEntry e.sq).pacer.src = true ∧ (pacerArgs e).apply < (s.takeEntry e.sq).heatN + 2))
include hg

theorem pacerCfg_forbidden (hf : (s.takeEntry e.sq).pacerForbids (pacerArgs e) = true) :
    pacerCfg s e = (s.takeEntry e.sq).finish e.sq 12 e.cid stPacer 0 0 := by
  have hallowed : allowedIn 12 s.sec.lcState = true := rfl
  simp only [pacerCfg, State.runCmd_runs ht hc hallowed, ha, Bool.not_true, Bool.false_eq_true, if_false, Bool.and_eq_true, decide_eq_true_eq,
    hg, hf, if_true, fail]

theorem pacerCfg_awaits (hf : (s.takeEntry e.sq).pacerForbids (pacerArgs e) = false) (h0 : (pacerArgs e).has 0 = false)
    (h5 : (pacerArgs e).has 5 = false) : pacerCfg s e =
      ({ s.takeEntry e.sq with pacer := (s.takeEntry e.sq).pacer.await (pacerArgs e) } : State).finish e.sq 12 e.cid 0 0 0 := by
  have hallowed : allowedIn 12 s.sec.lcState = true := rfl
  simp only [pacerCfg, State.runCmd_runs ht hc hallowed, ha, Bool.not_true, Bool.false_eq_true, if_false, Bool.and_eq_true, decide_eq_true_eq,
    hg, hf, h0, h5, done, stSuccess]
end

/-! ### ATTEST -/

/-- The message of an ATTEST that `u` answers (R424). -/
def State.attestMessage (u : State) (e : Sqe) : List Byte :=
  let body := u.attestBody (fit 32 (e.param.take 32)) (u.attestCount + 1)
  body ++ fit 7856 (Config.slhSign u.sec.rng u.idKey (preHash body))

omit ht in
theorem State.smRead_hif (s : State) (portB : Bool) (rod : Nat) : (s.smRead portB rod).2.hif = s.hif := by
  simp only [State.smRead]
  split
  · exact State.raise_hif _ _ _ _ _
  · rfl

omit ht in
theorem State.smPoke_hif (s : State) (o : Nat) (d : List Byte) : (s.smPoke o d).hif = s.hif := by
  simp only [State.smPoke, State.smWrite]
  split
  · rfl
  · exact s.smRead_hif _ _

omit ht in
theorem State.reachBuffer_compl (s : State) (e : Sqe) : (s.reachBuffer e).hif.compl = s.hif.compl := by
  simp only [State.reachBuffer, State.emits_eq, State.aer]

omit ht in
theorem State.reachBuffer_sec (s : State) (e : Sqe) : (s.reachBuffer e).sec = s.sec := by
  simp only [State.reachBuffer, State.emits_eq, State.aer]

/-- The device as the message of an ATTEST leaves: the count is one higher, and a random number is used up (R424, R425). -/
def State.attested (u : State) (e : Sqe) : State :=
  { (u.reachBuffer e).smPoke 0xF0068 (leBytes (u.attestCount + 1) 8) with
    sec := { (u.reachBuffer e).sec with rng := (u.reachBuffer e).sec.rng + 1 } }

/-- Its completion, with which the message leaves. -/
def State.attestCompl (u : State) (e : Sqe) : Compl :=
  { sq := e.sq, op := 2, cid := e.cid, status := stSuccess, r0 := BitVec.ofNat 32 (u.attestMessage e).length, r1 := 0,
    sqHead := ((u.attested e).sqRing e.sq).head, dma := bufferOut e (u.attestMessage e) }

theorem attest_answers (hc : sqeClean e ⟨false, true, 0x38⟩ = true) (ha : allowedIn 2 s.sec.lcState = true)
    (hid : (s.takeEntry e.sq).idValid = true) (hb : s.runs 2 = false) (hok : e.buf.ok = true) (hsgl : sqeSglOk e = true)
    (hlen : ((s.takeEntry e.sq).attestMessage e).length ≤ e.len.toNat) :
    attest s e = { (s.takeEntry e.sq).attested e with hif := { ((s.takeEntry e.sq).attested e).hif with
      compl := ((s.takeEntry e.sq).attested e).hif.compl ++ [(s.takeEntry e.sq).attestCompl e] } } := by
  simp only [State.attestMessage, State.takeEntry_sec] at hlen
  simp only [attest, ht, hc, State.takeEntry_sec, ha, hid, hb, Nat.not_lt.mpr hlen, hok, hsgl, Bool.not_true, Bool.and_self,
    Bool.false_eq_true, if_false, State.attestCompl, State.attestMessage, State.attested, State.reachBuffer]

omit ht in
theorem State.attestCompl_r0 (u : State) (e : Sqe) : (u.attestCompl e).r0 = BitVec.ofNat 32 (u.attestMessage e).length := by
  simp only [State.attestCompl]

omit ht in
theorem State.attested_compl (u : State) (e : Sqe) : (u.attested e).hif.compl = u.hif.compl :=
  (congrArg Hif.compl ((u.reachBuffer e).smPoke_hif _ _)).trans (u.reachBuffer_compl e)

omit ht in
theorem State.attested_rng (u : State) (e : Sqe) : (u.attested e).sec.rng = u.sec.rng + 1 :=
  congrArg (·.rng + 1) (u.reachBuffer_sec e)
end

end Sys2Proof.Machine
end

section
/-! SUPPORT. FW_STAGE, FW_COMMIT and the three actions of RESOURCE_CLAIM (R411, R412, R418, R419, R471–R476). -/

namespace Sys2Proof.Machine
open Sys2Proof

/-! ### Firmware -/

theorem State.imageValid_of_sec {s t : State} (h : t.sec = s.sec) (b : List Byte) : t.imageValid b = s.imageValid b := by
  simp only [State.imageValid, h]

/-- The reads of a buffer leave on the device what they report and what they put out. -/
theorem State.readBuffer_eq (s : State) (e : Sqe) : s.readBuffer e =
    { s with out := ((bufferReads e).reverse ++ ((listReads e).reverse ++ s.out)), hif := (s.readBuffer e).hif } := by
  simp only [State.readBuffer, State.emits_eq, State.aer]

@[simp] theorem State.readBuffer_sec (s : State) (e : Sqe) : (s.readBuffer e).sec = s.sec :=
  (congrArg State.sec (s.readBuffer_eq e) :)
@[simp] theorem State.readBuffer_pair (s : State) (e : Sqe) : (s.readBuffer e).pair = s.pair :=
  (congrArg State.pair (s.readBuffer_eq e) :)
@[simp] theorem State.readBuffer_compl (s : State) (e : Sqe) : (s.readBuffer e).hif.compl = s.hif.compl := by
  simp only [State.readBuffer, State.emits_eq, State.aer]

@[simp] theorem State.takeEntry_pair (s : State) (q : Nat) : (s.takeEntry q).pair = s.pair := rfl
@[simp] theorem State.takeEntry_heatN (s : State) (q : Nat) : (s.takeEntry q).heatN = s.heatN := rfl

section
variable {s : State} {e : Sqe} (ht : s.canTake e.sq = true)
include ht

/-! ### FW_STAGE -/

section
variable {b : List Byte} (hc : sqeClean e ⟨false, true, 0x18⟩ = true) (ha : allowedIn 10 s.sec.lcState = true) (hb : s.runs 10 = false)
  (hin : sqeInput e = some b)
include hc ha hb hin

theorem fwStage_refuses (hv : (s.takeEntry e.sq).imageValid b = false) : fwStage s e =
    ((s.takeEntry e.sq).readBuffer e).finish e.sq 10 e.cid stFwVerify 0 0 := by
  have hv' : ((s.takeEntry e.sq).readBuffer e).imageValid b = false := (State.imageValid_of_sec (State.readBuffer_sec _ e) b).trans hv
  simp only [fwStage, State.runCmd_runs ht hc ha, hb, Bool.false_eq_true, if_false, hin, hv', Bool.not_false, Bool.true_or, if_true,
    fail]

/-- The image is written to the flash that is not in service, and staged (R411, R418). -/
def State.fwStaged (s : State) (b : List Byte) : State :=
  let u := (s.setFw (!s.sec.image) (imgFw b)).emit (.flash (if !s.sec.image then 1 else 0) b)
  { u with pair := { u.pair with staged := some b, stbyImage := !s.sec.image } }

omit ht hc ha hb hin in
theorem State.fwStaged_out (s : State) (b : List Byte) :
    (s.fwStaged b).out = .flash (if s.sec.image then 0 else 1) b :: s.out := by
  cases h : s.sec.image <;> simp [State.fwStaged, h, State.setFw]

theorem fwStage_stages (hv : (s.takeEntry e.sq).imageValid b = true) (hl : b.length = 0x100 + imgBodyLen b + 15712)
    (hok : s.pair.stbyOk = true) : fwStage s e =
      (((s.takeEntry e.sq).readBuffer e).fwStaged b).finish e.sq 10 e.cid 0 (BitVec.ofNat 32 (leAt b 4 4)) 0 := by
  have hv' : ((s.takeEntry e.sq).readBuffer e).imageValid b = true := (State.imageValid_of_sec (State.readBuffer_sec _ e) b).trans hv
  simp only [fwStage, State.runCmd_runs ht hc ha, hb, Bool.false_eq_true, if_false, hin, hv', hl, ne_eq, not_true_eq_false, decide_false,
    Bool.not_true, Bool.or_self, State.readBuffer_pair, State.takeEntry_pair, hok, done, stSuccess, State.fwStaged,
    State.readBuffer_sec, State.takeEntry_sec]
  rfl
end

/-! ### FW_COMMIT -/

section
variable (hc : sqeClean e ⟨false, false, 0x20⟩ = true) (ha : allowedIn 11 s.sec.lcState = true)
include hc ha

theorem fwCommit_unstaged (h : s.pair.staged = none ∨ s.pair.commit.isSome = true) :
    fwCommit s e = (s.takeEntry e.sq).finish e.sq 11 e.cid stNotStaged 0 0 := by
  have h' : (s.pair.staged.isNone || s.pair.commit.isSome) = true := by simpa using h
  simp only [fwCommit, ht, hc, State.takeEntry_sec, ha, State.takeEntry_pair, h', Bool.not_true, Bool.false_eq_true, if_false, if_true]

variable (hs : s.pair.staged.isSome = true) (hn : s.pair.commit = none)
include hs hn

theorem fwCommit_tooNear (h0 : sqePar e 0x18 8 ≠ 0) (hg : sqePar e 0x18 8 < s.heatN + 8) :
    fwCommit s e = (s.takeEntry e.sq).finish e.sq 11 e.cid stGun 0 0 := by
  have h' : (s.pair.staged.isNone || s.pair.commit.isSome) = false := by simp [hn, hs]
  simp only [fwCommit, ht, hc, State.takeEntry_sec, ha, State.takeEntry_pair, State.takeEntry_heatN, h', Bool.not_true, Bool.false_eq_true, if_false,
    ne_eq, h0, not_false_eq_true, hg, and_self, if_true]

theorem fwCommit_commits (hg : sqePar e 0x18 8 = 0 ∨ s.heatN + 8 ≤ sqePar e 0x18 8) : fwCommit s e =
    { s.takeEntry e.sq with pair := { (s.takeEntry e.sq).pair with
      commit := some (if sqePar e 0x18 8 = 0 then s.heatN + 8 else sqePar e 0x18 8, e.sq, e.cid) } } := by
  have h' : (s.pair.staged.isNone || s.pair.commit.isSome) = false := by simp [hn, hs]
  have hg' : ¬ (sqePar e 0x18 8 ≠ 0 ∧ sqePar e 0x18 8 < s.heatN + 8) := by omega
  simp only [fwCommit, ht, hc, State.takeEntry_sec, ha, State.takeEntry_pair, State.takeEntry_heatN, h', Bool.not_true, Bool.false_eq_true, if_false, hg']
end

/-! ### RESOURCE_CLAIM -/

section
variable (hc : sqeClean e ⟨false, false, 0x24⟩ = true)
include hc

theorem resourceClaim_unknown (ha : sqeAction e = 1) (hr : resourceOk (sqePar e 0x18 4) = false) :
    resourceClaim s e = (s.takeEntry e.sq).finish e.sq 13 e.cid stField 0 0 := by
  have hallowed : allowedIn 13 s.sec.lcState = true := rfl
  rw [resourceClaim_runs s e (by omega)]
  simp only [State.resourceCmd, State.runCmd_runs ht hc hallowed, hr, Bool.not_false, if_true, fail]

variable (hr : resourceOk (sqePar e 0x18 4) = true)
include hr

theorem resourceClaim_answers (ha : sqeAction e = 1) {d : Done}
    (hd : (s.takeEntry e.sq).claimRes (sqePar e 0x18 4) (BitVec.ofNat 32 (sqePar e 0x20 4)) = d) :
    resourceClaim s e = d.s.finish e.sq 13 e.cid d.status d.r0 d.r1 := by
  have hallowed : allowedIn 13 s.sec.lcState = true := rfl
  rw [resourceClaim_runs s e (by omega)]
  simp only [State.resourceCmd, State.runCmd_runs ht hc hallowed, hr, Bool.not_true, Bool.false_eq_true, if_false, ha, hd]

theorem resourceRelease_answers (ha : sqeAction e = 2) {d : Done} (hd : (s.takeEntry e.sq).releaseRes (sqePar e 0x18 4) = d) :
    resourceRelease s e = d.s.finish e.sq 13 e.cid d.status d.r0 d.r1 := by
  have hallowed : allowedIn 13 s.sec.lcState = true := rfl
  rw [resourceRelease_runs s e ha]
  simp only [State.resourceCmd, State.runCmd_runs ht hc hallowed, hr, Bool.not_true, Bool.false_eq_true, if_false, ha, hd]

theorem resourceQuery_answers (ha : sqeAction e = 3) {d : Done} (hd : (s.takeEntry e.sq).queryRes (sqePar e 0x18 4) = d) :
    resourceQuery s e = d.s.finish e.sq 13 e.cid d.status d.r0 d.r1 := by
  have hallowed : allowedIn 13 s.sec.lcState = true := rfl
  rw [resourceQuery_runs s e ha]
  simp only [State.resourceCmd, State.runCmd_runs ht hc hallowed, hr, Bool.not_true, Bool.false_eq_true, if_false, ha, hd]
end
end

section
variable {u : State} {r : Nat} (h40 : r ≠ 0x40) (h41 : r ≠ 0x41)
include h40 h41

/-- A free resource whose pins are free is claimed for the host (R472, R473). -/
theorem State.claimRes_claims {cfg : Word} (hcfg : configOk u.L r cfg = true) (hfree : (u.claim r).held = false)
    (hpins : u.blocking r cfg false = none) : u.claimRes r cfg =
      done 0x420 0 ((((u.setClaim r ⟨true, r, 0x420, cfg⟩).takePins r 0x420 (pinsOf r cfg)).applyConfig r cfg).claimEvent r 1 0x420 cfg) := by
  simp only [State.claimRes, hcfg, h40, h41, hfree, hpins, Bool.not_true, Bool.false_eq_true, or_self, if_false, Bool.false_and]
  rfl

theorem State.releaseRes_foreign (hfree : (u.claim r).held = false) : u.releaseRes r = fail stNotOwner u := by
  simp only [State.releaseRes, h40, h41, hfree, or_self, if_false, Bool.false_and, Bool.not_false, if_true]

/-- What the host holds is released and disabled, and its pins with it (R474). -/
theorem State.releaseRes_releases (hheld : (u.claim r).held = true) (howner : (u.claim r).owner = 0x420) (hvia : (u.claim r).via = r)
    (hlock : ¬ (within r 0x30 0x3F = true ∧ u.portLocked (r - 0x30) = true)) : u.releaseRes r =
      done 0xFFFFFFFF 0 ((((u.freePins (pinsOf r (u.claim r).cfg)).setClaim r claimFree).disable r).claimEvent r 2 0x420 0) := by
  simp only [State.releaseRes, h40, h41, hheld, howner, hvia, or_self, if_false, decide_true, Bool.and_self, Bool.not_true,
    Bool.false_eq_true, Bool.and_eq_true, hlock]
end

theorem State.queryRes_held {u : State} {r : Nat} (h : (u.claim r).held = true) :
    u.queryRes r = done ((u.claim r).owner.zeroExtend 32) (u.claim r).cfg u := if_pos h

theorem State.queryRes_free {u : State} {r : Nat} (h : (u.claim r).held = false) : u.queryRes r = done 0xFFFFFFFF 0 u :=
  if_neg (Bool.eq_false_iff.mp h)

end Sys2Proof.Machine
end

section
/-! SUPPORT. The rings of the host interface: what a ring holds after it is set, and what a doorbell, an enable, a message
and the reset of a master leave (R356–R358, R373, R374). -/

namespace Sys2Proof.Machine
open Sys2Proof

/-- A fold over the state keeps what each of its steps keeps. -/
theorem foldl_keeps {α β : Type} (f : State → β) (g : State → α → State) (h : ∀ s x, f (g s x) = f s) (l : List α) (s : State) :
    f (l.foldl g s) = f s := by
  induction l generalizing s with
  | nil => rfl
  | cons x l ih => rw [List.foldl_cons, ih, h]

/-! ### The rings by number -/

theorem State.ring_sq (s : State) {q : Nat} (h : q < 4) : s.ring q = s.sqRing q := if_pos h

theorem State.ring_cq (s : State) {q : Nat} (h : q < 4) : s.ring (4 + q) = s.cqRing q := by
  simp [State.ring, show ¬ 4 + q < 4 by omega, show 4 + q < 8 by omega]

theorem State.ring_setRing_same (s : State) (k : Nat) (r : Ring) : (s.setRing k r).ring k = r := by
  unfold State.ring State.setRing
  split
  · simp [State.setSq, State.sqRing]
  · split
    · simp [State.setCq, State.cqRing]
    · split <;> rfl

theorem State.cqRing_setCq_same (s : State) (q : Nat) (r : Ring) : (s.setCq q r).cqRing q = r := tget_tput_same s.hif.cq q r

theorem State.ring_of_hif {s t : State} (h : t.hif = s.hif) (k : Nat) : t.ring k = s.ring k := by
  simp only [State.ring, State.sqRing, State.cqRing, h]

@[simp] theorem State.bellInt_hif (s : State) : s.bellInt.hif = s.hif :=
  foldl_keeps State.hif (fun s p => s.pendInt p 3) (fun _ _ => rfl) s.svcPair s

/-! ### Doorbells (R357) -/

/-- The ring as the index written to its doorbell leaves it, before the index is judged. -/
def Ring.rung (r : Ring) (v : Word) : Ring := { r with bell := BitVec.ofNat 32 (v.toNat % 4096) }

section
variable {s : State} {k : Nat} {v : Word} {put : Ring → Nat → Ring}

theorem State.ring_bellInt_setRing (s : State) (k : Nat) (r : Ring) : (s.setRing k r).bellInt.ring k = r := by
  rw [State.ring_of_hif (State.bellInt_hif _), State.ring_setRing_same]

theorem State.doorbell_inside (hf : s.hif.fatal = false) (he : (s.ring k).en = true) (hi : v.toNat % 4096 < 2 ^ (s.ring k).size) :
    (s.doorbell k v put).ring k = put ((s.ring k).rung v) (v.toNat % 4096) := by
  simp only [State.doorbell, hf, State.ring_bellInt_setRing, he, Nat.not_le.mpr hi, Bool.false_eq_true, if_false, Bool.not_true,
    State.ring_setRing_same, Ring.rung]

theorem State.doorbell_disabled (hf : s.hif.fatal = false) (he : (s.ring k).en = false) (hi : v.toNat % 4096 < 2 ^ (s.ring k).size) :
    (s.doorbell k v put).ring k = (s.ring k).rung v := by
  simp only [State.doorbell, hf, State.ring_bellInt_setRing, he, Nat.not_le.mpr hi, Bool.false_eq_true, if_false, Bool.not_false,
    if_true, Ring.rung]

theorem State.doorbell_beyond (hf : s.hif.fatal = false) (hi : 2 ^ (s.ring k).size ≤ v.toNat % 4096) :
    (s.doorbell k v put).ring k = { (s.ring k).rung v with stopped := true } ∧ (s.doorbell k v put).hif.dberr = true ∧
      (s.doorbell k v put).hif.errRing = BitVec.ofNat 4 k := by
  simp only [State.doorbell, hf, State.ring_bellInt_setRing, hi, Bool.false_eq_true, if_false, if_true, Ring.rung, State.raise_hif]
  refine ⟨?_, trivial, trivial⟩
  rw [State.ring_of_hif (State.raise_hif _ _ _ _ _)]
  exact State.ring_setRing_same _ k _

end

/-! ### Enabling a ring (R355, R358) -/

/-- A ring that is enabled starts empty, in phase 1 and not stopped. -/
theorem State.cfgWrite_enables {s : State} {k : Nat} {v : Word} (hd : (s.ring k).en = false) (hv : v.getLsbD 0 = true) :
    ∃ r, (s.cfgWrite k v).ring k = r ∧ r.en = true ∧ r.head = 0 ∧ r.tail = 0 ∧ r.phase = true ∧ r.stopped = false ∧
      (s.cfgWrite k v).hif.busMaster = true := by
  simp only [State.cfgWrite, hd, hv, Bool.false_and, Bool.false_eq_true, if_false, if_true, Bool.not_false, Bool.and_self,
    Bool.true_and]
  by_cases h : k = 8
  · subst h
    exact ⟨_, rfl, rfl, rfl, rfl, rfl, rfl, rfl⟩
  · simp only [h, if_false]
    exact ⟨_, State.ring_setRing_same s k _, rfl, rfl, rfl, rfl, rfl, trivial⟩

/-! ### Messages (R373) -/

theorem State.message_sent {s : State} {v : Nat} (h : s.hostHere = true) (hm : (tget msixDflt s.hif.msix v).mask = false) :
    s.message v = s.emit (.msix v (tget msixDflt s.hif.msix v).addr.toNat (tget msixDflt s.hif.msix v).data) := by
  simp only [State.message, h, hm, Bool.not_true, Bool.false_eq_true, if_false]

/-- A message changes the MSI-X table and what left the device, and nothing else. -/
theorem State.message_frame (s : State) (v : Nat) :
    s.message v = { s with hif := { s.hif with msix := (s.message v).hif.msix }, out := (s.message v).out } := by
  simp only [State.message]
  split_ifs <;> rfl

theorem State.message_cqRing (s : State) (v q : Nat) : (s.message v).cqRing q = s.cqRing q := by
  rw [State.message_frame]
  rfl

theorem State.mem_message_out {s : State} {o : Out} (v : Nat) (h : o ∈ s.out) : o ∈ (s.message v).out := by
  unfold State.message
  dsimp only
  split_ifs
  · exact h
  · exact h
  · exact List.mem_cons_of_mem _ h

/-! ### The reset of the host as a master (R374) -/

@[simp] theorem State.abortMaster_hif (s : State) (m : BitVec 11) : (s.abortMaster m).hif = s.hif := by
  unfold State.abortMaster
  dsimp only
  split_ifs
  · rfl
  · exact State.raise_hif _ _ _ _ _

theorem foldl_pendInt_hif (l : List Nat) (k : Nat) (s : State) : (l.foldl (fun s p => s.pendInt p k) s).hif = s.hif :=
  foldl_keeps State.hif (fun s p => s.pendInt p k) (fun _ _ => rfl) l s

@[simp] theorem State.mbxReset_hif (s : State) (code : Nat) : (s.mbxReset code).hif = s.hif := by
  refine foldl_keeps State.hif _ (fun t c => ?_) (List.range 64) s
  dsimp only
  split_ifs
  · rfl
  · rfl
  · rw [foldl_pendInt_hif]; rfl
  · rfl
  · rfl

/-! ### Completions, events and telemetry (R362, R368, R372) -/

section
variable {s : State} {q : Nat} {c : Compl}

theorem completionPost_nothing (h : s.hif.compl.find? (fun c => decide (c.sq = q)) = none) : completionPost s q = s := by
  simp only [completionPost, h]

/-- The state in which completion `c` of queue `q` is no longer waiting. -/
def State.complTaken (s : State) (q : Nat) (c : Compl) : State :=
  { (s.setBusy q false) with hif := { (s.setBusy q false).hif with
    compl := s.hif.compl.filter (fun d => decide (d ≠ c)), cut := s.hif.cut.filter (fun k => decide (k ≠ q)) } }

theorem State.complTaken_sqBusy (s : State) (q : Nat) (c : Compl) : (s.complTaken q c).sqBusy q = false :=
  tget_tput_same s.hif.busy q false

theorem completionPost_waits (h : s.hif.compl.find? (fun c => decide (c.sq = q)) = some c) (hcut : s.hif.cut.contains q = false)
    (hen : (s.cqRing q).en = true) (hst : (s.cqRing q).stopped = false) (hh : s.hostHere = false) : completionPost s q = s := by
  simp only [completionPost, h, hcut, hen, hst, hh, Bool.not_true, Bool.or_self, Bool.not_false, Bool.and_self, if_true]

theorem completionPost_posts (h : s.hif.compl.find? (fun c => decide (c.sq = q)) = some c) (hcut : s.hif.cut.contains q = false)
    (hen : (s.cqRing q).en = true) (hst : (s.cqRing q).stopped = false) (hh : s.hostHere = true) :
    completionPost s q = (((((s.complTaken q c).emits c.dma).emit
      (.dma ((s.cqRing q).base + 16 * (s.cqRing q).tail) (c.bytes (s.cqRing q).phase))).setCq q (s.cqRing q).push).message
        (s.cqRing q).vector.toNat) := by
  simp only [completionPost, h, hcut, hen, hst, hh, Bool.not_true, Bool.or_self, Bool.not_false, Bool.false_eq_true, if_false,
    Bool.and_false, State.complTaken]

theorem completionPost_drops (h : s.hif.compl.find? (fun c => decide (c.sq = q)) = some c)
    (hg : s.hif.cut.contains q = true ∨ (s.cqRing q).en = false ∨ (s.cqRing q).stopped = true) :
    completionPost s q = (s.complTaken q c).dropCompl c := by
  have hgone : (s.hif.cut.contains q || !(s.cqRing q).en || (s.cqRing q).stopped) = true := by
    rw [Bool.or_eq_true, Bool.or_eq_true, Bool.not_eq_true', or_assoc]
    exact hg
  simp only [completionPost, h, hgone, Bool.not_true, Bool.false_and, Bool.false_eq_true, if_false, if_true, State.complTaken]

theorem State.emits_hif (s : State) (l : List Out) : (s.emits l).hif = s.hif := by rw [State.emits_eq]

theorem completionPost_posts_effects (h : s.hif.compl.find? (fun c => decide (c.sq = q)) = some c) (hcut : s.hif.cut.contains q = false)
    (hen : (s.cqRing q).en = true) (hst : (s.cqRing q).stopped = false) (hh : s.hostHere = true) :
    (completionPost s q).cqRing q = (s.cqRing q).push ∧ (completionPost s q).sqBusy q = false ∧
      (completionPost s q).hif.compl = s.hif.compl.filter (fun d => decide (d ≠ c)) ∧
      .dma ((s.cqRing q).base + 16 * (s.cqRing q).tail) (c.bytes (s.cqRing q).phase) ∈ (completionPost s q).out := by
  rw [completionPost_posts h hcut hen hst hh]
  refine ⟨?_, ?_, ?_, State.mem_message_out _ (List.mem_cons_self ..)⟩
  · rw [State.message_cqRing, State.cqRing_setCq_same]
  · rw [State.message_frame]
    simp only [State.sqBusy, State.setCq, State.emit_hif, State.emits_hif]
    exact State.complTaken_sqBusy s q c
  · rw [State.message_frame]
    simp only [State.setCq, State.emit_hif, State.emits_hif]
    rfl

theorem completionPost_drops_effects (h : s.hif.compl.find? (fun c => decide (c.sq = q)) = some c)
    (hg : s.hif.cut.contains q = true ∨ (s.cqRing q).en = false ∨ (s.cqRing q).stopped = true) :
    (completionPost s q).cqRing q = s.cqRing q ∧ (completionPost s q).sqBusy q = false ∧
      (completionPost s q).hif.compl = s.hif.compl.filter (fun d => decide (d ≠ c)) := by
  rw [completionPost_drops h hg]
  simp only [State.cqRing, State.sqBusy, State.dropCompl, State.raise_hif]
  exact ⟨rfl, State.complTaken_sqBusy s q c, rfl⟩

end

section
variable {s : State}

theorem State.moveEvents_closed (h : s.evtOpen = false) (n : Nat) : s.moveEvents n = (0, s) := by
  cases n with
  | zero => rfl
  | succ n => simp only [State.moveEvents, h, Bool.not_false, if_true]

theorem State.moveEvents_none (hq : s.ev.q = []) (hl : s.ev.lost = none) (n : Nat) : s.moveEvents n = (0, s) := by
  cases n with
  | zero => rfl
  | succ n => simp only [State.moveEvents, State.popEvent, hq, hl, ite_self]

/-- The state after event `e`, the only one that waits, went to the event ring. -/
def State.eventMoved (s : State) (e : Event) : State :=
  ({ s with ev := { s.ev with q := [] } }.emit
    (.dma (s.hif.evt.base + 32 * s.hif.evt.tail) (eventBytes e s.hif.evt.phase 0))).setRing 8 s.hif.evt.push

theorem State.moveEvents_one {e : Event} (ho : s.evtOpen = true) (hq : s.ev.q = [e]) (hl : s.ev.lost = none) (n : Nat) :
    s.moveEvents (n + 1) = (1, s.eventMoved e) := by
  have hrest := State.moveEvents_none (s := s.eventMoved e) rfl hl n
  simp only [State.moveEvents, ho, Bool.not_true, Bool.false_eq_true, if_false, State.popEvent, hq]
  change (((s.eventMoved e).moveEvents n).1 + 1, ((s.eventMoved e).moveEvents n).2) = _
  rw [hrest]

theorem eventDeliver_closed (h : s.evtOpen = false) : eventDeliver s = s := by
  simp only [eventDeliver, State.moveEvents_closed h, if_true]

theorem eventDeliver_delivers {e : Event} (ho : s.evtOpen = true) (hq : s.ev.q = [e]) (hl : s.ev.lost = none) :
    (eventDeliver s).ev.q = [] ∧ (eventDeliver s).hif.evt = s.hif.evt.push ∧
      .dma (s.hif.evt.base + 32 * s.hif.evt.tail) (eventBytes e s.hif.evt.phase 0) ∈ (eventDeliver s).out := by
  simp only [eventDeliver, State.moveEvents_one ho hq hl, Nat.one_ne_zero, if_false]
  refine ⟨?_, ?_, State.mem_message_out _ ?_⟩
  · rw [State.message_frame]
    split_ifs <;> rfl
  · rw [State.message_frame]
    split_ifs <;> rfl
  · split_ifs
    · exact List.mem_cons_self ..
    · exact List.mem_cons_self ..

theorem telemetryRecord_skips (ht : s.hif.telem.on = true) (he : s.hif.tel.en = true) (hh : s.hostHere = true)
    (hf : ringFull s.hif.tel = true) : telemetryRecord s = s.setTelem { s.hif.telem with skipped := s.hif.telem.skipped + 1 } := by
  simp only [telemetryRecord, ht, he, hh, hf, Bool.not_true, Bool.or_self, Bool.false_eq_true, if_false, Bool.true_or, if_true]

theorem telemetryRecord_writes (ht : s.hif.telem.on = true) (he : s.hif.tel.en = true) (hh : s.hostHere = true)
    (hf : ringFull s.hif.tel = false) (hs : s.hif.tel.stopped = false) :
    (telemetryRecord s).hif.tel = s.hif.tel.push ∧ (telemetryRecord s).hif.telem.seq = s.hif.telem.seq + 1 ∧
      .dma (s.hif.tel.base + 128 * s.hif.tel.tail) s.teleRecord ∈ (telemetryRecord s).out := by
  simp only [telemetryRecord, ht, he, hh, hf, hs, Bool.not_true, Bool.or_self, Bool.false_eq_true, if_false]
  split_ifs
  · refine ⟨?_, ?_, State.mem_message_out _ (List.mem_cons_self ..)⟩
    · rw [State.message_frame]; rfl
    · rw [State.message_frame]; rfl
  · exact ⟨rfl, rfl, List.mem_cons_self ..⟩

end

/-! ### Host resets, D3hot and MSI-X (R373–R375) -/

theorem hostReset_hif (s : State) (r : HostReset) :
    (hostReset s r).hif = { hifReset with
      busy := s.hif.busy, compl := s.hif.compl, cut := (List.range 4).filter (fun q => tget flagDflt s.hif.busy q) } := by
  simp only [hostReset, State.tally_hif, State.raise_hif, State.mbxReset_hif, State.abortMaster_hif, State.holdEvents]

theorem d3hotEntry_hif (s : State) : (d3hotEntry s).hif = { s.hif with d3 := true } := by
  unfold d3hotEntry
  split
  case isTrue h => exact (congrArg (fun b => { s.hif with d3 := b }) h :)
  case isFalse => rw [State.abortMaster_hif]

section
variable {s : State} {v : Nat}

/-- The state in which entry `v` of the MSI-X table is unmasked with nothing pending. -/
def State.msixOpen (s : State) (v : Nat) : State :=
  { s with hif := { s.hif with msix := tput msixDflt s.hif.msix v { tget msixDflt s.hif.msix v with mask := false, pend := false } } }

theorem State.msixOpen_entry (s : State) (v : Nat) :
    tget msixDflt (s.msixOpen v).hif.msix v = { tget msixDflt s.hif.msix v with mask := false, pend := false } :=
  tget_tput_same s.hif.msix v _

theorem msixUnmask_quiet (hv : v < 64) (hf : s.hif.fatal = false) (hp : (tget msixDflt s.hif.msix v).pend = false) :
    msixUnmask s v = s.msixOpen v := by
  simp only [msixUnmask, Nat.not_le.mpr hv, hf, decide_false, Bool.or_self, Bool.false_eq_true, if_false, hp, State.msixOpen]

theorem msixUnmask_pending (hv : v < 64) (hf : s.hif.fatal = false) (hp : (tget msixDflt s.hif.msix v).pend = true) :
    msixUnmask s v = (s.msixOpen v).message v := by
  simp only [msixUnmask, Nat.not_le.mpr hv, hf, decide_false, Bool.or_self, Bool.false_eq_true, if_false, hp, if_true, State.msixOpen]

theorem State.msixOpen_message_out (hh : s.hostHere = true) : ((s.msixOpen v).message v).out =
    .msix v (tget msixDflt s.hif.msix v).addr.toNat (tget msixDflt s.hif.msix v).data :: s.out := by
  have hentry := s.msixOpen_entry v
  rw [State.message_sent (s := s.msixOpen v) hh (by rw [hentry]), hentry]
  rfl

theorem msixUnmask_entry (hv : v < 64) (hf : s.hif.fatal = false) :
    tget msixDflt (msixUnmask s v).hif.msix v = { tget msixDflt s.hif.msix v with mask := false, pend := false } := by
  have hentry := s.msixOpen_entry v
  cases hp : (tget msixDflt s.hif.msix v).pend with
  | false => rw [msixUnmask_quiet hv hf hp, hentry]
  | true =>
    rw [msixUnmask_pending hv hf hp]
    by_cases hh : (s.msixOpen v).hostHere = true
    · rw [State.message_sent hh (by rw [hentry]), State.emit_hif, hentry]
    · simp only [State.message, hh, Bool.not_false, if_true, hentry]

end

end Sys2Proof.Machine
end

section
/-! The statements about the host interface, settled. -/

namespace Sys2Proof.Machine
open Sys2Proof

/-- Settles O51: each command of the list answers what the first failing check of its entry says (`checksFirst_of_hostRow`). -/
theorem hostCommandsAreCheckedBeforeTheyRun : Obligations.HostCommandsAreCheckedBeforeTheyRun := by
  unfold Obligations.HostCommandsAreCheckedBeforeTheyRun
  refine ⟨fun c op w e s hrow hr => ?_, fun e op s hr hop ht => exec_of_live hr rfl (invalidOpcode_answers hop ht)⟩
  obtain ⟨t, he, huntaken, hunclean, hforbidden⟩ := checksFirst_of_hostRow hrow s
  exact ⟨fun ht => exec_of_live hr he (huntaken ht), fun ht hc => exec_of_live hr he (hunclean ht hc),
    fun ht hc ha => exec_of_live hr he (hforbidden ht hc ha)⟩

/-- Settles O52: each answer is that of its command above; of ATTEST and SNAPSHOT_READ the state is what `State.attested` and
`State.emits_eq` say. -/
theorem hostCommandsAnswerTheHost : Obligations.HostCommandsAnswerTheHost := by
  unfold Obligations.HostCommandsAnswerTheHost
  intro s e hr ht
  refine ⟨?identify, ?queryAll, ?query, ?readLog, ?attest, ?arm, ?read, ?telemetry, ?pacer⟩
  case identify => exact fun hc hok hsgl hl => ⟨exec_of_live hr rfl (identify_writes ht hc hok hsgl hl), State.length_identity _⟩
  case queryAll => exact fun hc hh hok hsgl hl => exec_of_live hr rfl (queryContract_writes_all ht hc hh hok hsgl hl)
  case query =>
    exact fun c hc hh hok hsgl => ⟨fun hn => exec_of_live hr rfl (queryContract_unknown ht hc hh hn),
      fun hn hl => exec_of_live hr rfl (queryContract_writes ht hc hh hok hsgl hn hl)⟩
  case readLog => exact fun hc hok hsgl ho hn hrange => exec_of_live hr rfl (readLog_writes ht hc hok hsgl ho hn hrange)
  case attest =>
    intro _ msg
    have hmsg : msg = (s.takeEntry e.sq).attestMessage e := rfl
    rw [hmsg]
    intro hc ha hid hb hok hsgl hl
    have hexec := exec_of_live (c := .attest e) hr rfl (attest_answers ht hc ha hid hb hok hsgl hl)
    have hrng := (s.takeEntry e.sq).attested_rng e
    have hcompl := (s.takeEntry e.sq).attested_compl e
    have hr0 := (s.takeEntry e.sq).attestCompl_r0 e
    exact ⟨_, (s.takeEntry e.sq).attestCompl e, hexec, hrng, congrArg (· ++ _) hcompl, rfl, rfl, rfl, hr0, rfl⟩
  case arm =>
    exact fun hc => ⟨fun hs => exec_of_live hr rfl (snapshotArm_reserved ht hc hs),
      fun hs h2 h31 h0 => exec_of_live hr rfl (snapshotArm_arms ht hc hs h2 h31 h0)⟩
  case read =>
    refine fun x hc => ⟨fun hn => exec_of_live hr rfl (snapshotRead_none ht hc hn), fun hn hnum hl hlen hok hsgl =>
      ⟨_, exec_of_live hr rfl (snapshotRead_writes ht hc hn hnum hl hlen hok hsgl), rfl, ?_⟩⟩
    exact congrArg State.out (State.emits_eq _ _)
  case telemetry => exact fun hc hb => exec_of_live hr rfl (telemetryCfg_stops ht hc hb)
  case pacer =>
    exact fun hc => ⟨fun ha => exec_of_live hr rfl (pacerCfg_outOfRange ht hc ha),
      fun ha hw hg => exec_of_live hr rfl (pacerCfg_tooNear ht hc ha hw hg),
      fun ha hg hf => exec_of_live hr rfl (pacerCfg_forbidden ht hc ha hg hf),
      fun ha hg hf h0 h5 => exec_of_live hr rfl (pacerCfg_awaits ht hc ha hg hf h0 h5)⟩

/-- Settles O53: of a staged image the state is `State.fwStaged`; an action on a resource answers what `State.claimRes`,
`State.releaseRes` and `State.queryRes` make of it. -/
theorem firmwareAndResourceCommands : Obligations.FirmwareAndResourceCommands := by
  unfold Obligations.FirmwareAndResourceCommands
  intro s e hr ht
  refine ⟨?stage, ?commit, ?resource⟩
  case stage =>
    intro hc ha hb b hin
    refine ⟨fun hv => ?refuses, fun hv hl hok => ?stages⟩
    case refuses => exact exec_of_live hr rfl (fwStage_refuses ht hc ha hb hin hv)
    case stages =>
      have hexec := exec_of_live (c := .fwStage e) hr rfl (fwStage_stages ht hc ha hb hin hv hl hok)
      have hcompl : (((s.takeEntry e.sq).readBuffer e).fwStaged b).hif.compl = s.hif.compl := State.readBuffer_compl _ e
      have himage : (((s.takeEntry e.sq).readBuffer e).fwStaged b).pair.stbyImage = !s.sec.image :=
        congrArg (fun x : Sec => !x.image) (State.readBuffer_sec (s.takeEntry e.sq) e)
      have hout := State.fwStaged_out ((s.takeEntry e.sq).readBuffer e) b
      rw [State.readBuffer_sec] at hout
      exact ⟨_, _, hexec, rfl, himage, hout, congrArg (· ++ _) hcompl, rfl, rfl⟩
  case commit =>
    intro hc ha
    refine ⟨fun h => ?unstaged, fun hs hn h0 hg => ?tooNear, fun hs hn hg => ?commits⟩
    case unstaged => exact exec_of_live hr rfl (fwCommit_unstaged ht hc ha h)
    case tooNear => exact exec_of_live hr rfl (fwCommit_tooNear ht hc ha hs hn h0 hg)
    case commits => exact exec_of_live hr rfl (fwCommit_commits ht hc ha hs hn hg)
  case resource =>
    intro hc
    refine ⟨fun hres ha => ?unknown, fun hres ha hcfg h40 h41 hfree hpins => ?claim,
      fun hres ha h40 h41 => ⟨fun hfree => ?foreign, fun hheld howner hvia hlock => ?release⟩,
      fun hres ha => ⟨fun h => ?held, fun h => ?free⟩⟩
    case unknown => exact exec_of_live hr rfl (resourceClaim_unknown ht hc ha hres)
    case claim => exact exec_of_live hr rfl (resourceClaim_answers ht hc hres ha (State.claimRes_claims h40 h41 hcfg hfree hpins))
    case foreign => exact exec_of_live hr rfl (resourceRelease_answers ht hc hres ha (State.releaseRes_foreign h40 h41 hfree))
    case release =>
      exact exec_of_live hr rfl (resourceRelease_answers ht hc hres ha (State.releaseRes_releases h40 h41 hheld howner hvia hlock))
    case held => exact exec_of_live hr rfl (resourceQuery_answers ht hc hres ha (State.queryRes_held h))
    case free => exact exec_of_live hr rfl (resourceQuery_answers ht hc hres ha (State.queryRes_free h))

end Sys2Proof.Machine
end

section
/-! The statement about the rings of the host interface, settled. -/

namespace Sys2Proof.Machine
open Sys2Proof

/-- Settles O55: a doorbell rings the ring of its number (`State.doorbell_inside`, `_disabled`, `_beyond`), a completion and
an event leave through the ring that takes them, and a host reset and the power states change the interface's registers only. -/
theorem ringsServeTheHost : Obligations.RingsServeTheHost := by
  unfold Obligations.RingsServeTheHost
  intro s q k v hr hq hf i bell
  have hsq : ∀ t : State, t.ring q = t.sqRing q := fun t => t.ring_sq hq
  have hcq : ∀ t : State, t.ring (4 + q) = t.cqRing q := fun t => t.ring_cq hq
  have hsqTail : exec (.sqTail q v) s = .next (s.doorbell q v putTail) := exec_of_live hr rfl (if_pos hq)
  have hcqHead : exec (.cqHead q v) s = .next (s.doorbell (4 + q) v putHead) := exec_of_live hr rfl (if_pos hq)
  refine ⟨?sqIn, ?sqOff, ?sqBeyond, ?cqIn, ?evtIn, ?telIn, ?enable, ?none, ?completion, ?evtClosed, ?evtOpen, ?telemetry, ?reset,
    ?d3in, ?d3out, ?msix⟩
  case sqIn =>
    intro he hi
    have h := State.doorbell_inside (put := putTail) hf ((congrArg Ring.en (hsq s)).trans he) ((hsq s).symm ▸ hi)
    rw [hsq, hsq] at h
    exact ⟨_, hsqTail, h⟩
  case sqOff =>
    intro he hi
    have h := State.doorbell_disabled (put := putTail) hf ((congrArg Ring.en (hsq s)).trans he) ((hsq s).symm ▸ hi)
    rw [hsq, hsq] at h
    exact ⟨_, hsqTail, h⟩
  case sqBeyond =>
    intro hi
    have h := State.doorbell_beyond (put := putTail) hf ((hsq s).symm ▸ hi)
    rw [hsq, hsq] at h
    exact ⟨_, hsqTail, h⟩
  case cqIn =>
    intro he hi
    have h := State.doorbell_inside (put := putHead) hf ((congrArg Ring.en (hcq s)).trans he) ((hcq s).symm ▸ hi)
    rw [hcq, hcq] at h
    exact ⟨_, hcqHead, h⟩
  case evtIn => exact fun he hi => ⟨_, exec_of_live (c := .evtHead v) hr rfl rfl, State.doorbell_inside (k := 8) hf he hi⟩
  case telIn => exact fun he hi => ⟨_, exec_of_live (c := .telemHead v) hr rfl rfl, State.doorbell_inside (k := 9) hf he hi⟩
  case enable =>
    intro hk hd hv
    have hguard : (decide (k ≤ 8) && !s.hif.fatal) = true := by simp [hk, hf]
    obtain ⟨r, hring, hen, hhead, htail, hphase, hstopped, hmaster⟩ := State.cfgWrite_enables hd hv
    have hexec := exec_of_live (c := .ringEnable k v) hr rfl (if_pos hguard)
    rw [← hring] at hen hhead htail hphase hstopped
    exact ⟨_, hexec, hen, hhead, htail, hphase, hstopped, hmaster⟩
  case none => exact fun h => exec_of_live hr rfl (completionPost_nothing h)
  case completion =>
    have hexec := exec_of_live (c := .completionPost q) hr rfl rfl
    exact fun c h => ⟨fun hcut hen hst => ⟨fun hh => exec_of_live hr rfl (completionPost_waits h hcut hen hst hh),
      fun hh => ⟨_, hexec, completionPost_posts_effects h hcut hen hst hh⟩⟩, fun hg => ⟨_, hexec, completionPost_drops_effects h hg⟩⟩
  case evtClosed => exact fun h => exec_of_live hr rfl (eventDeliver_closed h)
  case evtOpen => exact fun e ho hq hl => ⟨_, exec_of_live (c := .eventDeliver) hr rfl rfl, eventDeliver_delivers ho hq hl⟩
  case telemetry =>
    exact fun ht he hh => ⟨fun hfull => exec_of_live hr rfl (telemetryRecord_skips ht he hh hfull),
      fun hroom hst => ⟨_, exec_of_live (c := .telemetryRecord) hr rfl rfl, telemetryRecord_writes ht he hh hroom hst⟩⟩
  case reset =>
    intro r
    refine ⟨_, exec_of_live (c := .hostReset r) hr rfl rfl, ?_⟩
    rw [hostReset_hif]
    exact ⟨rfl, rfl, rfl, rfl, rfl, rfl, rfl, rfl, rfl, rfl⟩
  case d3in =>
    refine ⟨_, exec_of_live (c := .d3hotEntry) hr rfl rfl, ?_⟩
    rw [d3hotEntry_hif]
    exact ⟨rfl, rfl, rfl⟩
  case d3out => exact exec_of_live hr rfl rfl
  case msix =>
    intro hk
    refine ⟨_, exec_of_live (c := .msixUnmask k) hr rfl rfl, msixUnmask_entry hk hf, fun hp hh => ?_, fun hp => ?_⟩
    · rw [msixUnmask_pending hk hf hp, State.msixOpen_message_out hh]
    · rw [msixUnmask_quiet hk hf hp]
      rfl

end Sys2Proof.Machine
end

section
/-! SUPPORT. Mailbox channels: the triggers of the sender and of the receiver, the path between the ends, the accesses over the
fabric, and the bindings (R377–R394). -/

namespace Sys2Proof.Machine
open Sys2Proof

/-! ### The triggers `mbx.wr`, `mbx.go` and `mbx.wait` -/

/-- The mailbox triggers need MBX in `fcap` and have no other check (R174). -/
theorem moveChecks_mbx (p : Nat) {l : Lane} {d : Nat} (hd : d = 0x7B ∨ d = 0x7C ∨ d = 0x7D) (v : Word)
    (hp : l.fcap.perm permMBX = true) : moveChecks p l l [(⟨d, .imm v, none⟩, v)] = none := by
  have hport : portCheck l l ⟨d, .imm v, none⟩ = none := by
    rcases hd with rfl | rfl | rfl <;> simp [portCheck, Mv.reads, within, hp]
  have hunit : unitCheck p l d v = none := by
    rcases hd with rfl | rfl | rfl <;> rfl
  simp only [moveChecks, hport, hunit]

section
variable {s : State} {p : Nat}

/-- A mailbox trigger of a lane with MBX fires on the state as the trigger finds it; none is forbidden in a delay slot. -/
theorem trigger_mbx {d : Nat} (hd : d = 0x7B ∨ d = 0x7C ∨ d = 0x7D) (v : Word) (h : s.Acts p d)
    (hp : (s.laneNow p).fcap.perm permMBX = true) :
    trigger s p d v = (((s.settle p).step2 p d).fire p d v).fireLate p d := by
  have hslot : slotForbidden d = false := by rcases hd with rfl | rfl | rfl <;> rfl
  rw [trigger_acts s p d v h (by rw [hslot, Bool.and_false]) (moveChecks_mbx p hd v hp), State.drainHeld_other _ _ _ _ (by omega)]

theorem exec_mbxWr (v : Word) (h : s.Acts p 0x7B) (hp : (s.laneNow p).fcap.perm permMBX = true) :
    exec (.mbxWr p v) s = .next (mbxWrOp ((s.settle p).step2 p 0x7B) p v) :=
  exec_of_live h.1 rfl (trigger_mbx (.inl rfl) v h hp)

theorem exec_mbxGo (v : Word) (h : s.Acts p 0x7C) (hp : (s.laneNow p).fcap.perm permMBX = true) :
    exec (.mbxGo p v) s = .next (mbxGoOp ((s.settle p).step2 p 0x7C) p v) :=
  exec_of_live h.1 rfl (trigger_mbx (.inr (.inl rfl)) v h hp)

theorem exec_mbxWait (v : Word) (h : s.Acts p 0x7D) (hp : (s.laneNow p).fcap.perm permMBX = true) :
    exec (.mbxWait p v) s = .next (mbxWaitOp ((s.settle p).step2 p 0x7D) p) :=
  exec_of_live h.1 rfl (trigger_mbx (.inr (.inr rfl)) v h hp)

/-- A lane that acts is in no wait when its trigger fires. -/
theorem State.Acts.free {d : Nat} (h : s.Acts p d) :
    (((s.settle p).step2 p d).lane p).mode ≠ .remote ∧ (((s.settle p).step2 p d).lane p).mode ≠ .mbxWait := by
  obtain ⟨_, hstop, _⟩ := h
  have hmode : (((s.settle p).step2 p d).lane p).mode = (s.laneNow p).mode := (congrArg Lane.mode (State.step2_own (s.settle p) p d) :)
  rw [hmode]
  exact Lane.free_of_not_stopped hstop
end

/-! ### The sender's writes (R378, R381, R383–R385) -/

theorem refuses_iff (s : State) (full : Bool) : refuses s full = true ↔ full = true ∨ s.mail.lock = false := by
  simp [refuses]

theorem lenOk_iff (n : Nat) : lenOk n = true ↔ 8 ≤ n ∧ n ≤ 16 := by
  simp [lenOk]

section
variable {u : State} {p : Nat} {v : Word}

theorem mbxWrOp_foreign (h : u.isSender p (chanNo (u.lane p)) = false) : mbxWrOp u p v = u.setNochan p true := by
  simp only [mbxWrOp, h, Bool.not_false, if_true]

theorem mbxGoOp_foreign (h : u.isSender p (chanNo (u.lane p)) = false) : mbxGoOp u p v = u.setNochan p true := by
  simp only [mbxGoOp, h, Bool.not_false, if_true]

variable (hs : u.isSender p (chanNo (u.lane p)) = true) (hd : u.drives p (chanNo (u.lane p)) = true)
include hs hd

/-- A write that the sender's lane drives, with the lane's NOCHAN cleared. -/
theorem mbxWrOp_drives : mbxWrOp u p v =
    if refuses u (u.chan (chanNo (u.lane p))).sFull then
      (u.setNochan p false).setChan (chanNo (u.lane p)) (u.chan (chanNo (u.lane p))).refuse
    else (u.setNochan p false).mpath ⟨chanNo (u.lane p), u.now + 24, .wr (chanWord (u.lane p)) v⟩ := by
  have hd' : (u.setNochan p false).drives p (chanNo (u.lane p)) = true := hd
  simp only [mbxWrOp, hs, hd', Bool.not_true, Bool.false_eq_true, if_false]
  rfl

/-- A GO that the sender's lane drives. -/
theorem mbxGoOp_drives : mbxGoOp u p v =
    if refuses u (u.chan (chanNo (u.lane p))).sFull then
      (u.setNochan p false).setChan (chanNo (u.lane p)) (u.chan (chanNo (u.lane p))).refuse
    else if lenOk (v.extractLsb' 0 5).toNat then
      ((u.setNochan p false).setChan (chanNo (u.lane p)) (u.chan (chanNo (u.lane p))).accept).mpath
        ⟨chanNo (u.lane p), u.now + 24, .go (v.extractLsb' 0 5).toNat (u.chan (chanNo (u.lane p))).epoch⟩
    else (u.setNochan p false).setChan (chanNo (u.lane p)) { u.chan (chanNo (u.lane p)) with badlen := true, sBadlen := true } := by
  have hd' : (u.setNochan p false).drives p (chanNo (u.lane p)) = true := hd
  simp only [mbxGoOp, hs, hd', Bool.not_true, Bool.false_eq_true, if_false]
  cases lenOk (v.extractLsb' 0 5).toNat <;> rfl
end

/-! ### The path (R385, R386, R391) -/

/-- The state with nothing on the mailbox path. -/
def State.pathEmpty (s : State) : State := { s with mail := { s.mail with path := [] } }

section
variable {s : State} {c due : Nat} {k : MKind}

/-- The only item on the path, due and of the kind that is taken, leaves the path and arrives. -/
theorem State.takePath_one {sel : MKind → Bool} (h : s.mail.path = [⟨c, due, k⟩]) (hd : due ≤ s.now) (hk : sel k = true) :
    s.takePath c sel = s.pathEmpty.arrive ⟨c, due, k⟩ := by
  simp only [State.takePath, h, hd, hk, decide_true, Bool.and_self, List.filter_cons, if_true, List.filter_nil, Bool.not_true,
    Bool.false_eq_true, if_false, List.foldl_cons, List.foldl_nil, State.pathEmpty]

theorem State.arrive_wr_refused {w : Nat} {v : Word} (hd : (s.chan c).discardTo ≤ due) (hf : (s.chan c).full = true) :
    s.arrive ⟨c, due, .wr w v⟩ = s.setChan c (s.chan c).refuse := by
  simp only [State.arrive, Nat.not_lt.mpr hd, hf, if_false, if_true]

theorem State.arrive_wr {w : Nat} {v : Word} (hd : (s.chan c).discardTo ≤ due) (hf : (s.chan c).full = false) :
    s.arrive ⟨c, due, .wr w v⟩ = s.setChan c { s.chan c with data := putW (s.chan c).data w v } := by
  simp only [State.arrive, Nat.not_lt.mpr hd, hf, if_false, Bool.false_eq_true]

theorem State.arrive_go_refused {n : Nat} {ep : BitVec 8} (hd : (s.chan c).discardTo ≤ due) (hf : (s.chan c).full = true) :
    s.arrive ⟨c, due, .go n ep⟩ = s.setChan c (s.chan c).refuse := by
  simp only [State.arrive, Nat.not_lt.mpr hd, hf, if_false, if_true]

theorem State.arrive_go {n : Nat} {ep : BitVec 8} (hd : (s.chan c).discardTo ≤ due) (hf : (s.chan c).full = false) :
    s.arrive ⟨c, due, .go n ep⟩ = s.postFull c n ep := by
  simp only [State.arrive, Nat.not_lt.mpr hd, hf, if_false, Bool.false_eq_true]

end

/-- The receiver's interrupt leaves the mailbox block as the post left it. -/
theorem State.postFull_mail (s : State) (c n : Nat) (ep : BitVec 8) : (s.postFull c n ep).mail = (s.setChan c { s.chan c with
    full := true, rFull := true, len := n, msgEpoch := ep, postCnt := sat1 (s.chan c).postCnt }).mail :=
  foldl_keeps State.mail (fun s p => s.pendInt p 0) (fun _ _ => rfl) _ _

theorem State.postFull_chan (s : State) (c n : Nat) (ep : BitVec 8) : (s.postFull c n ep).chan c = { s.chan c with
    full := true, rFull := true, len := n, msgEpoch := ep, postCnt := sat1 (s.chan c).postCnt } := by
  rw [State.chan, State.postFull_mail]
  exact State.chan_setChan_same s c _

/-! ### The receiver's read and wait (R382, R383, R386, R387) -/

/-- A word as the receiver reads it. -/
theorem chanRead_eq (ch : Chan) (full : Bool) (w : Nat) :
    chanRead ch full w = if full = true ∧ ch.len ≤ w then 0 else getW ch.data w := by
  simp only [chanRead, Bool.and_eq_true, decide_eq_true_eq]

section
variable {s : State} {p : Nat}

theorem mbxRdRead_reads (hs : (s.laneNow p).stopped = false) (hp : (s.laneNow p).fcap.perm permMBX = true) :
    mbxRdRead s p = (mbxRdEffect (s.settle p) p).answer 0 (mbxRd (s.settle p) p) := by
  simp only [State.laneNow] at hs hp
  simp only [mbxRdRead, hs, hp, Bool.false_eq_true, if_false, Bool.not_true]
end

section
variable {u : State} {p : Nat}

theorem mbxRd_foreign (h : u.isReceiver p (chanNo (u.lane p)) = false) : mbxRd u p = 0 := by
  simp only [mbxRd, h, Bool.false_eq_true, if_false]

theorem mbxRd_receiver (h : u.isReceiver p (chanNo (u.lane p)) = true) : mbxRd u p =
    chanRead (u.chan (chanNo (u.lane p))) (u.chan (chanNo (u.lane p))).rFull (chanWord (u.lane p)) := by
  simp only [mbxRd, h, if_true]

theorem mbxRdEffect_foreign (h : u.isReceiver p (chanNo (u.lane p)) = false) : mbxRdEffect u p = u.setNochan p true := by
  simp only [mbxRdEffect, h, Bool.not_false, if_true]

theorem mbxRdEffect_releases (h : u.isReceiver p (chanNo (u.lane p)) = true) (hf : (u.chan (chanNo (u.lane p))).rFull = true)
    (hw : chanWord (u.lane p) + 1 = (u.chan (chanNo (u.lane p))).len) : mbxRdEffect u p =
      ((((u.setNochan p false).setChan (chanNo (u.lane p)) { u.chan (chanNo (u.lane p)) with rFull := false }).mpath
        ⟨chanNo (u.lane p), u.now + 24, .release⟩).mpath ⟨chanNo (u.lane p), u.now + 48, .viewClear⟩) := by
  simp only [mbxRdEffect, h, Bool.not_true, Bool.false_eq_true, if_false, State.setNochan, State.chan_setLane, hf, hw, decide_true,
    Bool.and_self, if_true]
  rfl

theorem mbxRdEffect_keeps (h : u.isReceiver p (chanNo (u.lane p)) = true)
    (hk : (u.chan (chanNo (u.lane p))).rFull = false ∨ chanWord (u.lane p) + 1 ≠ (u.chan (chanNo (u.lane p))).len) :
    mbxRdEffect u p = u.setNochan p false := by
  have hguard : ((u.chan (chanNo (u.lane p))).rFull && decide (chanWord (u.lane p) + 1 = (u.chan (chanNo (u.lane p))).len)) = false := by
    rcases hk with hk | hk <;> simp [hk]
  simp only [mbxRdEffect, h, Bool.not_true, Bool.false_eq_true, if_false, State.setNochan, State.chan_setLane]
  exact if_neg (Bool.eq_false_iff.mp hguard)

theorem mbxWaitOp_foreign (h : u.isReceiver p (chanNo (u.lane p)) = false) : mbxWaitOp u p = u.setNochan p true := by
  simp only [mbxWaitOp, h, Bool.not_false, if_true]

theorem mbxWaitOp_there (h : u.isReceiver p (chanNo (u.lane p)) = true) (hf : (u.chan (chanNo (u.lane p))).rFull = true) :
    mbxWaitOp u p = u.setNochan p false := by
  simp only [mbxWaitOp, h, Bool.not_true, Bool.false_eq_true, if_false, State.setNochan, State.chan_setLane, hf, if_true]

theorem mbxWaitOp_waits (h : u.isReceiver p (chanNo (u.lane p)) = true) (hf : (u.chan (chanNo (u.lane p))).rFull = false)
    (hr : (u.lane p).mode ≠ .remote) (hm : (u.lane p).mode ≠ .mbxWait) :
    mbxWaitOp u p = (u.setNochan p false).setLane p { u.lane p with nochan := false, mode := .mbxWait } := by
  simp only [mbxWaitOp, h, Bool.not_true, Bool.false_eq_true, if_false, State.setNochan, State.chan_setLane, hf,
    State.lane_setLane_same]
  rw [Lane.enterWait_of_free (by exact hr) (by exact hm)]
end

/-! ### The report of an answer (R300, R301) -/

theorem State.reported_chan (s : State) (m : BitVec 11) (t a c : Nat) : (s.reported m t a).chan c = s.chan c := rfl
theorem State.reported_mail (s : State) (m : BitVec 11) (t a : Nat) : (s.reported m t a).mail = s.mail := rfl
theorem State.reported_lanes (s : State) (m : BitVec 11) (t a : Nat) : (s.reported m t a).lanes = s.lanes := rfl

/-! ### The fabric (R392) and the bindings (R377, R378) -/

section
variable {s : State} {m : BitVec 11} {c w : Nat} {be : BitVec 4} {v : Word} (hc : c < 64)

theorem fabricGo_foreign (h : (s.chan c).bindV = false ∨ s.masterIs m (s.chan c).sender.toNat = false) :
    fabricGo s m c be v = s.answer 2 0 := by
  have hguard : (decide (c < 64) && (s.chan c).bindV && s.masterIs m (s.chan c).sender.toNat) = false := by
    rcases h with h | h <;> simp [h]
  simp only [fabricGo, hguard, Bool.not_false, if_true]

theorem fabricDataRead_foreign (h : (s.chan c).bindV = false ∨ s.masterIs m (s.chan c).receiver.toNat = false) :
    fabricDataRead s m c w be = s.answer 2 0 := by
  have hguard : (decide (c < 64) && (s.chan c).bindV && s.masterIs m (s.chan c).receiver.toNat) = false := by
    rcases h with h | h <;> simp [h]
  simp only [fabricDataRead, hguard, Bool.not_false, if_true]

include hc

theorem fabricGo_posts (hb : (s.chan c).bindV = true) (hm : s.masterIs m (s.chan c).sender.toNat = true)
    (hl : s.mail.lock = true) (hf : (s.chan c).full = false) (hn : 8 ≤ (v.extractLsb' 0 5).toNat ∧ (v.extractLsb' 0 5).toNat ≤ 16) :
    fabricGo s m c 0xF v =
      (((s.setChan c (s.chan c).accept).postFull c (v.extractLsb' 0 5).toNat (s.chan c).epoch).answer 0 0) := by
  simp only [fabricGo, hb, hm, hc, decide_true, Bool.and_self, Bool.not_true, Bool.false_eq_true, if_false, ne_eq, not_true_eq_false,
    refuses, hf, hl, Bool.or_self, (lenOk_iff _).mpr hn]

theorem fabricDataRead_releases (hb : (s.chan c).bindV = true) (hm : s.masterIs m (s.chan c).receiver.toNat = true)
    (hf : (s.chan c).full = true) (hw : w + 1 = (s.chan c).len) : fabricDataRead s m c w 0xF =
      ((s.setChan c { s.chan c with full := false, rFull := false, sFull := false }).answer 0
        (chanRead (s.chan c) (s.chan c).full w)) := by
  simp only [fabricDataRead, hb, hm, hc, decide_true, Bool.and_self, Bool.not_true, Bool.false_eq_true, if_false, hf, hw, if_true]

theorem fabricDataRead_keeps (hb : (s.chan c).bindV = true) (hm : s.masterIs m (s.chan c).receiver.toNat = true)
    (hk : (s.chan c).full = false ∨ w + 1 ≠ (s.chan c).len ∨ be ≠ 0xF) : fabricDataRead s m c w be =
      s.answer 0 (chanRead (s.chan c) (s.chan c).full w) := by
  have hguard : ((s.chan c).full && decide (w + 1 = (s.chan c).len) && decide (be = 0xF)) = false := by
    rw [Bool.and_eq_false_iff, Bool.and_eq_false_iff, decide_eq_false_iff_not, decide_eq_false_iff_not, or_assoc]
    exact hk
  simp only [fabricDataRead, hb, hm, hc, decide_true, Bool.and_self, Bool.not_true, Bool.false_eq_true, if_false, hguard]
end

section
variable {s : State} {m : BitVec 11} {c : Nat} {v : Word}

theorem bindOp_foreign (hm : isStwMaster m = false) : bindOp s m c v = s.answer 2 0 := by
  simp only [bindOp, hm, Bool.not_false, if_true]

theorem mbxLockOp_foreign (hm : isStwMaster m = false) : mbxLockOp s m v = s.answer 2 0 := by
  simp only [mbxLockOp, hm, Bool.not_false, if_true]

variable (hm : isStwMaster m = true)
include hm

theorem bindOp_locked (hl : s.mail.lock = true) : bindOp s m c v = s.answer 0 0 := by
  simp only [bindOp, hm, hl, Bool.not_true, Bool.false_eq_true, if_false, if_true]

theorem mbxLockOp_locked (hl : s.mail.lock = true) : mbxLockOp s m v = s.answer 0 0 := by
  simp only [mbxLockOp, hm, hl, Bool.not_true, Bool.false_eq_true, if_false, Bool.true_or, if_true]

theorem bindOp_binds (hl : s.mail.lock = false)
    (hv : v.getLsbD 31 = true → bindBad s c (v.extractLsb' 16 11).toNat (v.extractLsb' 0 11).toNat = false) : bindOp s m c v =
      (s.setChan c { s.chan c with bindV := v.getLsbD 31, sender := v.extractLsb' 16 11, receiver := v.extractLsb' 0 11 }).answer 0 0 := by
  have hbad : (v.getLsbD 31 && bindBad s c (v.extractLsb' 16 11).toNat (v.extractLsb' 0 11).toNat) = false := by
    cases h : v.getLsbD 31 with
    | false => rfl
    | true => rw [hv h]; rfl
  simp only [bindOp, hm, hl, hbad, Bool.not_true, Bool.false_eq_true, if_false]

theorem mbxLockOp_locks (hl : s.mail.lock = false) (hv : v.getLsbD 0 = true) : mbxLockOp s m v =
    (({ s with mail := { s.mail with lock := true } }).extend 3 ((List.range 64).flatMap (fun c => leW (bindWord (s.chan c))))).answer 0 0 := by
  simp only [mbxLockOp, hm, hl, hv, Bool.not_true, Bool.false_eq_true, if_false, Bool.or_self]
end

end Sys2Proof.Machine
end

section
/-! The statements about mailboxes, settled. -/

namespace Sys2Proof.Machine
open Sys2Proof

/-- Settles O34, from the writes and the GO that the sender's lane drives (`mbxWrOp_drives`, `mbxGoOp_drives`). -/
theorem mailboxWritesAndPostsTravel : Obligations.MailboxWritesAndPostsTravel := by
  unfold Obligations.MailboxWritesAndPostsTravel
  refine fun s p v hp => ⟨fun h => ?write, fun h => ?go⟩
  case write =>
    have hexec := exec_mbxWr v h hp
    refine ⟨fun hs => ?_, fun hs hd hr => ?_, fun hs hd hf hl => ?_⟩
    · rw [hexec, mbxWrOp_foreign hs]
    · rw [hexec, mbxWrOp_drives hs hd, if_pos ((refuses_iff _ _).mpr hr)]
      rfl
    · rw [hexec, mbxWrOp_drives hs hd, if_neg (by simp [refuses_iff, hf, hl])]
  case go =>
    have hexec := exec_mbxGo v h hp
    refine ⟨fun hs => ?_, fun hs hd hr => ?_, fun hs hd hf hl hn => ?_, fun hs hd hf hl h8 h16 => ?_⟩
    · rw [hexec, mbxGoOp_foreign hs]
    · rw [hexec, mbxGoOp_drives hs hd, if_pos ((refuses_iff _ _).mpr hr)]
      rfl
    · rw [hexec, mbxGoOp_drives hs hd, if_neg (by simp [refuses_iff, hf, hl]), if_neg (mt (lenOk_iff _).mp hn)]
    · rw [hexec, mbxGoOp_drives hs hd, if_neg (by simp [refuses_iff, hf, hl]), if_pos ((lenOk_iff _).mpr ⟨h8, h16⟩)]
      rfl

/-- Settles O35, from the one due item that leaves the path and arrives (`State.takePath_one`), and from what a read of `mbx.rd`
does besides (`mbxRdEffect_releases`, `_keeps`). -/
theorem mailboxDeliveryAndRelease : Obligations.MailboxDeliveryAndRelease := by
  unfold Obligations.MailboxDeliveryAndRelease
  refine ⟨fun s c due w n v ep hr hd => ?path, fun s p hr hs hp => ?read⟩
  case path =>
    intro ch s0
    refine ⟨fun h hd' hf => ?_, fun h hd' hf => ?_, fun h hd' hf => ?_, fun h hd' hf => ?_, fun h => ?_, fun h => ?_⟩
    · exact exec_of_live (c := .mbxPostArrive c) hr rfl
        ((State.takePath_one h hd rfl).trans (State.arrive_wr (s := s.pathEmpty) hd' hf))
    · exact exec_of_live (c := .mbxPostArrive c) hr rfl
        ((State.takePath_one h hd rfl).trans (State.arrive_wr_refused (s := s.pathEmpty) hd' hf))
    · have hpost := (State.takePath_one (sel := MKind.isPost) h hd rfl).trans (State.arrive_go (s := s.pathEmpty) hd' hf)
      exact ⟨_, exec_of_live (c := .mbxPostArrive c) hr rfl hpost, congrArg Mail.path (State.postFull_mail s.pathEmpty c n ep),
        State.postFull_chan s.pathEmpty c n ep⟩
    · exact exec_of_live (c := .mbxPostArrive c) hr rfl ((State.takePath_one h hd rfl).trans (State.arrive_go_refused (s := s.pathEmpty) hd' hf))
    · exact exec_of_live (c := .mbxReleaseArrive c) hr rfl (State.takePath_one h hd rfl)
    · exact exec_of_live (c := .mbxReleaseArrive c) hr rfl (State.takePath_one h hd rfl)
  case read =>
    have hexec := exec_of_live (c := .mbxRdRead p) hr rfl (mbxRdRead_reads hs hp)
    intro u c w ch v
    refine ⟨fun hrec => ?_, fun hrec hf hw => ?_, fun hrec hk => ?_⟩
    · rw [hexec, mbxRdEffect_foreign hrec, mbxRd_foreign hrec]
    · rw [hexec, mbxRdEffect_releases hrec hf hw, mbxRd_receiver hrec, chanRead_eq]
      rfl
    · rw [hexec, mbxRdEffect_keeps hrec hk, mbxRd_receiver hrec, chanRead_eq]
      rfl

/-- Settles O36: a lane that acts is in no other wait (`State.Acts.free`), so it enters this one, and MBX_WAIT_END tests its view. -/
theorem mailboxWaitHoldsTheReceiver : Obligations.MailboxWaitHoldsTheReceiver := by
  unfold Obligations.MailboxWaitHoldsTheReceiver
  refine fun s p v => ⟨fun h hp => ?wait, ?waitEnd⟩
  case wait =>
    have hexec := exec_mbxWait v h hp
    obtain ⟨hremote, hmbx⟩ := h.free
    refine ⟨fun hrec => ?_, fun hrec hf => ?_, fun hrec hf => ?_⟩
    · rw [hexec, mbxWaitOp_foreign hrec]
    · rw [hexec, mbxWaitOp_there hrec hf]
    · rw [mbxWaitOp_waits hrec hf hremote hmbx] at hexec
      exact ⟨_, hexec, (State.laneOnly_setLane _ p _).trans (State.laneOnly_setLane _ p _)⟩
  case waitEnd =>
    intro u l hr hm
    have hmode : ((u.lane p).mode == .mbxWait) = true := by rw [beq_iff_eq]; exact hm
    refine ⟨fun hf => exec_of_live (c := .mbxWaitEnd p) hr rfl ?_, fun hf => exec_of_live (c := .mbxWaitEnd p) hr rfl ?_⟩
    · exact if_pos ((Bool.and_eq_true _ _).mpr ⟨hmode, hf⟩)
    · exact if_neg (fun h => Bool.false_ne_true (hf.symm.trans ((Bool.and_eq_true _ _).mp h).2))

/-- Settles O37: who the bound identity is decides every fabric access, and MBX_LOCK every write of a binding. -/
theorem mailboxFabricAndBindings : Obligations.MailboxFabricAndBindings := by
  unfold Obligations.MailboxFabricAndBindings
  refine ⟨fun s m c w be v hr hc => ?fabric, fun s m c v hr => ?bindings⟩
  case fabric =>
    intro ch n x
    have hx : x = chanRead ch ch.full w := (chanRead_eq ch ch.full w).symm
    refine ⟨fun h => ?_, fun hb hm hl hf h8 h16 => ?_, fun h => ?_, fun hb hm hf hw => ?_, fun hb hm hk => ?_⟩
    · exact exec_of_live (c := .mbxFabricGo m c be v) hr rfl (by rw [fabricGo_foreign h])
    · have hexec := exec_of_live (c := .mbxFabricGo m c 0xF v) hr rfl (by rw [fabricGo_posts hc hb hm hl hf ⟨h8, h16⟩])
      refine ⟨_, hexec, rfl, ?_⟩
      rw [State.reported_chan, State.chan_answer, State.postFull_chan, State.chan_setChan_same]
      exact ⟨rfl, rfl, rfl, rfl, rfl, rfl, rfl⟩
    · exact exec_of_live (c := .mbxFabricRead m c w be) hr rfl (by rw [fabricDataRead_foreign h])
    · rw [hx]
      exact exec_of_live (c := .mbxFabricRead m c w 0xF) hr rfl
        (by rw [fabricDataRead_releases hc hb hm hf hw, State.reported_ok])
    · rw [hx]
      exact exec_of_live (c := .mbxFabricRead m c w be) hr rfl (by rw [fabricDataRead_keeps hc hb hm hk, State.reported_ok])
  case bindings =>
    refine ⟨fun hm hl => ⟨?_, ?_⟩, fun hm hl hv => ?_, fun hm hl hv => ?_, fun hm => ⟨?_, ?_⟩⟩
    · exact exec_of_live (c := .bind m c v) hr rfl (by rw [bindOp_locked hm hl, State.reported_ok])
    · exact exec_of_live (c := .mbxLock m v) hr rfl (by rw [mbxLockOp_locked hm hl, State.reported_ok])
    · exact exec_of_live (c := .bind m c v) hr rfl (by rw [bindOp_binds hm hl hv, State.reported_ok])
    · have hexec := exec_of_live (c := .mbxLock m v) hr rfl rfl
      rw [mbxLockOp_locks hm hl hv] at hexec
      refine ⟨_, hexec, ?_⟩
      rw [State.reported_mail, State.reported_resp, State.reported_lanes]
      exact ⟨rfl, rfl, rfl⟩
    · exact exec_of_live (c := .bind m c v) hr rfl (by rw [bindOp_foreign hm])
    · exact exec_of_live (c := .mbxLock m v) hr rfl (by rw [mbxLockOp_foreign hm])

end Sys2Proof.Machine
end

section
/-! SUPPORT. What a serial port receives: the steps of R329 for a frame, a Kaong cell, and the links (R326–R332, R345–R349). -/

namespace Sys2Proof.Machine
open Sys2Proof

/-! ### Frames (R329) -/

section
variable {s : State} {k : Nat} {b : Frame}

theorem frameReceive_filters (he : (s.port k).isEth = true) (hd : s.domOn (portDomain k) = true) :
    frameReceive s k b = (s.setPort k ((s.port k).fec b)).filterFrame k b := by
  simp only [frameReceive, he, hd, Bool.not_true, Bool.or_self, Bool.false_eq_true, if_false]

theorem State.filterFrame_unsound (h : (frameView b).fcsOk = false ∨ within (frameView b).length 64 4146 = false) :
    s.filterFrame k b = s.setPort k ((s.port k).count cRxFcs) := by
  have hbad : ((frameView b).fcsOk && within (frameView b).length 64 4146) = false := Bool.and_eq_false_iff.mpr h
  simp only [State.filterFrame, hbad, Bool.not_false, if_true]

/-- A frame waits at the engine of its port for the steward firmware while fewer than 64 do (R329, R343). -/
theorem State.toSteward_waits (h : (tget stwDflt s.stw (k / 8)).length < 64) : ∃ w,
    tget stwDflt (s.toSteward k b).stw (k / 8) = tget stwDflt s.stw (k / 8) ++ [w] ∧
      w.port = k ∧ w.stamp = s.ptpAt (s.rxStamp k b.ago) := by
  refine ⟨{ port := k, stamp := s.ptpAt (s.rxStamp k b.ago),
            left := stampBytes (s.ptpAt (s.rxStamp k b.ago)) ++ b.bytes.take (b.bytes.length - 4) }, ?_, rfl, rfl⟩
  simp only [State.toSteward, Nat.not_le.mpr h, if_false]
  exact tget_tput_same s.stw (k / 8) _

variable (hf : (frameView b).fcsOk = true) (hl : within (frameView b).length 64 4146 = true)
  (hd : (frameView b).dstMac = (s.port k).mac ∨ (frameView b).dstMac = 0xFFFFFFFFFFFF)
include hf hl hd

/-- A sound frame to the port or broadcast passes the steps before its VLAN tag. -/
theorem State.filterFrame_addressed : s.filterFrame k b =
    if (frameView b).vlan ≠ (if (s.port k).vlan then some (s.port k).vid else none) then s.setPort k ((s.port k).count cRxFilter)
    else if (frameView b).etherType = 0x0806 then s.toSteward k b
    else if !(decide ((frameView b).etherType = 0x0800) && (frameView b).ipOk && decide ((frameView b).proto = 17) && (frameView b).udpOk)
      then s.setPort k ((s.port k).count cRxFilter)
    else if (frameView b).dstUdp = 319 ∨ (frameView b).dstUdp = 320 ∨
        ((s.port k).ctrlUdp ≠ 0 ∧ (frameView b).dstUdp = (s.port k).ctrlUdp) then s.toSteward k b
    else s.mapFrame k (frameView b) (s.frameInstant k b) := by
  have haddr : (decide ((frameView b).dstMac = (s.port k).mac) || decide ((frameView b).dstMac = 0xFFFFFFFFFFFF)) = true := by
    rw [Bool.or_eq_true, decide_eq_true_eq, decide_eq_true_eq]
    exact hd
  unfold State.filterFrame
  rw [if_neg (by rw [hf, hl]; exact Bool.false_ne_true), if_neg (by rw [haddr]; exact Bool.false_ne_true)]

theorem State.filterFrame_vlan (hv : (frameView b).vlan ≠ (if (s.port k).vlan then some (s.port k).vid else none)) :
    s.filterFrame k b = s.setPort k ((s.port k).count cRxFilter) :=
  (State.filterFrame_addressed hf hl hd).trans (if_pos hv)

variable (hv : (frameView b).vlan = (if (s.port k).vlan then some (s.port k).vid else none))
include hv

theorem State.filterFrame_arp (ha : (frameView b).etherType = 0x0806) : s.filterFrame k b = s.toSteward k b :=
  (State.filterFrame_addressed hf hl hd).trans ((if_neg (fun h => h hv)).trans (if_pos ha))

theorem State.filterFrame_udp (he : (frameView b).etherType = 0x0800) (hi : (frameView b).ipOk = true)
    (hp : (frameView b).proto = 17) (hu : (frameView b).udpOk = true) : s.filterFrame k b =
      if (frameView b).dstUdp = 319 ∨ (frameView b).dstUdp = 320 ∨
        ((s.port k).ctrlUdp ≠ 0 ∧ (frameView b).dstUdp = (s.port k).ctrlUdp) then s.toSteward k b
      else s.mapFrame k (frameView b) (s.frameInstant k b) := by
  have harp : (frameView b).etherType ≠ 0x0806 := by rw [he]; decide
  rw [State.filterFrame_addressed hf hl hd, if_neg (fun h => h hv), if_neg harp,
    if_neg (by simp only [he, hi, hp, hu, decide_true, Bool.and_self, Bool.not_true, Bool.false_eq_true, not_false_eq_true])]
end

section
variable {s : State} {k : Nat} {f : FrameView} {x : Int} {c : Contract} {recs : List IngestRec} {i : Nat}

theorem State.mapFrame_unmapped (h : s.ingestNow k x = none) : s.mapFrame k f x = s.setPort k ((s.port k).count cRxFilter) := by
  simp only [State.mapFrame, h]

variable (hn : s.ingestNow k x = some (c, recs)) (hi : recs.findIdx? (fun r => r.matches f) = some i)
include hn hi

theorem State.mapFrame_length (hlen : f.payload.length ≠ 32 * (recs.getD i ⟨0, 0, 0, 0, 0, 0, []⟩).map.length) :
    s.mapFrame k f x = s.setPort k ((s.port k).count cRxLen) := by
  simp only [State.mapFrame, hn, hi, hlen, ne_eq, not_false_eq_true, if_true]

variable (hlen : f.payload.length = 32 * (recs.getD i ⟨0, 0, 0, 0, 0, 0, []⟩).map.length)
include hlen

theorem State.mapFrame_later (ha : 0 < ((s.port k).flowHeat i (s.inputHeat c x)).accepted) :
    s.mapFrame k f x = s.setPort k (((s.port k).count cRxDup).setFlow { (s.port k).flowHeat i (s.inputHeat c x) with
      dup := ((s.port k).flowHeat i (s.inputHeat c x)).dup + 1 }) := by
  simp only [State.mapFrame, hn, hi, hlen, ne_eq, not_true_eq_false, if_false, ha, if_true]

theorem State.mapFrame_first (ha : ((s.port k).flowHeat i (s.inputHeat c x)).accepted = 0) :
    s.mapFrame k f x = (s.setPort k (((s.port k).count cRxOk).setFlow
      (s.accepted ((s.port k).flowHeat i (s.inputHeat c x)) 0 x))).mapRods k c (s.inputHeat c x) x
        ((recs.getD i ⟨0, 0, 0, 0, 0, 0, []⟩).map.zipIdx.map (fun q => (q.1, payloadRod f.payload q.2))) := by
  simp only [State.mapFrame, hn, hi, hlen, ne_eq, not_true_eq_false, if_false, ha, lt_self_iff_false]
end

/-! ### Kaong cells (R345, R347, R349) -/

/-- The state after the sync headers of a cell's blocks have been seen. -/
def State.headersSeen (s : State) (k : Nat) (c : KCell) : State :=
  s.setPort k (c.blocks.foldl Port.header { s.port k with scrRx := (readBlocks (s.port k).scrRx c.blocks).2 })

/-- The blocks of a cell whose sync header is valid. -/
def State.goodBlocks (s : State) (k : Nat) (c : KCell) : List (KBlock × List Byte) :=
  (readBlocks (s.port k).scrRx c.blocks).1.filter (fun b => blockValid b.1)

section
variable {s : State} {k : Nat} {c : KCell} (hk : (s.port k).isKaong = true) (hd : s.domOn (portDomain k) = true)
  (hb : ∃ z r, s.goodBlocks k c = z :: r ∧ z.1.hdr = hdrControl)
include hk hd hb

/-- From a control header on, the valid blocks are a cell when there are five. -/
theorem kaongCellReceive_fromControl : kaongCellReceive s k c =
    if (s.goodBlocks k c).length < 5 then (s.headersSeen k c).setPort k (((s.headersSeen k c).port k).count cKShort)
    else (s.headersSeen k c).takeCell k (((s.goodBlocks k c).take 5).flatMap (fun b => b.2))
      ((s.headersSeen k c).rxStamp k c.ago + 256) (instCycle (16 * (((s.headersSeen k c).now : Int) + 1) - c.ago)) := by
  obtain ⟨z, r, hgood, hhdr⟩ := hb
  have hempty : (s.goodBlocks k c).isEmpty = false := by rw [hgood]; rfl
  have hcontrol : (s.goodBlocks k c).head?.any (fun b => decide (b.1.hdr ≠ hdrControl)) = false := by
    rw [hgood, List.head?_cons, Option.any_some, hhdr]
    exact decide_eq_false (fun h => h rfl)
  unfold kaongCellReceive
  rw [if_neg (by simp only [hk, hd, Bool.not_true, Bool.or_self, Bool.false_eq_true, not_false_eq_true])]
  refine if_neg (fun h => ?_)
  rcases (Bool.or_eq_true _ _).mp h with h | h
  · exact Bool.false_ne_true (hempty.symm.trans h)
  · exact Bool.false_ne_true (hcontrol.symm.trans h)
end

section
variable {s : State} {k : Nat} {b : List Byte} {x : Int} {a : Nat}

theorem State.takeCell_badCrc (h : leWordAt b 36 ≠ crc32cFinal (b.take 36)) : s.takeCell k b x a =
    s.setPort k { (s.port k).count cKCrc with crcRun := (s.port k).crcRun + 1 } := by
  simp only [State.takeCell, h, ne_eq, not_false_eq_true, if_true]

/-- The port after a cell with a good CRC and sequence number `seq`. -/
def Port.cellSeen (t : Port) (seq : BitVec 16) : Port :=
  { (match t.seqRx with
     | some q => (if seq = q + 1 then { t with crcRun := 0 } else ({ t with crcRun := 0 } : Port).count cKSeq)
     | none => { t with crcRun := 0 }) with seqRx := some seq }

/-- The state after a cell with a good CRC. -/
def State.cellSeen (s : State) (k : Nat) (b : List Byte) : State := s.setPort k ((s.port k).cellSeen (le16 b 34))

theorem State.takeCell_data (h : leWordAt b 36 = crc32cFinal (b.take 36)) (hkind : leAt b 0 2 / 16384 = 1) :
    s.takeCell k b x a = (s.cellSeen k b).mapCell k b x := by
  simp only [State.takeCell, h, ne_eq, not_true_eq_false, if_false, hkind]
  rfl

theorem State.takeCell_train (h : leWordAt b 36 = crc32cFinal (b.take 36)) (hkind : leAt b 0 2 / 16384 = 2) :
    s.takeCell k b x a = (s.cellSeen k b).trainCell k b a := by
  simp only [State.takeCell, h, ne_eq, not_true_eq_false, if_false, hkind]
  rfl

theorem State.takeCell_idle (h : leWordAt b 36 = crc32cFinal (b.take 36)) (hkind : leAt b 0 2 / 16384 = 0) :
    s.takeCell k b x a = s.cellSeen k b := by
  simp only [State.takeCell, h, ne_eq, not_true_eq_false, if_false, hkind]
  rfl

/-- The rod of a DATA cell of an UP link, taken for the first time in its heat (R332, R347). -/
theorem State.mapCell_first {c : Contract} {r : IngestRec} {l : List IngestRec} (hup : (s.port k).kstate = 2)
    (hn : s.ingestNow k x = some (c, r :: l)) (hr : r.kind = 1) (hlen : leAt b 0 2 % 4096 < r.map.length)
    (hnew : ((s.port k).flowHeat 0 (s.inputHeat c x)).rods.contains (leAt b 0 2 % 4096) = false) :
    s.mapCell k b x = (s.setPort k (((s.port k).count cRxOk).setFlow
      (s.accepted ((s.port k).flowHeat 0 (s.inputHeat c x)) (leAt b 0 2 % 4096) x))).mapRods k c (s.inputHeat c x) x
        [(r.map.getD (leAt b 0 2 % 4096) 0, payloadRod (b.drop 2) 0)] := by
  simp only [State.mapCell, hup, decide_true, Bool.true_or, Bool.not_true, Bool.false_eq_true, if_false, hn, hr, ne_eq,
    not_true_eq_false, Nat.not_le.mpr hlen, hnew]
end

/-! ### Links (R347, R349, R464) -/

section
variable {s : State} {k : Nat} (hk : (s.port k).isKaong = true)
include hk

theorem Port.mode_of_isKaong : (s.port k).mode = 3 := of_decide_eq_true hk

theorem kaongLock_locks (hd : s.domOn (portDomain k) = true) (hc : s.portClock k = true) (h0 : (s.port k).kstate = 0)
    (hr : 64 ≤ (s.port k).hdrRun) :
    kaongLock s k = s.setPort k { s.port k with kstate := 1, lock := true, cdr := true, crcRun := 0, hdrs := 0 } := by
  have hm := Port.mode_of_isKaong hk
  unfold kaongLock
  rw [if_neg (by simp [hm, hd, hc]), if_pos hk, if_pos ⟨h0, hr⟩]

theorem kaongLock_early (hr : (s.port k).hdrRun < 64) : kaongLock s k = s := by
  simp only [kaongLock, hk, if_true, Nat.not_le.mpr hr, and_false, if_false, ite_self]

theorem State.portDown_port : (s.portDown k).port k = { ((s.port k).count cKLockLoss).event 0 with
    kstate := 0, lock := false, cdr := false, crcRun := 0, hdrRun := 0 } := by
  simp only [State.portDown, hk, if_true, State.raise_port, State.port_setPort_same]
end

/-- The condition of a link loss holds (R349, R464). -/
def State.linkLost (s : State) (k : Nat) : LinkLoss → Bool
  | .syncHeaders => !(s.port k).isKaong || decide (16 ≤ (s.port k).badHdrs)
  | .crcFailures => (s.port k).isKaong && decide (8 ≤ (s.port k).crcRun)
  | .pll => !s.portClock k

theorem portLinkDown_eq (s : State) (k : Nat) (why : LinkLoss) : portLinkDown s k why =
    if (s.port k).mode = 0 || !s.domOn (portDomain k) || !(s.port k).lock || !s.linkLost k why then s else s.portDown k := by
  cases why <;> rfl

section
variable {s : State} {k : Nat} {why : LinkLoss}

theorem portLinkDown_falls (hk : (s.port k).isKaong = true) (hd : s.domOn (portDomain k) = true) (hl : (s.port k).lock = true)
    (hw : s.linkLost k why = true) : portLinkDown s k why = s.portDown k := by
  have hm := Port.mode_of_isKaong hk
  rw [portLinkDown_eq, if_neg (by simp [hm, hd, hl, hw])]

theorem portLinkDown_unlocked (hl : (s.port k).lock = false) : portLinkDown s k why = s := by
  rw [portLinkDown_eq, if_pos (by simp [hl])]

theorem portLinkDown_holds (hw : s.linkLost k why = false) : portLinkDown s k why = s := by
  rw [portLinkDown_eq, if_pos (by simp [hw])]
end

end Sys2Proof.Machine
end

section
/-! SUPPORT. The delivery paths of ingest, and the emissions, frames and cells of egress (R333–R346). -/

namespace Sys2Proof.Machine
open Sys2Proof

/-! ### The delivery paths (R333–R336) -/

section
variable {s : State} {k : Nat} {x : PRod} {r : List PRod}

theorem ingestRodEnter_foreign (h : s.cyc % 8 ≠ k % 8) (bank : Bool) : ingestRodEnter s k bank = s := by
  simp only [ingestRodEnter, h, ne_eq, not_false_eq_true, true_or, if_true]

/-- At the head of its queue a ready rod that has not entered does so, when no other entered in this cycle. -/
theorem ingestRodEnter_enters (hq : (s.port k).q0 = x :: r) (hc : s.cyc % 8 = k % 8) (hd : x.due = 0) (hr : x.ready ≤ s.now)
    (hn : ∀ y ∈ r, y.due ≠ s.now + 7) :
    ingestRodEnter s k false = s.setPort k { s.port k with q0 := { x with due := s.now + 7 } :: r } := by
  have hnone : (x :: r).any (fun y => decide (y.due = s.now + 7)) = false := by
    rw [List.any_eq_false]
    intro y hy
    rw [decide_eq_true_eq]
    rcases List.mem_cons.mp hy with rfl | hy
    · omega
    · exact hn y hy
  simp only [ingestRodEnter, hq, hc, hnone, ne_eq, not_true_eq_false, Bool.false_eq_true, or_self, if_false, enterFirst, hd, hr, if_true]

variable (hq : (s.port k).q1 = x :: r)
include hq

theorem ingestRodArrive_early (h : x.due = 0 ∨ s.now < x.due) : ingestRodArrive s k true = s := by
  simp only [ingestRodArrive, hq, if_true, h]

theorem ingestRodArrive_arrives (h0 : x.due ≠ 0) (hd : x.due ≤ s.now) : ingestRodArrive s k true =
    ((s.ingestSeats x).filterMap s.seatLane).foldl (fun u p => u.ingestTo p x) (s.setPort k { s.port k with q1 := r }) := by
  simp only [ingestRodArrive, hq, if_true, h0, Nat.not_lt.mpr hd, or_self, if_false]
  rfl
end

/-- A rod for one seat goes to the lane there. -/
theorem State.ingestSeats_single {s : State} {x : PRod} {p : Nat} (hm : elemMc x.elem = false)
    (hs : s.seatLane (elemSeat x.elem) = some p) : (s.ingestSeats x).filterMap s.seatLane = [p] := by
  simp only [State.ingestSeats, hm, Bool.false_eq_true, if_false, List.filterMap_cons, hs, List.filterMap_nil]

/-- With room in the ingest queue of its bank the rod joins it. -/
theorem State.ingestTo_joins {s : State} {p : Nat} {x : PRod} (h : ((s.lmem p).sp (elemRod x.elem % 2)).ingest.length < 16) :
    (((s.ingestTo p x).lmem p).sp (elemRod x.elem % 2)).ingest = ((s.lmem p).sp (elemRod x.elem % 2)).ingest ++
      [{ cls := 2, rod := elemRod x.elem, deadline := x.deadline, fab := none, kind := .write x.rod fullMask none false,
         sig := x.sig }] := by
  simp only [State.ingestTo, Nat.not_le.mpr h, if_false, State.lmem_setLmem_same, LaneMem.sp_setSp_same]

section
variable {s : State} {k a : Nat}

theorem ingestMapSwitch_due (h : (s.port k).inAt = some a) (hd : a ≤ s.now) :
    ingestMapSwitch s k = s.setPort k ((s.port k).switchIn a) := by
  simp only [ingestMapSwitch, h, hd, if_true]

theorem ingestMapSwitch_early (h : (s.port k).inAt = some a) (hd : s.now < a) : ingestMapSwitch s k = s := by
  simp only [ingestMapSwitch, h, Nat.not_le.mpr hd, if_false]
end

section
variable {s : State} {k n : Nat}

theorem ingestStatusRod_writes {c : Contract} {recs : List IngestRec} {q : IngestRec} (ho : s.statusOwner k = some (c, recs))
    (hr : recs[n]? = some q) (hc : c.running = true) (hq : q.status ≠ 0xFFFFFFFF) (he : c.card.win.i < s.pacer.elapsed)
    (hf : ((s.port k).flowHeat n s.heatN).status = false) :
    ingestStatusRod s k n = s.setPort k (((s.port k).setFlow { (s.port k).flowHeat n s.heatN with status := true }).queue
      { elem := q.status, rod := statusRod s.heatN ((s.port k).flowHeat n s.heatN), ready := s.now, due := 0,
        deadline := some (s.pacer.gunAt + c.card.win.c - 1), heat := s.heatN, sig := none }) := by
  simp only [ingestStatusRod, ho, hr, hc, hq, hf, Nat.not_le.mpr he, decide_false, Bool.not_true, Bool.or_self,
    Bool.false_eq_true, if_false]

theorem ingestStatusRod_once (hf : ((s.port k).flowHeat n s.heatN).status = true) : ingestStatusRod s k n = s := by
  unfold ingestStatusRod
  dsimp only
  split
  · rfl
  · split
    · rfl
    · simp only [hf, Bool.or_true, Bool.true_or, if_true]
end

/-! ### The reads of an emission (R340) -/

section
variable {s : State} {k p : Nat} {x : EgRun}

/-- With room at the sharing port of its bank an element is asked for there. -/
theorem State.askElem_asks {mk : BitVec 2} (hs : x.srcs.getD x.asked (none, 0) = (some p, mk))
    (hr : ((s.lmem p).sp (elemRod ((recElems x.recs).getD x.asked 0) % 2)).room false = true) :
    (((s.askElem k x).lmem p).sp (elemRod ((recElems x.recs).getD x.asked 0) % 2)).pend =
      ((s.lmem p).sp (elemRod ((recElems x.recs).getD x.asked 0) % 2)).pend ++
        [{ cls := 3, rod := elemRod ((recElems x.recs).getD x.asked 0), deadline := some (x.base + 4 * x.asked + 64), fab := none,
           kind := .readEgress k x.asked x.heat }] := by
  simp only [State.askElem, hs, hr, Bool.not_true, Bool.false_eq_true, if_false, State.shAdd_pend, State.lmem_setPort]

theorem egressReadRequest_all
    (h : ((s.beginRun k).port k).runs.find? (fun x => decide (x.asked < (recElems x.recs).length)) = none) :
    egressReadRequest s k = s.beginRun k := by
  simp only [egressReadRequest, h]

theorem egressReadRequest_asks
    (h : ((s.beginRun k).port k).runs.find? (fun x => decide (x.asked < (recElems x.recs).length)) = some x)
    (hd : x.base + 4 * x.asked ≤ (s.beginRun k).now) : egressReadRequest s k = (s.beginRun k).askElem k x := by
  simp only [egressReadRequest, h, hd, if_true]
end

/-! ### Frames and cells (R338, R339, R346) -/

/-- Gathering the elements of a record draws free values at most: what left the device and the ports stay. -/
theorem State.gather_keeps (x : EgRun) (l : List Word) (s : State) (g : Nat) :
    (s.gather x g l).2.out = s.out ∧ (s.gather x g l).2.ports = s.ports := by
  induction l generalizing s g with
  | nil => exact ⟨rfl, rfl⟩
  | cons e l ih =>
    cases h : x.elem g with
    | none =>
      obtain ⟨hout, hports⟩ := ih s.draw (g + 1)
      simp only [State.gather, h]
      exact ⟨hout, hports⟩
    | some a =>
      obtain ⟨hout, hports⟩ := ih s (g + 1)
      simp only [State.gather, h]
      exact ⟨hout, hports⟩

theorem State.gather_out (s : State) (x : EgRun) (g : Nat) (l : List Word) : (s.gather x g l).2.out = s.out :=
  (State.gather_keeps x l s g).1

theorem State.gather_port (s : State) (x : EgRun) (g : Nat) (l : List Word) (k : Nat) : (s.gather x g l).2.port k = s.port k :=
  congrArg (tget portDflt · k) (State.gather_keeps x l s g).2

/-- The counts of what has left do not leave. -/
theorem State.leftPort_out (s : State) (k : Nat) (late poison sig : Bool) : (s.leftPort k late poison sig).out = s.out := by
  simp only [State.leftPort, apply_ite State.out, State.raise_out, State.setPort_out, ite_self]

theorem State.sendFrame_out (s : State) (k : Nat) (x : EgRun) (due : Nat) :
    (s.sendFrame k x due).out = .frame k (withFcs (ethFrame (s.port k) x.cur ((s.gather x x.first x.cur.elem).1.bytes.flatten ++
      (if x.cur.trailer then trailerBytes x.heat (s.gather x x.first x.cur.elem).1.mark else [])))
        (!((s.gather x x.first x.cur.elem).1.late || (s.gather x x.first x.cur.elem).1.poison)))
        (!((s.gather x x.first x.cur.elem).1.late || (s.gather x x.first x.cur.elem).1.poison)) :: s.out := by
  simp only [State.sendFrame, State.leftPort_out, State.emit_out, State.gather_port]
  exact congrArg _ (State.gather_out s x x.first x.cur.elem)

theorem State.sendCell_out (s : State) (k : Nat) (x : EgRun) (due : Nat) :
    ∃ bl ok, (s.sendCell k x due).out = .cell k bl ok :: s.out := by
  simp only [State.sendCell, State.leftPort_out, State.emitCell, State.emit_out]
  exact ⟨_, _, congrArg _ (State.gather_out s x (x.first + x.nextCell) [x.cur.elem.getD x.nextCell 0])⟩

section
variable {s : State} {k due : Nat} {x : EgRun} {r : List EgRun} (hr : (s.port k).runs = x :: r) (hb : x.nextBit (s.port k) = some due)
include hr hb

theorem egressFrameSend_early (h : s.now < due) : egressFrameSend s k = s := by
  simp only [egressFrameSend, hr, hb, h, true_or, if_true]

variable (hd : s.domOn (portDomain k) = true) (h : due ≤ s.now)
include hd h

theorem egressFrameSend_frame (hkind : x.cur.kind = 0) (he : (s.port k).isEth = true) : egressFrameSend s k = s.sendFrame k x due := by
  simp only [egressFrameSend, hr, hb, hd, Nat.not_lt.mpr h, hkind, he, Bool.true_eq_false, or_self, if_false, and_self, if_true]

theorem egressFrameSend_cell (hkind : x.cur.kind = 1) (hk : (s.port k).isKaong = true) : egressFrameSend s k = s.sendCell k x due := by
  simp only [egressFrameSend, hr, hb, hd, Nat.not_lt.mpr h, hkind, hk, Bool.true_eq_false, or_self, if_false, Nat.one_ne_zero,
    false_and, and_self, if_true]
end

section
variable {s : State} {k : Nat} (hd : s.domOn (portDomain k) = true) (hb : (s.port k).txBusy ≤ s.now)
include hd hb

/-- With nothing scheduled and the link not UP, or 64 non-DATA cells after the last one, a whole TRAIN cell leaves (R346, R348). -/
theorem kaongCellSend_train (hk : (s.port k).isKaong = true) (hn : s.nextSched k = none) (hs : (s.port k).kstate ≠ 2) :
    kaongCellSend s k = (s.setPort k { s.port k with
      nonData := ((s.port k).nonData + 1) % 64, txBusy := s.now + 16, seqTx := (s.port k).seqTx + 1 }).emitCell k 5
        (cellBytes 0x8000 ((s.port k).trainPay s.now) (s.port k).seqTx true) true := by
  simp only [kaongCellSend, hk, hd, Nat.not_lt.mpr hb, hn, hs, Bool.not_true, decide_false, Bool.or_self, Bool.false_eq_true, if_false,
    ne_eq, not_false_eq_true, decide_true, Bool.true_or, if_true]

theorem kaongCellSend_idle (hk : (s.port k).isKaong = true) (hn : s.nextSched k = none) (hs : (s.port k).kstate = 2)
    (h0 : (s.port k).nonData ≠ 0) :
    kaongCellSend s k = (s.setPort k { s.port k with
      nonData := ((s.port k).nonData + 1) % 64, txBusy := s.now + 16, seqTx := (s.port k).seqTx + 1 }).emitCell k 5
        (cellBytes 0 (List.replicate 32 0) (s.port k).seqTx true) true := by
  simp only [kaongCellSend, hk, hd, Nat.not_lt.mpr hb, hn, hs, h0, Bool.not_true, decide_false, Bool.or_self, Bool.false_eq_true, if_false,
    ne_eq, not_true_eq_false]

theorem stewardFrameSend_sends {bytes : List Byte} (he : (s.port k).isEth = true) (hn : s.nextSched k = none) :
    stewardFrameSend s k bytes = (s.setPort k { (s.port k).count cTxOk with
      txBusy := s.now + wireLc (bytes.length + 24), txTs := some (s.txStamp k) }).emit (.frame k (withFcs bytes true) true) := by
  simp only [stewardFrameSend, he, hd, Nat.not_lt.mpr hb, hn, Bool.not_true, decide_false, Bool.or_self, Bool.false_eq_true, if_false]
end

/-- A frame of the steward firmware that would not end before the next scheduled bit does not start (R342). -/
theorem stewardFrameSend_waits {s : State} {k d : Nat} {bytes : List Byte} (hn : s.nextSched k = some d)
    (h : d < s.now + wireLc (bytes.length + 24)) : stewardFrameSend s k bytes = s := by
  simp only [stewardFrameSend, hn, Nat.not_le.mpr h, decide_false, Bool.not_false, Bool.or_true, if_true]

end Sys2Proof.Machine
end

section
/-! The statements about serial ports, settled. -/

namespace Sys2Proof.Machine
open Sys2Proof

/-- Settles O49: the steps of R329 in order (`State.filterFrame_*`, `State.mapFrame_*`), a cell from its control header on
(`kaongCellReceive_fromControl`, `State.takeCell_*`), and the conditions of the links. -/
theorem portsReceiveFramesAndCells : Obligations.PortsReceiveFramesAndCells := by
  unfold Obligations.PortsReceiveFramesAndCells
  refine ⟨fun s k b hr he hd => ?frames, fun s k c why hr hk hd => ?cells⟩
  case frames =>
    have hexec : ∀ {u : State}, (s.setPort k ((s.port k).fec b)).filterFrame k b = u → exec (.frameReceive k b) s = .next u :=
      fun h => exec_of_live hr rfl ((frameReceive_filters he hd).trans h)
    intro v t f x waits
    refine ⟨fun hbad => hexec (State.filterFrame_unsound hbad), State.toSteward_waits, fun hf hl hm => ?_⟩
    refine ⟨fun hv => hexec (State.filterFrame_vlan hf hl hm hv), fun hv => ⟨fun ha => hexec (State.filterFrame_arp hf hl hm hv ha),
      fun het hi hp hu => ?_⟩⟩
    have hudp := State.filterFrame_udp hf hl hm hv het hi hp hu
    refine ⟨fun hs => hexec (hudp.trans (if_pos hs)), fun h319 h320 hc => ?_⟩
    have hnot : ¬ (f.dstUdp = 319 ∨ f.dstUdp = 320 ∨ (t.ctrlUdp ≠ 0 ∧ f.dstUdp = t.ctrlUdp)) := by
      rintro (h | h | ⟨h0, h⟩)
      · exact h319 h
      · exact h320 h
      · exact hc.elim h0 (fun hne => hne h)
    have hmap := hudp.trans (if_neg hnot)
    refine ⟨fun hn => hexec (hmap.trans (State.mapFrame_unmapped hn)), fun c recs i hn hi => ?_⟩
    exact ⟨fun hlen => hexec (hmap.trans (State.mapFrame_length hn hi hlen)),
      fun hlen ha => hexec (hmap.trans (State.mapFrame_later hn hi hlen ha)),
      fun hlen ha => hexec (hmap.trans (State.mapFrame_first hn hi hlen ha))⟩
  case cells =>
    intro q v t good b x seq kind n t1 u sound
    refine ⟨fun hb => ?cell, ?lock, ?early, ?headers, ?crc, ?pll, ?unlocked, ?headersHold, ?crcHold, ?pllHold, State.portDown_port hk⟩
    case cell =>
      have hexec : ∀ {w : State}, kaongCellReceive s k c = w → exec (.kaongCellReceive k c) s = .next w :=
        fun h => exec_of_live hr rfl h
      have hcell := kaongCellReceive_fromControl hk hd hb
      have hfive : ∀ {w : State}, 5 ≤ good.length → (v.takeCell k b x (instCycle (16 * ((v.now : Int) + 1) - c.ago))) = w →
          exec (.kaongCellReceive k c) s = .next w :=
        fun h5 h => hexec (hcell.trans ((if_neg (Nat.not_lt.mpr h5)).trans h))
      refine ⟨fun h5 => hexec (hcell.trans (if_pos h5)), fun h5 hcrc => hfive h5 (State.takeCell_badCrc hcrc),
        fun hs hkind => hfive hs.1 (State.takeCell_data hs.2 hkind), fun d r l hs hkind hup hn hrk hlen => ?_,
        fun hs hkind => hfive hs.1 (State.takeCell_train hs.2 hkind), fun hs hkind => hfive hs.1 (State.takeCell_idle hs.2 hkind)⟩
      exact fun hnew => hfive hs.1 ((State.takeCell_data hs.2 hkind).trans (State.mapCell_first hup hn hrk hlen hnew))
    case lock => exact fun h0 hc h64 => exec_of_live (c := .kaongLock k) hr rfl (kaongLock_locks hk hd hc h0 h64)
    case early => exact fun h64 => exec_of_live (c := .kaongLock k) hr rfl (kaongLock_early hk h64)
    case headers =>
      exact fun hl h => exec_of_live (c := .portLinkDown k .syncHeaders) hr rfl
        (portLinkDown_falls hk hd hl (by simp only [State.linkLost, h, decide_true, Bool.or_true]))
    case crc =>
      exact fun hl h => exec_of_live (c := .portLinkDown k .crcFailures) hr rfl
        (portLinkDown_falls hk hd hl (by simp only [State.linkLost, hk, h, decide_true, Bool.and_self]))
    case pll =>
      exact fun hl h => exec_of_live (c := .portLinkDown k .pll) hr rfl
        (portLinkDown_falls hk hd hl (by simp only [State.linkLost, h, Bool.not_false]))
    case unlocked => exact fun hl => exec_of_live (c := .portLinkDown k why) hr rfl (portLinkDown_unlocked hl)
    case headersHold =>
      exact fun h => exec_of_live (c := .portLinkDown k .syncHeaders) hr rfl
        (portLinkDown_holds (by simp only [State.linkLost, hk, Nat.not_le.mpr h, decide_false, Bool.not_true, Bool.or_self]))
    case crcHold =>
      exact fun h => exec_of_live (c := .portLinkDown k .crcFailures) hr rfl
        (portLinkDown_holds (by simp only [State.linkLost, Nat.not_le.mpr h, decide_false, Bool.and_false]))
    case pllHold =>
      exact fun h => exec_of_live (c := .portLinkDown k .pll) hr rfl (portLinkDown_holds (by simp only [State.linkLost, h, Bool.not_true]))

/-- Settles O50, from the delivery paths (`ingestRodEnter_*`, `ingestRodArrive_*`), the reads of an emission (`State.askElem_asks`)
and what leaves in a frame or a cell (`State.sendFrame_out`, `State.sendCell_out`). -/
theorem ingestAndEgressMoveTheirRods : Obligations.IngestAndEgressMoveTheirRods := by
  unfold Obligations.IngestAndEgressMoveTheirRods
  refine ⟨fun s k x r hr => ?ingest, fun s k x r bytes hr hd => ?egress⟩
  case ingest =>
    intro t
    refine ⟨?enter, ?foreign, ?arrive, ?queue, ?early, ?switch, ?later, ?status, ?once⟩
    case enter =>
      exact fun hq hc h0 hx hn => exec_of_live (c := .ingestRodEnter k false) hr rfl (ingestRodEnter_enters hq hc h0 hx hn)
    case foreign => exact fun h b => exec_of_live (c := .ingestRodEnter k b) hr rfl (ingestRodEnter_foreign h b)
    case arrive =>
      exact fun hq h0 hx => exec_of_live (c := .ingestRodArrive k true) hr rfl (ingestRodArrive_arrives hq h0 hx)
    case queue =>
      intro p hq h0 hx hm hs n q hroom
      have harrive := ingestRodArrive_arrives hq h0 hx
      rw [State.ingestSeats_single hm hs] at harrive
      exact ⟨_, exec_of_live (c := .ingestRodArrive k true) hr rfl harrive,
        State.ingestTo_joins (s := s.setPort k { s.port k with q1 := r }) hroom⟩
    case early => exact fun hq h => exec_of_live (c := .ingestRodArrive k true) hr rfl (ingestRodArrive_early hq h)
    case switch => exact fun a h ha => exec_of_live (c := .ingestMapSwitch k) hr rfl (ingestMapSwitch_due h ha)
    case later => exact fun a h ha => exec_of_live (c := .ingestMapSwitch k) hr rfl (ingestMapSwitch_early h ha)
    case status =>
      exact fun c recs q n ho hq hc hs he hf => exec_of_live (c := .ingestStatusRod k n) hr rfl (ingestStatusRod_writes ho hq hc hs he hf)
    case once => exact fun n hf => exec_of_live (c := .ingestStatusRod k n) hr rfl (ingestStatusRod_once hf)
  case egress =>
    intro t b
    refine ⟨?all, ?asks, fun due hruns hbit => ?send, ?train, ?idle, ?steward, ?waits⟩
    case all => exact fun h => exec_of_live (c := .egressReadRequest k) hr rfl (egressReadRequest_all h)
    case asks =>
      exact fun h ha => ⟨exec_of_live (c := .egressReadRequest k) hr rfl (egressReadRequest_asks h ha),
        fun p mk hs hroom => State.askElem_asks hs hroom⟩
    case send =>
      refine ⟨fun h => exec_of_live (c := .egressFrameSend k) hr rfl (egressFrameSend_early hruns hbit h), fun h hkind he => ?_,
        fun h hkind hk => ⟨?_, State.sendCell_out s k x due⟩⟩
      · exact ⟨_, exec_of_live (c := .egressFrameSend k) hr rfl (egressFrameSend_frame hruns hbit hd h hkind he),
          State.sendFrame_out s k x due⟩
      · exact exec_of_live (c := .egressFrameSend k) hr rfl (egressFrameSend_cell hruns hbit hd h hkind hk)
    case train => exact fun hk hb hn hs => exec_of_live (c := .kaongCellSend k) hr rfl (kaongCellSend_train hd hb hk hn hs)
    case idle => exact fun hk hb hn hs h0 => exec_of_live (c := .kaongCellSend k) hr rfl (kaongCellSend_idle hd hb hk hn hs h0)
    case steward =>
      exact fun he hb hn => exec_of_live (c := .stewardFrameSend k bytes) hr rfl (stewardFrameSend_sends hd hb he hn)
    case waits => exact fun he d hn h => exec_of_live (c := .stewardFrameSend k bytes) hr rfl (stewardFrameSend_waits hn h)

end Sys2Proof.Machine
end

section
/-! SUPPORT. LIFECYCLE tokens and what they change, the debug instructions, and the identity that is due (R426–R433). -/

namespace Sys2Proof.Machine
open Sys2Proof

/-! ### A token that the firmware takes (R429) -/

theorem State.readBuffer_con (s : State) (e : Sqe) : (s.readBuffer e).con = s.con := by
  rw [State.readBuffer_eq]

section
variable {s : State} {e : Sqe} {b : List Byte} (ht : s.canTake e.sq = true) (hp : s.sec.pendTok = none)
  (hin : sqeInput e = some b) (hc : sqeClean e ⟨false, true, 0x1C⟩ = true) (ha : allowedIn 14 s.sec.lcState = true)
  (hl : b.length = 8112)
include ht hp hin hc ha hl

/-- A clean command with a token of its row's kind runs on the token. -/
theorem State.tokenCmd_runs {kind : Nat → Bool} (hk : kind (tokKind b) = true) (body : State → List Byte → Nat → State) :
    s.tokenCmd e kind body = body ((s.takeEntry e.sq).readBuffer e) b (sqePar e 0x18 4) := by
  have hallowed : allowedIn 14 (s.takeEntry e.sq).sec.lcState = true := ha
  simp only [State.tokenCmd, ht, hp, hin, hk, hc, hallowed, hl, Option.isSome_none, Bool.not_true, Bool.or_self,
    Bool.false_eq_true, if_false, ne_eq, not_true_eq_false]

/-- A token of another kind that R429 or R430 refuses completes with TOKEN. -/
theorem State.otherToken_refuses {k : Nat} (eff : State → List Byte → State) (hk : tokKind b = k)
    (h : ((s.takeEntry e.sq).readBuffer e).tokenOk b (sqePar e 0x18 4) = false ∨ (k < 4 ∧ s.sec.lcState = 0)) :
    s.otherToken e k eff = ((s.takeEntry e.sq).readBuffer e).finish e.sq 14 e.cid stToken 0 0 := by
  have hguard : (!((s.takeEntry e.sq).readBuffer e).tokenOk b (sqePar e 0x18 4) ||
      (decide (k < 4) && decide (((s.takeEntry e.sq).readBuffer e).sec.lcState = 0))) = true := by
    rw [State.readBuffer_sec, State.takeEntry_sec]
    rcases h with h | ⟨hk4, h0⟩
    · rw [h]; rfl
    · rw [decide_eq_true hk4, decide_eq_true h0, Bool.and_self, Bool.or_true]
  rw [State.otherToken, State.tokenCmd_runs ht hp hin hc ha hl (decide_eq_true hk)]
  exact if_pos hguard

/-- One that they allow has its effect, and RESULT0 is the lifecycle state. -/
theorem State.otherToken_acts {k : Nat} (eff : State → List Byte → State) (hk : tokKind b = k)
    (hok : ((s.takeEntry e.sq).readBuffer e).tokenOk b (sqePar e 0x18 4) = true) (h : 4 ≤ k ∨ s.sec.lcState ≠ 0) :
    s.otherToken e k eff = (eff ((s.takeEntry e.sq).readBuffer e) b).finish e.sq 14 e.cid 0
      (BitVec.ofNat 32 (eff ((s.takeEntry e.sq).readBuffer e) b).sec.lcState) 0 := by
  have hguard : (!((s.takeEntry e.sq).readBuffer e).tokenOk b (sqePar e 0x18 4) ||
      (decide (k < 4) && decide (((s.takeEntry e.sq).readBuffer e).sec.lcState = 0))) = false := by
    rw [State.readBuffer_sec, State.takeEntry_sec, hok, Bool.not_true, Bool.false_or, Bool.and_eq_false_iff, decide_eq_false_iff_not,
      decide_eq_false_iff_not]
    exact h.imp Nat.not_lt.mpr id
  rw [State.otherToken, State.tokenCmd_runs ht hp hin hc ha hl (decide_eq_true hk)]
  exact if_neg (Bool.eq_false_iff.mp hguard)

/-! ### Transitions (R426, R427) -/

variable (hk : tokKind b = 1)
include hk

theorem lifecycleTransition_field (h : transitionOk s.sec.lcState (sqePar e 0x18 4) = false) :
    lifecycleTransition s e = ((s.takeEntry e.sq).readBuffer e).finish e.sq 14 e.cid stField 0 0 := by
  rw [lifecycleTransition, State.tokenCmd_runs ht hp hin hc ha hl (by rw [hk]; rfl)]
  simp only [hk, State.readBuffer_sec, State.takeEntry_sec, h, ne_eq, not_true_eq_false, if_false, Bool.not_false, if_true]

variable (h : transitionOk s.sec.lcState (sqePar e 0x18 4) = true) (hcon : s.con = [])
  (h2 : ((s.takeEntry e.sq).readBuffer e).runs 2 = false) (h10 : ((s.takeEntry e.sq).readBuffer e).runs 10 = false)
include h hcon h2 h10

theorem lifecycleTransition_refuses (hok : ((s.takeEntry e.sq).readBuffer e).tokenOk b (sqePar e 0x18 4) = false) :
    lifecycleTransition s e = ((s.takeEntry e.sq).readBuffer e).finish e.sq 14 e.cid stToken 0 0 := by
  rw [lifecycleTransition, State.tokenCmd_runs ht hp hin hc ha hl (by rw [hk]; rfl)]
  simp only [hk, State.readBuffer_sec, State.takeEntry_sec, State.readBuffer_con, State.takeEntry_con, h, hcon, h2, h10, hok,
    List.isEmpty_nil, Bool.not_true, Bool.or_self, Bool.false_eq_true, ne_eq, not_true_eq_false, if_false, Bool.not_false, if_true]

theorem lifecycleTransition_moves (hok : ((s.takeEntry e.sq).readBuffer e).tokenOk b (sqePar e 0x18 4) = true) :
    lifecycleTransition s e = ((s.takeEntry e.sq).readBuffer e).transition b (sqePar e 0x18 4) e.sq e.cid := by
  rw [lifecycleTransition, State.tokenCmd_runs ht hp hin hc ha hl (by rw [hk]; rfl)]
  simp only [hk, State.readBuffer_sec, State.takeEntry_sec, State.readBuffer_con, State.takeEntry_con, h, hcon, h2, h10, hok,
    List.isEmpty_nil, Bool.not_true, Bool.or_self, Bool.false_eq_true, ne_eq, not_true_eq_false, if_false]
end

/-- Steps 2 to 4 of R427: the bank is wiped, the fuses are blown, and the record is written. -/
def State.lcMoved (s : State) (b : List Byte) (new : Nat) : State :=
  let t := s.wipeBank.tally 10
  let t := if s.sec.lcState = 0 then t.blow (digest (tokKey b)) 1 else t
  let t := if new = 4 then t.blow 0 2 else t
  t.acceptToken b { t.sec.lc with state := if new = 4 then t.sec.lc.state else BitVec.ofNat 3 new }

/-- The rest of a transition from `old`: the debug instructions close, what is staged goes, and the identity or the completion
follows. `was` says that the debug instructions were open. -/
def State.lcEnds (s : State) (was : Bool) (old new q : Nat) (cid : BitVec 16) : State :=
  let s := { s with sec := { s.sec with debugLeft := none } }
  let s := if s.pair.commit.isNone then { s with pair := { s.pair with staged := none, stbyImage := s.sec.image } } else s
  let s := s.debugEdge was 0
  if new = 2 then { s with sec := { s.sec with needId := true, pendTok := some (old, q, cid) } }
  else s.endTransition old new q cid

theorem State.transition_eq (s : State) (b : List Byte) (new q : Nat) (cid : BitVec 16) :
    s.transition b new q cid = (s.lcMoved b new).lcEnds s.debugOpen s.sec.lcState new q cid := rfl

@[simp] theorem State.debugEdge_sec (s : State) (was : Bool) (n : Nat) : (s.debugEdge was n).sec = s.sec := by
  unfold State.debugEdge
  split_ifs
  · exact State.raise_sec _ _ _ _ _
  · exact State.raise_sec _ _ _ _ _
  · rfl

theorem State.endTransition_life (s : State) (old new q : Nat) (cid : BitVec 16) :
    (s.endTransition old new q cid).sec.lc = s.sec.lc ∧ (s.endTransition old new q cid).sec.lcFuse = s.sec.lcFuse := by
  have hsec : (s.endTransition old new q cid).sec = (s.extend 1 s.recordBytes).sec := State.raise_sec _ _ _ _ _
  rw [hsec]
  exact ⟨rfl, rfl⟩

/-- After the record is written a transition changes neither it nor the fuses. -/
theorem State.lcEnds_life (s : State) (was : Bool) (old new q : Nat) (cid : BitVec 16) :
    (s.lcEnds was old new q cid).sec.lc = s.sec.lc ∧ (s.lcEnds was old new q cid).sec.lcFuse = s.sec.lcFuse := by
  have hedge : ∀ t : State, t.sec.lc = s.sec.lc ∧ t.sec.lcFuse = s.sec.lcFuse →
      (t.debugEdge was 0).sec.lc = s.sec.lc ∧ (t.debugEdge was 0).sec.lcFuse = s.sec.lcFuse :=
    fun t h => by rw [State.debugEdge_sec]; exact h
  unfold State.lcEnds
  dsimp only
  by_cases hnew : new = 2
  · rw [if_pos hnew]
    split
    · exact hedge _ ⟨rfl, rfl⟩
    · exact hedge _ ⟨rfl, rfl⟩
  · rw [if_neg hnew, (State.endTransition_life _ _ _ _ _).1, (State.endTransition_life _ _ _ _ _).2]
    split
    · exact hedge _ ⟨rfl, rfl⟩
    · exact hedge _ ⟨rfl, rfl⟩

theorem State.lcMoved_life (s : State) (b : List Byte) (new : Nat) :
    (s.lcMoved b new).sec.lc.tokenSeq = tokSeq b ∧
    (s.lcMoved b new).sec.lc.state = (if new = 4 then s.sec.lc.state else BitVec.ofNat 3 new) ∧
    (s.lcMoved b new).sec.lcFuse = (if new = 4 then (if s.sec.lcState = 0 then s.sec.lcFuse ||| 1 else s.sec.lcFuse) ||| 2
      else if s.sec.lcState = 0 then s.sec.lcFuse ||| 1 else s.sec.lcFuse) := by
  unfold State.lcMoved
  dsimp only
  by_cases h4 : new = 4
  · rw [if_pos h4, if_pos h4, if_pos h4]
    split
    · exact ⟨rfl, rfl, rfl⟩
    · exact ⟨rfl, rfl, rfl⟩
  · rw [if_neg h4, if_neg h4, if_neg h4]
    split
    · exact ⟨rfl, rfl, rfl⟩
    · exact ⟨rfl, rfl, rfl⟩

/-- The moves of R426: a blank device becomes PROVISIONED; any other state but RETIRED moves to OPERATIONAL, SERVICE or RETIRED. -/
theorem transitionOk_cases {old new : Nat} (h : transitionOk old new = true) :
    (old = 0 ∧ new = 1) ∨ (old ≠ 0 ∧ old ≠ 4 ∧ (new = 2 ∨ new = 3 ∨ new = 4)) := by
  unfold transitionOk at h
  split at h <;> simp_all

/-- The state codes follow from two fuses and the record (R417). -/
theorem Sec.lcState_zero {c : Sec} (h : c.lcState = 0) : c.lcFuse[1] = false := by
  cases hf : c.lcFuse[1] with
  | false => rfl
  | true => simp [Sec.lcState, hf] at h

theorem Sec.lcState_live {c : Sec} (h0 : c.lcState ≠ 0) (h4 : c.lcState ≠ 4) : c.lcFuse[1] = false ∧ c.lcFuse[0] = true := by
  cases h1 : c.lcFuse[1] with
  | true => simp [Sec.lcState, h1] at h4
  | false =>
    cases hf : c.lcFuse[0] with
    | true => exact ⟨rfl, rfl⟩
    | false => simp [Sec.lcState, h1, hf] at h0

/-- A transition that R426 lists reaches its target (R427). -/
theorem State.transition_lcState {s : State} {b : List Byte} {new q : Nat} {cid : BitVec 16}
    (h : transitionOk s.sec.lcState new = true) : (s.transition b new q cid).sec.lcState = new := by
  obtain ⟨hlc, hfuse⟩ := (s.lcMoved b new).lcEnds_life s.debugOpen s.sec.lcState new q cid
  obtain ⟨-, hstate, hblown⟩ := s.lcMoved_life b new
  rw [State.transition_eq, Sec.lcState, hlc, hfuse, hstate, hblown]
  rcases transitionOk_cases h with ⟨h0, rfl⟩ | ⟨h0, h4, hnew⟩
  · have h1 := Sec.lcState_zero h0
    simp [h0, h1]
  · obtain ⟨h1, hf⟩ := Sec.lcState_live h0 h4
    rcases hnew with rfl | rfl | rfl
    · simp [h0, h1, hf]
    · simp [h0, h1, hf]
    · simp

theorem State.transition_tokenSeq (s : State) (b : List Byte) (new q : Nat) (cid : BitVec 16) :
    (s.transition b new q cid).sec.lc.tokenSeq = tokSeq b := by
  rw [State.transition_eq, (State.lcEnds_life _ _ _ _ _ _).1]
  exact (s.lcMoved_life b new).1

/-! ### The debug instructions (R432) and the identity (R422, R433) -/

/-- What an accepted token of kind 4 does (R432). -/
def State.debugOpened (s : State) (b : List Byte) : State :=
  let t := s.acceptToken b s.sec.lc
  if t.sec.lcState ≠ 2 then t
  else ({ t with sec := { t.sec with debugLeft := some (max (t.sec.debugLeft.getD 0) (tokHeats b)) } }).raise 0x0904 0
    (BitVec.ofNat 64 (tokHeats b % 1099511627776)) false

/-- What an accepted token of kind 5 does (R432). -/
def State.debugClosed (s : State) (b : List Byte) : State :=
  let t := s.acceptToken b s.sec.lc
  ({ t with sec := { t.sec with debugLeft := none } }).debugEdge s.debugOpen 0

theorem debugOpenCmd_eq (s : State) (e : Sqe) : debugOpenCmd s e = s.otherToken e 4 State.debugOpened := rfl
theorem debugCloseCmd_eq (s : State) (e : Sqe) : debugCloseCmd s e = s.otherToken e 5 State.debugClosed := rfl

theorem State.debugOpened_sec {s : State} {b : List Byte} (h : s.sec.lcState = 2) :
    (s.debugOpened b).sec.debugLeft = some (max (s.sec.debugLeft.getD 0) (tokHeats b)) ∧
      (s.debugOpened b).sec.lc.tokenSeq = tokSeq b := by
  have hstays : (s.acceptToken b s.sec.lc).sec.lcState = 2 := h
  simp only [State.debugOpened, hstays, ne_eq, not_true_eq_false, if_false, State.raise_sec]
  exact ⟨rfl, rfl⟩

theorem State.debugClosed_sec (s : State) (b : List Byte) :
    (s.debugClosed b).sec.debugLeft = none ∧ (s.debugClosed b).sec.lc.tokenSeq = tokSeq b := by
  simp only [State.debugClosed, State.debugEdge_sec]
  exact ⟨trivial, rfl⟩

@[simp] theorem State.finish_sec (s : State) (q op : Nat) (cid : BitVec 16) (status : Nat) (r0 r1 : Word) :
    (s.finish q op cid status r0 r1).sec = s.sec := rfl

theorem debugExpire_closes {s : State} (h : s.sec.debugLeft = some 0) : (debugExpire s).sec.debugLeft = none := by
  simp only [debugExpire, h, if_true, State.debugEdge_sec]

theorem debugExpire_runs {s : State} (h : s.sec.debugLeft ≠ some 0) : debugExpire s = s := by
  simp only [debugExpire, h, if_false]

section
variable {s : State}

theorem identityGenerate_none (h : s.sec.needId = false) (ok : Bool) : identityGenerate s ok = s := by
  simp only [identityGenerate, h, Bool.not_false, if_true]

theorem identityGenerate_alone (h : s.sec.needId = true) (hp : s.sec.pendTok = none) (ok : Bool) : identityGenerate s ok =
    if ok then s.makeIdentity.identityNew else { s with sec := { s.sec with needId := false } } := by
  simp only [identityGenerate, h, hp, Bool.not_true, Bool.false_eq_true, if_false]

theorem identityGenerate_transition {old q : Nat} {cid : BitVec 16} (h : s.sec.needId = true) (hp : s.sec.pendTok = some (old, q, cid))
    (ok : Bool) : identityGenerate s ok =
      if ok then { s with sec := { s.sec with pendTok := none } }.makeIdentity.endTransition old 2 q cid
      else { s with sec := { s.sec with pendTok := none, needId := false } }.finish q 14 cid stInternal 0 0 := by
  simp only [identityGenerate, h, hp, Bool.not_true, Bool.false_eq_true, if_false]
end

end Sys2Proof.Machine
end

section
/-! The statement about lifecycle tokens, settled. -/

namespace Sys2Proof.Machine
open Sys2Proof

/-- Settles O54: a token of its row's kind runs (`State.tokenCmd_runs`); a transition reaches its target
(`State.transition_lcState`), any other token that is taken has its effect (`State.otherToken_acts`), and a refused one only
completes (`State.otherToken_refuses`). -/
theorem tokensChangeTheLifecycle : Obligations.TokensChangeTheLifecycle := by
  unfold Obligations.TokensChangeTheLifecycle
  refine ⟨fun s e b hr ht hp hin hc ha hl => ?tokens, fun s hr => ?rest⟩
  case tokens =>
    intro u target k ends refused
    have hstate : u.sec = s.sec := by rw [State.readBuffer_sec, State.takeEntry_sec]
    refine ⟨?field, ?move, ?enrol, ?revoke, ?openDebug, ?closeDebug, ?blank, ?refuses⟩
    case field =>
      exact fun hk h => exec_of_live (c := .lifecycleTransition e) hr rfl (lifecycleTransition_field ht hp hin hc ha hl hk h)
    case move =>
      intro hk h hcon h2 h10
      have hmoves : transitionOk u.sec.lcState target = true := by rw [hstate]; exact h
      exact ⟨fun hok => exec_of_live (c := .lifecycleTransition e) hr rfl
          (lifecycleTransition_refuses ht hp hin hc ha hl hk h hcon h2 h10 hok),
        fun hok => ⟨exec_of_live (c := .lifecycleTransition e) hr rfl
          (lifecycleTransition_moves ht hp hin hc ha hl hk h hcon h2 h10 hok),
          State.transition_lcState hmoves, State.transition_tokenSeq u b target e.sq e.cid⟩⟩
    case enrol =>
      exact fun hk hok h0 => exec_of_live (c := .keyEnrol e) hr rfl (State.otherToken_acts ht hp hin hc ha hl _ hk hok (.inr h0))
    case revoke =>
      exact fun hk hok h0 => exec_of_live (c := .keyRevoke e) hr rfl (State.otherToken_acts ht hp hin hc ha hl _ hk hok (.inr h0))
    case openDebug =>
      intro hk hok h2
      refine ⟨_, exec_of_live (c := .debugOpen e) hr rfl ((debugOpenCmd_eq s e).trans
        (State.otherToken_acts ht hp hin hc ha hl _ hk hok (.inl le_rfl))), ?_⟩
      rw [State.finish_sec, ← hstate]
      exact State.debugOpened_sec ((congrArg Sec.lcState hstate).trans h2)
    case closeDebug =>
      intro hk hok
      refine ⟨_, exec_of_live (c := .debugClose e) hr rfl ((debugCloseCmd_eq s e).trans
        (State.otherToken_acts ht hp hin hc ha hl _ hk hok (.inl (by decide)))), ?_⟩
      rw [State.finish_sec]
      exact State.debugClosed_sec u b
    case blank =>
      exact fun h0 => ⟨
        fun hk => exec_of_live (c := .keyEnrol e) hr rfl (State.otherToken_refuses ht hp hin hc ha hl _ hk (.inr ⟨by decide, h0⟩)),
        fun hk => exec_of_live (c := .keyRevoke e) hr rfl (State.otherToken_refuses ht hp hin hc ha hl _ hk (.inr ⟨by decide, h0⟩))⟩
    case refuses =>
      exact fun h => ⟨
        fun hk => exec_of_live (c := .keyEnrol e) hr rfl (State.otherToken_refuses ht hp hin hc ha hl _ hk (.inl h)),
        fun hk => exec_of_live (c := .keyRevoke e) hr rfl (State.otherToken_refuses ht hp hin hc ha hl _ hk (.inl h)),
        fun hk => exec_of_live (c := .debugOpen e) hr rfl (State.otherToken_refuses ht hp hin hc ha hl _ hk (.inl h)),
        fun hk => exec_of_live (c := .debugClose e) hr rfl (State.otherToken_refuses ht hp hin hc ha hl _ hk (.inl h))⟩
  case rest =>
    refine ⟨fun h => ?_, fun h => ?_, fun h ok => ?_, fun h hp => ⟨?_, ?_⟩, fun old q cid h hp => ⟨?_, ?_⟩⟩
    · exact ⟨_, exec_of_live (c := .debugExpire) hr rfl rfl, debugExpire_closes h⟩
    · exact exec_of_live (c := .debugExpire) hr rfl (debugExpire_runs h)
    · exact exec_of_live (c := .identityGenerate ok) hr rfl (identityGenerate_none h ok)
    · exact exec_of_live (c := .identityGenerate true) hr rfl (identityGenerate_alone h hp true)
    · exact exec_of_live (c := .identityGenerate false) hr rfl (identityGenerate_alone h hp false)
    · exact exec_of_live (c := .identityGenerate true) hr rfl (identityGenerate_transition h hp true)
    · exact exec_of_live (c := .identityGenerate false) hr rfl (identityGenerate_transition h hp false)

end Sys2Proof.Machine
end

section
/-! SUPPORT. Photo-finish: the trigger that starts a capture, the capture, its release, and the slices of the log (R435–R439,
R446). -/

namespace Sys2Proof.Machine
open Sys2Proof

section
variable {s : State}

/-- With nothing held or pending a trigger fixes the capture eight cycles later (R436). -/
theorem State.pfTrigger_starts (hh : s.snap.held = none) (hp : s.snap.pend = none) (bit code : Nat) (armBit : Option Nat) :
    s.pfTrigger bit code armBit = { s with snap := { s.snap with
      pend := some (s.now + 8), causes := (1 : BitVec 5) <<< bit, primary := bit, code := code,
      took := match armBit with | none => 0 | some k => 1 <<< k } } := by
  simp only [State.pfTrigger, hh, hp]
  rfl

theorem photoInEdge_triggers (hc : (s.claim 0x22).held = true) (ha : s.snap.arm.getLsbD 1 = true) :
    photoInEdge s = s.pfTrigger 1 0 (some 1) := by
  rw [photoInEdge, hc, ha, Bool.and_self, if_pos rfl]

theorem photoInEdge_unarmed (h : (s.claim 0x22).held = false ∨ s.snap.arm.getLsbD 1 = false) : photoInEdge s = s := by
  rw [photoInEdge, Bool.and_eq_false_iff.mpr h, if_neg Bool.false_ne_true]

theorem pfProgTrigger_triggers (ha : s.snap.arm.getLsbD 2 = true) (ho : s.pacer.open_ = true) (hh : s.pacer.heatNum = s.snap.progHeat)
    (hc : s.cyc = s.snap.progCyc.toNat) (he : s.pacer.elapsed < s.L) : pfProgTrigger s = s.pfTrigger 2 0 (some 2) := by
  rw [pfProgTrigger, ha, ho, decide_eq_true hh, decide_eq_true hc, decide_eq_true he]
  rfl

theorem pfProgTrigger_elsewhere (h : s.snap.arm.getLsbD 2 = false ∨ s.pacer.heatNum ≠ s.snap.progHeat) : pfProgTrigger s = s := by
  rcases h with h | h
  · simp only [pfProgTrigger, h, Bool.false_and, Bool.false_eq_true, if_false]
  · simp only [pfProgTrigger, h, decide_false, Bool.and_false, Bool.false_and, Bool.false_eq_true, if_false]

/-! ### The capture (R436–R438) -/

/-- An event of a class that no trigger watches leaves the photo-finish unit as it was (R371, R435). -/
theorem State.raiseCore_snap (s : State) (code : Nat) (src : Word) (data : BitVec 64) (tied : Bool) :
    (s.raiseCore code src data tied).snap = s.snap := by
  have hjournal : ∀ (t : State) (e : Event), (t.journal e).snap = t.snap := fun t e => by
    unfold State.journal
    split <;> rfl
  have henqueue : (s.enqueue code src data tied).snap = s.snap := by
    unfold State.enqueue
    dsimp only
    split
    · split_ifs <;> rw [hjournal]
    · split_ifs
      · rw [hjournal]
      · rw [hjournal, hjournal]
  exact henqueue

theorem State.raise_snap_unwatched (s : State) {code : Nat} (h : 10 ≤ code / 256) (src : Word) (data : BitVec 64) (tied : Bool) :
    (s.raise code src data tied).snap = s.snap := by
  unfold State.raise
  dsimp only
  rw [if_neg (fun hw => absurd hw.2.1 (by omega))]
  exact State.raiseCore_snap s code src data tied

theorem pfCapture_early {c : Nat} (hp : s.snap.pend = some c) (h : s.now < c) : pfCapture s = s := by
  simp only [pfCapture, hp, h, if_true]

/-- The snapshot that a capture in the current cycle holds. -/
def State.shot (s : State) : Shot :=
  { num := s.snap.count.toNat + 1,
    cause := fw s.snap.code 16 ||| fw (s.snap.primary % 8) 8 ||| s.snap.causes.zeroExtend 32,
    heat := s.pacer.heatNum, cyc := fw s.cyc 0, missed := 0,
    domOff := ~~~(s.pwr.on.zeroExtend 32) &&& 0xFFFFF, secs := s.sections }

theorem pfCapture_snap {c : Nat} (hp : s.snap.pend = some c) (h : c ≤ s.now) : (pfCapture s).snap = { s.snap with
    pend := none, held := some s.shot, heldAt := s.now, count := sat1 s.snap.count, arm := s.snap.arm &&& ~~~s.snap.took,
    causes := 0, primary := 0, code := 0, took := 0 } := by
  simp only [pfCapture, hp, Nat.not_lt.mpr h, if_false]
  rw [State.tally_snap, State.raise_snap_unwatched _ (by decide)]
  rfl

/-! ### Releases (R439) -/

theorem snapshotHoldExpire_expires (hh : s.snap.held.isSome = true) (h0 : s.log.holdS ≠ 0)
    (h : s.snap.heldAt + s.log.holdS.toNat * lcPerSec ≤ s.now) : snapshotHoldExpire s = s.pfRelease := by
  rw [snapshotHoldExpire, hh, decide_eq_true h0, decide_eq_true h]
  rfl

theorem snapshotHoldExpire_holds
    (h : s.snap.held = none ∨ s.log.holdS = 0 ∨ s.now < s.snap.heldAt + s.log.holdS.toNat * lcPerSec) : snapshotHoldExpire s = s := by
  rcases h with h | h | h
  · simp only [snapshotHoldExpire, h, Option.isSome_none, Bool.false_and, Bool.false_eq_true, if_false]
  · simp only [snapshotHoldExpire, h, ne_eq, not_true_eq_false, decide_false, Bool.and_false, Bool.false_and, Bool.false_eq_true, if_false]
  · simp only [snapshotHoldExpire, Nat.not_le.mpr h, decide_false, Bool.and_false, Bool.false_eq_true, if_false]

/-! ### The log's slices (R446) -/

theorem logSliceWrite_down (h : s.sec.up = false) (a b : Bool) : logSliceWrite s a b = s := by
  simp only [logSliceWrite, h, Bool.not_false, if_true]

theorem logSliceWrite_next (h : s.sec.up = true) (hf : s.log.frame ≠ []) (hs : s.log.slice ≠ 0) {a b : Bool} (hv : (a || b) = true) :
    logSliceWrite s a b = { s with log := { s.log with
      mem := mwrite s.log.mem (0x80000 + 65536 * (s.log.seq % 32) + 1024 * s.log.slice)
        ((s.log.frame.drop (1024 * s.log.slice - 64)).take 1024)
      slice := (s.log.slice + 1) % 64 } } := by
  have hframe : s.log.frame.isEmpty = false := List.isEmpty_eq_false_iff.mpr hf
  simp only [logSliceWrite, h, hframe, hs, hv, Bool.not_true, Bool.false_eq_true, if_false, State.logWrite, if_true]

end

end Sys2Proof.Machine
end

section
/-! The statement about snapshots, settled. -/

namespace Sys2Proof.Machine
open Sys2Proof

/-- Settles O57: a trigger starts a capture (`State.pfTrigger_starts`), which leaves the held snapshot in its cycle
(`pfCapture_snap`). -/
theorem snapshotsAreTakenAndReleased : Obligations.SnapshotsAreTakenAndReleased := by
  unfold Obligations.SnapshotsAreTakenAndReleased
  intro s m hr started
  refine ⟨fun hh hp => ⟨?photo, ?prog, ?cmd⟩, ?photoUnarmed, ?progElsewhere, ?others, ?release, ?early, ?capture, ?expires, ?holds,
    ?down, ?slice⟩
  case photo =>
    exact fun hc ha => ⟨_, exec_of_live (c := .photoInEdge) hr rfl (photoInEdge_triggers hc ha), State.pfTrigger_starts hh hp 1 0 (some 1)⟩
  case prog =>
    exact fun ha ho hn hc he => ⟨_, exec_of_live (c := .pfProgTrigger) hr rfl (pfProgTrigger_triggers ha ho hn hc he),
      State.pfTrigger_starts hh hp 2 0 (some 2)⟩
  case cmd =>
    exact fun hm => ⟨s.pfTrigger 3 0 none, exec_of_live (c := .pfCmdTrig m) hr rfl (by rw [pfCmdTrig, if_pos hm]),
      State.pfTrigger_starts hh hp 3 0 none⟩
  case photoUnarmed => exact fun h => exec_of_live (c := .photoInEdge) hr rfl (photoInEdge_unarmed h)
  case progElsewhere => exact fun h => exec_of_live (c := .pfProgTrigger) hr rfl (pfProgTrigger_elsewhere h)
  case others =>
    exact fun hm => ⟨exec_of_live (c := .pfCmdTrig m) hr rfl (by rw [pfCmdTrig, hm, if_neg Bool.false_ne_true]),
      exec_of_live (c := .pfCmdRelease m) hr rfl (by rw [pfCmdRelease, hm, if_neg Bool.false_ne_true])⟩
  case release =>
    exact fun hm => exec_of_live (c := .pfCmdRelease m) hr rfl (by rw [pfCmdRelease, if_pos hm, State.pfRelease])
  case early => exact fun c hp h => exec_of_live (c := .pfCapture) hr rfl (pfCapture_early hp h)
  case capture =>
    intro c hp h
    refine ⟨_, s.shot, exec_of_live (c := .pfCapture) hr rfl rfl, ?_⟩
    rw [pfCapture_snap hp h]
    exact ⟨rfl, rfl, rfl, rfl, rfl, rfl, rfl, rfl⟩
  case expires => exact fun hh h0 h => exec_of_live (c := .snapshotHoldExpire) hr rfl (snapshotHoldExpire_expires hh h0 h)
  case holds => exact fun h => exec_of_live (c := .snapshotHoldExpire) hr rfl (snapshotHoldExpire_holds h)
  case down => exact fun h a b => exec_of_live (c := .logSliceWrite a b) hr rfl (logSliceWrite_down h a b)
  case slice => exact fun h hf hs a b hv => exec_of_live (c := .logSliceWrite a b) hr rfl (logSliceWrite_next h hf hs hv)

end Sys2Proof.Machine
end

section
/-! SUPPORT. Power domains, resets of lanes and fields, device reset and its release, clocks and watchdogs (R455–R469). -/

namespace Sys2Proof.Machine
open Sys2Proof

/-! ### Domains (R455, R458) -/

/-- A bit that is set stands in the word. -/
theorem getLsbD_or_bit {w : Nat} (x : BitVec w) {k : Nat} (h : k < w) : (x ||| ((1 : BitVec w) <<< k)).getLsbD k = true := by
  simp [h]

/-- The power controller chooses a switch to close and changes nothing else. -/
theorem State.pickDomain_pwr (s : State) : s.pickDomain.pwr.on = s.pwr.on ∧ s.pickDomain.pwr.off = s.pwr.off ∧
    s.pickDomain.pwr.events = s.pwr.events := by
  unfold State.pickDomain
  split
  · exact ⟨rfl, rfl, rfl⟩
  · exact ⟨rfl, rfl, rfl⟩

theorem State.pickDomain_closing {s : State} (h : s.pwr.closing = none) : s.pickDomain.pwr.closing =
    (List.range 20).find? (fun d => within d 3 16 && !s.pwr.on.getLsbD d && !s.pwr.off.getLsbD d) := by
  simp only [State.pickDomain, h, Option.isSome_none, Bool.false_eq_true, if_false]

/-- The state with the requests of PWR_REQ recorded. -/
def State.offRequested (s : State) (v : Word) : State := { s with pwr := { s.pwr with off := (v &&& 0x0001FFF8).truncate 20 } }

section
variable {s : State} {m : BitVec 11} {v : Word}

theorem pwrReq_records (h : isStwMaster m = true ∨ m = 0x420) : pwrReq s m v = (s.offRequested v).pickDomain.answer 0 0 := by
  have hm : (isStwMaster m || decide (m = 0x420)) = true := by rw [Bool.or_eq_true, decide_eq_true_eq]; exact h
  rw [pwrReq, hm, if_pos rfl, State.offRequested]

theorem pwrReq_foreign (h : isStwMaster m = false) (hm : m ≠ 0x420) : pwrReq s m v = s.answer 0 0 := by
  simp only [pwrReq, h, hm, decide_false, Bool.or_self, Bool.false_eq_true, if_false]
end

/-- The blocks of a domain that leave reset are not the power controller's. -/
theorem State.resetRouters_pwr (s : State) (f : Nat) : (s.resetRouters f).pwr = s.pwr := by
  unfold State.resetRouters
  exact foldl_keeps State.pwr _
    (fun t r => foldl_keeps State.pwr (fun t n => t.setRout r n routReset) (fun _ _ => rfl) _ (t.setRcnt r rcntReset)) _ s

theorem State.domReset_pwr (s : State) (d : Nat) : (s.domReset d).pwr = s.pwr := by
  unfold State.domReset
  split_ifs
  · exact (foldl_keeps State.pwr (fun (t : State) p => (t.setLane p laneReset0).setLmem p (t.lmem p).regReset) (fun _ _ => rfl)
      (fieldLanes (d - 3)) (s.resetRouters (d - 3))).trans (s.resetRouters_pwr (d - 3))
  · rfl
  · exact foldl_keeps State.pwr (fun (t : State) q => t.setPort (8 * (d - 15) + q) portReset) (fun _ _ => rfl) _ s
  · rfl

/-- The state in which the switch of domain `d` has closed, with its own clock. -/
def State.domClosed (s : State) (d : Nat) : State :=
  let t := { s with pwr := { s.pwr with closing := none, on := s.pwr.on ||| ((1 : BitVec 20) <<< d) } }
  match domClk d with | some k => t.setClk k true | none => t

theorem State.domClosed_on (s : State) (d : Nat) : (s.domClosed d).pwr.on = s.pwr.on ||| ((1 : BitVec 20) <<< d) := by
  unfold State.domClosed
  dsimp only
  split <;> rfl

section
variable {s : State} {d : Nat}

theorem pwrDomainOn_waits (h : s.pwr.closing ≠ some d) : pwrDomainOn s d = s := if_pos h

theorem pwrDomainOn_eq (h : s.pwr.closing = some d) : pwrDomainOn s d =
    ((((s.domClosed d).domReset d).pwrEvent 0).raise 0x0B01 0 (BitVec.ofNat 64 d) false).pickDomain := if_neg (fun hn => hn h)

theorem pwrDomainOn_on (h : s.pwr.closing = some d) (hd : d < 20) :
    (pwrDomainOn s d).domOn d = true ∧ (pwrDomainOn s d).pwr.events.getLsbD 0 = true := by
  have hpick := State.pickDomain_pwr ((((s.domClosed d).domReset d).pwrEvent 0).raise 0x0B01 0 (BitVec.ofNat 64 d) false)
  rw [State.raise_pwr] at hpick
  obtain ⟨hon, -, hevents⟩ := hpick
  rw [pwrDomainOn_eq h, State.domOn, hon, hevents]
  refine ⟨?_, getLsbD_or_bit _ (by decide)⟩
  change ((s.domClosed d).domReset d).pwr.on.getLsbD d = true
  rw [State.domReset_pwr, State.domClosed_on]
  exact getLsbD_or_bit _ hd
end

/-! ### Lane and field resets (R465) -/

section
variable {s : State} {m : BitVec 11} {v : Word}

theorem pwrLaneRst_foreign (h : isStwMaster m = false) : pwrLaneRst s m v = s.answer 0 0 := by
  simp only [pwrLaneRst, h, Bool.not_false, Bool.true_or, if_true]

theorem pwrFieldRst_foreign (h : isStwMaster m = false) : pwrFieldRst s m v = s.answer 0 0 := by
  simp only [pwrFieldRst, h, Bool.not_false, Bool.true_or, if_true]

variable (hm : isStwMaster m = true) (hv : v.getLsbD 31 = true)
include hm hv

theorem pwrLaneRst_guarded (hp : v.toNat % 2048 < 1088) (hg : s.guarded (v.toNat % 2048) = true) :
    pwrLaneRst s m v = (s.pwrEvent 4).answer 0 0 := by
  simp only [pwrLaneRst, hm, hv, Nat.not_le.mpr hp, hg, decide_false, Bool.not_true, Bool.or_self, Bool.false_eq_true, if_false, if_true]

theorem pwrLaneRst_resets (hp : v.toNat % 2048 < 1088) (hg : s.guarded (v.toNat % 2048) = false)
    (hon : s.laneOn (v.toNat % 2048) = true) : pwrLaneRst s m v = (s.pwrReset1 (v.toNat % 2048)).answer 0 0 := by
  simp only [pwrLaneRst, hm, hv, Nat.not_le.mpr hp, hg, hon, decide_false, Bool.not_true, Bool.or_self, Bool.false_eq_true, if_false]

theorem pwrFieldRst_guarded (hf : v.toNat % 2048 < 8) (hg : (fieldLanes (v.toNat % 2048)).any s.guarded = true) :
    pwrFieldRst s m v = (s.pwrEvent 4).answer 0 0 := by
  simp only [pwrFieldRst, hm, hv, Nat.not_le.mpr hf, hg, decide_false, Bool.not_true, Bool.or_self, Bool.false_eq_true, if_false, if_true]

theorem pwrFieldRst_resets (hf : v.toNat % 2048 < 8) (hg : (fieldLanes (v.toNat % 2048)).any s.guarded = false)
    (hon : s.domOn (3 + v.toNat % 2048) = true) : pwrFieldRst s m v =
      ((((fieldLanes (v.toNat % 2048)).foldl State.pwrReset1 (s.resetRouters (v.toNat % 2048))).abortMaster
        (BitVec.ofNat 11 (0x410 + v.toNat % 2048))).answer 0 0) := by
  simp only [pwrFieldRst, hm, hv, Nat.not_le.mpr hf, hg, hon, decide_false, Bool.not_true, Bool.or_self, Bool.false_eq_true, if_false]
end

/-! ### Device reset and its release (R461–R463, R466) -/

theorem deviceReset_cause (s : State) (c : ResetCause) : (deviceReset s c).pwr.cause.getLsbD (ResetCause.bit c) = true :=
  getLsbD_or_bit _ (by cases c <;> decide)

/-- The release blanks the arrays of every lane. -/
theorem resetRelease_blank {s : State} (h : s.pwr.inReset = true) (p : Nat) : (resetRelease s).lmem p = (s.lmem p).blank := by
  simp only [resetRelease, h, Bool.not_true, Bool.false_eq_true, if_false]
  exact tget_tmap (D := lmemDflt) (fun _ m => m.blank) (fun _ => rfl) s.mems p

theorem resetRelease_released {s : State} (h : s.pwr.inReset = true) : (resetRelease s).pwr.clk = 0x703 ∧
    (resetRelease s).pwr.mainOn = true ∧ (resetRelease s).lanes = s.lanes ∧ (resetRelease s).pwr.cause = s.pwr.cause := by
  simp only [resetRelease, h, Bool.not_true, Bool.false_eq_true, if_false]
  exact ⟨trivial, trivial, trivial, trivial⟩

theorem mainPowerFail_resets (s : State) : (mainPowerFail s).pwr.inReset = true ∧ (mainPowerFail s).pwr.mainOn = false ∧
    (mainPowerFail s).pwr.cause.getLsbD 0 = true ∧ (mainPowerFail s).lanes = [] := by
  unfold mainPowerFail
  dsimp only
  split
  · exact ⟨rfl, rfl, deviceReset_cause s .por, rfl⟩
  · exact ⟨rfl, rfl, deviceReset_cause s .por, rfl⟩

theorem vbatApplication_first {s : State} (h : s.pwr.vbat = false) : vbatApplication s = { s with
    pwr := { s.pwr with vbat := true, rtc := 0, rtcHi := 0, rtcAcc := 0 }, sec := { s.sec with tamper := 0, tamperCnt := 0 } } := by
  simp only [vbatApplication, h, Bool.false_eq_true, if_false]

theorem vbatApplication_again {s : State} (h : s.pwr.vbat = true) : vbatApplication s = s := if_pos h

/-! ### Clocks (R464), watchdogs (R467) and temperature (R468) -/

section
variable {s : State}

theorem clkFail_out {c : Clock} (h : s.pwr.clk.getLsbD (Clock.bit c) = false) : clkFail s c = s := by
  simp only [clkFail, h, Bool.not_false, if_true]

theorem clkFail_periph (h : s.pwr.clk.getLsbD 1 = true) :
    clkFail s .periph = ((s.setClk 1 false).pwrEvent 1).raise 0x0B03 0 2 false := by
  have hbit : s.pwr.clk.getLsbD (Clock.bit .periph) = true := h
  simp only [clkFail, hbit, Bool.not_true, Bool.false_eq_true, if_false]
  rfl

theorem clkFail_refclk (h : s.pwr.clk.getLsbD 9 = true) :
    clkFail s .refclk = ((s.setClk 9 false).pwrEvent 1).raise 0x0B03 0 512 false := by
  have hbit : s.pwr.clk.getLsbD (Clock.bit .refclk) = true := h
  simp only [clkFail, hbit, Bool.not_true, Bool.false_eq_true, if_false]
  rfl

theorem State.setClk_clears (s : State) {k : Nat} (h : k < 11) : (s.setClk k false).pwr.clk.getLsbD k = false := by
  simp [State.setClk, h]

theorem State.setClk_sets (s : State) {k : Nat} (h : k < 11) : (s.setClk k true).pwr.clk.getLsbD k = true :=
  getLsbD_or_bit s.pwr.clk h

theorem clkLockReturn_qdr (n : Nat) : clkLockReturn s (.qdr n) = if s.domOn (11 + n % 4) then s.setClk (2 + n % 4) true else s := rfl
theorem clkLockReturn_serdes (n : Nat) : clkLockReturn s (.serdes n) = if s.domOn (15 + n % 2) then s.setClk (6 + n % 2) true else s := rfl

/-- Resetting a pair of stewards leaves the power controller alone. -/
theorem State.abortMaster_pwr (s : State) (m : BitVec 11) : (s.abortMaster m).pwr = s.pwr := by
  unfold State.abortMaster
  dsimp only
  split_ifs
  · rfl
  · exact State.raise_pwr _ _ _ _ _

theorem State.mbxReset_pwr (s : State) (code : Nat) : (s.mbxReset code).pwr = s.pwr := by
  refine foldl_keeps State.pwr _ (fun t c => ?_) (List.range 64) s
  dsimp only
  split_ifs
  · rfl
  · rfl
  · exact foldl_keeps State.pwr (fun s p => s.pendInt p 0) (fun _ _ => rfl) _ _
  · rfl
  · rfl

theorem State.resetLane_pwr (s : State) (p : Nat) : (s.resetLane p).pwr = s.pwr := by
  have hclear : ∀ (m : BitVec 11) (w : Word), (s.clearLane p m w).pwr = s.pwr := fun m w => by
    rw [State.clearLane, State.setLane_pwr]
    split
    · rfl
    · exact State.abortMaster_pwr s _
  unfold State.resetLane
  dsimp only
  split_ifs
  · rw [State.mbxReset_pwr, hclear]
  · rw [hclear]

theorem State.resetPair_pwr (s : State) (ps : List Nat) : (s.resetPair ps).pwr = s.pwr :=
  foldl_keeps State.pwr State.resetLane State.resetLane_pwr ps s

theorem State.wdtCounted_pair (s : State) (st : Nat) : (s.wdtCounted st).pair = s.pair := by
  rw [State.wdtCounted, State.raise_pair, State.pwrEvent]

theorem State.wdtCounted_svcPair (s : State) (st : Nat) : (s.wdtCounted st).svcPair = s.svcPair := by
  rw [State.svcPair, State.wdtCounted_pair, State.svcPair]

theorem State.wdtCounted_pwr (s : State) (st : Nat) : (s.wdtCounted st).pwr.inReset = s.pwr.inReset ∧
    (s.wdtCounted st).pwr.wdtExp = sat1 s.pwr.wdtExp ∧ (s.wdtCounted st).pwr.events.getLsbD 3 = true := by
  rw [State.wdtCounted, State.raise_pwr]
  exact ⟨rfl, rfl, getLsbD_or_bit s.pwr.events (by decide)⟩

theorem wdtKick_kicks {m : BitVec 11} {v : Word} (h : m.toNat = 0x400 + v.toNat % 4) : wdtKick s m v =
    { s with pwr := { s.pwr with kick := putN s.pwr.kick (v.toNat % 4) s.now } }.answer 0 0 := by
  rw [wdtKick, if_pos h]

theorem wdtKick_foreign {m : BitVec 11} {v : Word} (h : m.toNat ≠ 0x400 + v.toNat % 4) : wdtKick s m v = s.answer 0 0 := by
  rw [wdtKick, if_neg h]

theorem pwrTjWarn_warns {i : Nat} {tj : BitVec 16} (hi : i < 12) (hw : s.pwr.warned = false) (ht : s.pwr.tjWarn.toInt ≤ tj.toInt) :
    (pwrTjWarn s i tj).pwr.warned = true ∧ (pwrTjWarn s i tj).pwr.events.getLsbD 2 = true ∧
      tget tempDflt (pwrTjWarn s i tj).pwr.temp i = tj := by
  have hguard : ¬ (12 ≤ i ∨ s.pwr.warned = true ∨ tj.toInt < s.pwr.tjWarn.toInt) := by
    rintro (h | h | h)
    · omega
    · exact Bool.false_ne_true (hw.symm.trans h)
    · omega
  rw [pwrTjWarn, if_neg hguard, State.raise_pwr]
  exact ⟨rfl, getLsbD_or_bit s.pwr.events (by decide), tget_tput_same s.pwr.temp i tj⟩

theorem pwrTjWarn_once {i : Nat} {tj : BitVec 16} (h : s.pwr.warned = true ∨ tj.toInt < s.pwr.tjWarn.toInt) : pwrTjWarn s i tj = s :=
  if_pos (.inr h)
end

end Sys2Proof.Machine
end

section
/-! The statements about power, resets, clocks and watchdogs, settled. -/

namespace Sys2Proof.Machine
open Sys2Proof

/-- Settles O58: what PWR_REQ and a closed switch leave (`pwrReq_records`, `pwrDomainOn_on`), what a lane or field reset is
refused for, and the state of device reset and of its release (`deviceReset_cause`, `resetRelease_blank`). -/
theorem powerAndResetAct : Obligations.PowerAndResetAct := by
  unfold Obligations.PowerAndResetAct
  refine ⟨fun s m v d hr => ?power, fun s c => ?deviceReset, fun s h => ?release, fun s h => ?released, fun s => ?mainPower,
    fun s h => ?vbat, fun s h => ?vbatAgain⟩
  case power =>
    refine ⟨fun h => ?_, fun h hm => ?_, fun h => ?_, fun h hd => ?_, fun hm hv hp => ⟨fun hg => ?_, fun hg hon => ?_⟩, fun hm hv hf => ?_,
      fun h => ⟨?_, ?_⟩⟩
    · obtain ⟨hon, hoff, -⟩ := (s.offRequested v).pickDomain_pwr
      refine ⟨_, exec_of_live (c := .pwrReq m v) hr rfl (pwrReq_records h), hoff, hon, fun hc => ?_⟩
      change (s.offRequested v).pickDomain.pwr.closing =
        (List.range 20).find? (fun d => within d 3 16 && !s.pwr.on.getLsbD d && !(s.offRequested v).pickDomain.pwr.off.getLsbD d)
      rw [hoff]
      exact State.pickDomain_closing hc
    · exact exec_of_live (c := .pwrReq m v) hr rfl (pwrReq_foreign h hm)
    · exact exec_of_live (c := .pwrDomainOn d) hr rfl (pwrDomainOn_waits h)
    · exact ⟨_, exec_of_live (c := .pwrDomainOn d) hr rfl rfl, pwrDomainOn_on h hd⟩
    · exact exec_of_live (c := .pwrLaneRst m v) hr rfl (pwrLaneRst_guarded hm hv hp hg)
    · exact exec_of_live (c := .pwrLaneRst m v) hr rfl (pwrLaneRst_resets hm hv hp hg hon)
    · exact ⟨fun hg => exec_of_live (c := .pwrFieldRst m v) hr rfl (pwrFieldRst_guarded hm hv hf hg),
        fun hg hon => exec_of_live (c := .pwrFieldRst m v) hr rfl (pwrFieldRst_resets hm hv hf hg hon)⟩
    · exact exec_of_live (c := .pwrLaneRst m v) hr rfl (pwrLaneRst_foreign h)
    · exact exec_of_live (c := .pwrFieldRst m v) hr rfl (pwrFieldRst_foreign h)
  case deviceReset =>
    exact ⟨deviceReset s c, rfl, rfl, deviceReset_cause s c, rfl, rfl, rfl, rfl, rfl, rfl, rfl, rfl, rfl, rfl, rfl, rfl, rfl, rfl⟩
  case release =>
    obtain ⟨hclk, hmain, hlanes, hcause⟩ := resetRelease_released h
    refine ⟨resetRelease s, rfl, resetRelease_inReset s, hclk, hmain, fun p => ?_, hlanes, hcause⟩
    rw [resetRelease_blank h]
    exact ⟨rfl, rfl, rfl⟩
  case released =>
    refine congrArg Host.Outcome.next (if_pos ?_)
    rw [h, Bool.not_false]
  case mainPower => exact ⟨mainPowerFail s, rfl, mainPowerFail_resets s⟩
  case vbat => exact ⟨vbatApplication s, rfl, by rw [vbatApplication_first h]; exact ⟨rfl, rfl, rfl⟩⟩
  case vbatAgain => exact congrArg Host.Outcome.next (vbatApplication_again h)

/-- Settles O59: CLK_FAIL and CLK_LOCK_RETURN by clock (`clkFail_*`), and a watchdog by the pair that its steward is in
(`wdtExpired_late`). -/
theorem clocksWatchdogsAndTemperature : Obligations.ClocksWatchdogsAndTemperature := by
  unfold Obligations.ClocksWatchdogsAndTemperature
  intro s m v st i tj hr
  refine ⟨?out, ?periph, ?refclk, ?lock, ?qdr, ?qdrOff, ?serdes, ?corePll, ?trip, ?kick, ?kickForeign, ?early, ?late, ?warns, ?once, ?rtc⟩
  case out => exact fun c h => exec_of_live (c := .clkFail c) hr rfl (clkFail_out h)
  case periph =>
    exact fun h => ⟨exec_of_live (c := .clkFail .periph) hr rfl (clkFail_periph h), s.setClk_clears (by decide)⟩
  case refclk => exact fun h => exec_of_live (c := .clkFail .refclk) hr rfl (clkFail_refclk h)
  case lock => exact ⟨exec_of_live (c := .clkLockReturn .periph) hr rfl rfl, s.setClk_sets (by decide)⟩
  case qdr =>
    exact fun n h => exec_of_live (c := .clkLockReturn (.qdr n)) hr rfl ((clkLockReturn_qdr n).trans (if_pos h))
  case qdrOff =>
    exact fun n h => exec_of_live (c := .clkLockReturn (.qdr n)) hr rfl ((clkLockReturn_qdr n).trans (by rw [h, if_neg Bool.false_ne_true]))
  case serdes =>
    exact fun n h => exec_of_live (c := .clkLockReturn (.serdes n)) hr rfl ((clkLockReturn_serdes n).trans (if_pos h))
  case corePll => exact exec_of_live (c := .corePllLockLoss) hr rfl rfl
  case trip => exact fun hi => exec_of_live (c := .thermalTrip i) hr rfl (if_pos hi)
  case kick => exact fun h => exec_of_live (c := .wdtKick m v) hr rfl (wdtKick_kicks h)
  case kickForeign => exact fun h => exec_of_live (c := .wdtKick m v) hr rfl (wdtKick_foreign h)
  case early => exact fun h => exec_of_live (c := .wdtExpired st) hr rfl (wdtExpired_early (.inr h))
  case late =>
    intro hst hen hlate
    have hguard : ¬ (4 ≤ st ∨ s.pwr.wdtEn = false ∨ s.now < getN s.pwr.kick st + 1250 * s.pwr.wdtPer) := by
      rintro (h | h | h)
      · omega
      · exact Bool.false_ne_true (h.symm.trans hen)
      · omega
    have hexec := exec_of_live (c := .wdtExpired st) hr rfl (wdtExpired_late hguard)
    obtain ⟨hreset, hexp, hevents⟩ := s.wdtCounted_pwr st
    rw [State.wdtCounted_svcPair, State.wdtCounted_pair] at hexec
    refine ⟨fun hsvc hok => ?_, fun hsvc hok => ?_, fun hsvc => ?_⟩
    · rw [hsvc, hok, if_pos rfl, if_neg Bool.false_ne_true] at hexec
      exact ⟨_, hexec, rfl, deviceReset_cause _ .wdt⟩
    · rw [hsvc, hok, if_pos rfl, if_pos rfl] at hexec
      exact ⟨_, hexec, rfl, hreset.trans hr, hexp, hevents⟩
    · rw [hsvc, if_neg Bool.false_ne_true] at hexec
      have hpwr := (s.wdtCounted st).resetPair_pwr (s.wdtCounted st).stbyPair
      refine ⟨_, hexec, rfl, rfl, ?_, ?_⟩
      · exact (congrArg Pwr.wdtExp hpwr).trans hexp
      · exact (congrArg (fun x : Pwr => x.events.getLsbD 3) hpwr).trans hevents
  case warns => exact fun hi hw ht => ⟨_, exec_of_live (c := .pwrTjWarn i tj) hr rfl rfl, pwrTjWarn_warns hi hw ht⟩
  case once => exact fun h => exec_of_live (c := .pwrTjWarn i tj) hr rfl (pwrTjWarn_once h)
  case rtc => exact exec_of_live (c := .rtcLoRead m) hr rfl rfl

end Sys2Proof.Machine
end

section
/-! SUPPORT. The peripherals that a resource serves, timers, TICK_OUT and the PMBus poll (R435, R448, R472–R479). -/

namespace Sys2Proof.Machine
open Sys2Proof

section
variable {s : State} {m : BitVec 11} {v : Word} {b : Byte}

/-! ### UART and I2C1 (R477) -/

theorem uartTxWrite_foreign (h : s.mayWrite m 0x20 = false) : uartTxWrite s m v = s.perRefuse.answer 0 0 := by
  simp only [uartTxWrite, h, Bool.not_false, if_true]

theorem uartTxWrite_appends (h : s.mayWrite m 0x20 = true) (hl : s.per.tx.length < 16) : uartTxWrite s m v =
    { s with per := { s.per with tx := s.per.tx ++ [v.truncate 8] } }.answer 0 0 := by
  simp only [uartTxWrite, h, Nat.not_le.mpr hl, Bool.not_true, Bool.false_eq_true, if_false]

theorem uartTxWrite_overflows (h : s.mayWrite m 0x20 = true) (hl : 16 ≤ s.per.tx.length) : uartTxWrite s m v =
    { s with per := { s.per with txovf := true } }.answer 0 0 := by
  simp only [uartTxWrite, h, hl, Bool.not_true, Bool.false_eq_true, if_false, if_true]

theorem uartRxRead_pops {r : List Byte} (h : s.per.rx = b :: r) : uartRxRead s =
    { s with per := { s.per with rx := r } }.answer 0 (b.zeroExtend 32) := by
  simp only [uartRxRead, h]

theorem uartRxRead_empty (h : s.per.rx = []) : uartRxRead s = s.answer 0 0 := by
  simp only [uartRxRead, h]

theorem uartRxByte_enters (h : (s.claim 0x20).held = true) (hl : s.per.rx.length < 16) :
    uartRxByte s b true = { s with per := { s.per with rx := s.per.rx ++ [b] } } := by
  simp only [uartRxByte, h, Nat.not_le.mpr hl, Bool.not_true, Bool.or_false, Bool.false_eq_true, if_false]

theorem uartRxByte_overruns (h : (s.claim 0x20).held = true) (hl : 16 ≤ s.per.rx.length) :
    uartRxByte s b true = { s with per := { s.per with overrun := true } } := by
  simp only [uartRxByte, h, hl, Bool.not_true, Bool.or_false, Bool.false_eq_true, if_false, if_true]

theorem uartTxByteDone_sends {r : List Byte} (h : s.per.tx = b :: r) :
    uartTxByteDone s = { s with per := { s.per with tx := r }, out := .uart b :: s.out } := by
  simp only [uartTxByteDone, h, State.emit]

theorem i2c1Xfer_foreign (h : s.mayWrite m 0x21 = false) : i2c1Xfer s m v = s.perRefuse.answer 0 0 := by
  simp only [i2c1Xfer, h, Bool.not_false, if_true]

theorem i2c1Xfer_starts (h : s.mayWrite m 0x21 = true) (hv : v.getLsbD 31 = true) (hb : s.per.i2cBusy = false) :
    i2c1Xfer s m v = { s with per := { s.per with i2cBusy := true, i2cCur := v } }.answer 0 0 := by
  simp only [i2c1Xfer, h, hv, hb, Bool.not_true, Bool.or_self, Bool.false_eq_true, if_false]

theorem i2c1ByteDone_nack (h : s.per.i2cBusy = true) : (i2c1ByteDone s false false b).per =
    { s.per with i2cBusy := false, i2cNack := true, i2cOpen := none } := by
  simp only [i2c1ByteDone, h, Bool.not_true, Bool.not_false, Bool.or_true, Bool.or_false, Bool.and_false, Bool.false_and, Bool.and_self,
    Bool.false_eq_true, if_false, if_true]
  rfl

theorem i2c1ByteDone_lost (h : s.per.i2cBusy = true) : (i2c1ByteDone s true true b).per.i2cBusy = false ∧
    (i2c1ByteDone s true true b).per.i2cArb = true ∧ (i2c1ByteDone s true true b).out = s.out := by
  simp only [i2c1ByteDone, h, Bool.not_true, Bool.or_true, Bool.false_eq_true, if_false, if_true]
  exact ⟨trivial, trivial, trivial⟩

theorem i2c1ByteDone_reads (h : s.per.i2cBusy = true) (hrd : s.per.i2cCur.getLsbD 30 = true) :
    (i2c1ByteDone s true false b).per.i2cBusy = false ∧ (i2c1ByteDone s true false b).per.i2cRx = b := by
  simp only [i2c1ByteDone, h, hrd, Bool.not_true, Bool.not_false, Bool.and_self, Bool.false_eq_true, if_false, if_true]
  exact ⟨trivial, trivial⟩
end

/-! ### Timers and TICK_OUT (R478) -/

section
variable {s : State} {k : Nat}

@[simp] theorem State.tmr_setTmr_same (s : State) (k : Nat) (t : Tmr) : (s.setTmr k t).tmr k = t := tget_tput_same s.per.tmr k t

theorem State.tmr_setTmr_other (s : State) (t : Tmr) {j k : Nat} (h : j ≠ k) : (s.setTmr k t).tmr j = s.tmr j :=
  tget_tput_other s.per.tmr t h

/-- A timer in mode 1 or 2 that is enabled reaches CMP: it restarts in mode 2 and stops in mode 1. -/
theorem tmrCompare_reaches (he : (s.tmr k).en = true) (hc : (s.tmr k).cnt = (s.tmr k).cmp) (hm : (s.tmr k).mode = 1 ∨ (s.tmr k).mode = 2) :
    (tmrCompare s k).tmr k = if (s.tmr k).mode = 2 then { s.tmr k with cnt := 0 } else { s.tmr k with en := false } := by
  have hguard : ((s.tmr k).en && (decide ((s.tmr k).mode = 1) || decide ((s.tmr k).mode = 2)) && decide ((s.tmr k).cnt = (s.tmr k).cmp)) = true := by
    rw [he, decide_eq_true hc, Bool.true_and, Bool.and_true, Bool.or_eq_true, decide_eq_true_eq, decide_eq_true_eq]
    exact hm
  unfold tmrCompare
  dsimp only
  rw [if_pos hguard, State.tmr_setTmr_same]

theorem tmrCapture_captures (he : (s.tmr k).en = true) (hm : (s.tmr k).mode = 3) (hp : s.tmrPin k = true) :
    tmrCapture s k = s.setTmr k { s.tmr k with cap := (s.tmr k).cnt } := by
  simp only [tmrCapture, he, hm, hp, decide_true, Bool.and_self, if_true]

theorem tickOutPulse_pulses (hc : (s.claim 0x23).held = true) (ho : s.pacer.open_ = true) (hs : s.pacer.state ≠ .stopped)
    (hd : s.per.tickDone = false) (hl : (s.claim 0x23).cfg.toNat % 16777216 < s.L)
    (he : s.pacer.elapsed = ((s.claim 0x23).cfg.toNat % 16777216 + 10) % s.L) : tickOutPulse s =
      { s with per := { s.per with tickDone := true }, out := .pin 5 (8 * ((s.claim 0x23).cfg.toNat / 16777216)) :: s.out } := by
  simp only [tickOutPulse, hc, ho, hs, hd, hl, he, ne_eq, not_false_eq_true, decide_true, Bool.not_false, Bool.and_self,
    Nat.le_add_right, if_true, State.emit]

theorem tickOutPulse_once (hd : s.per.tickDone = true) : tickOutPulse s = s := by
  simp only [tickOutPulse, hd, Bool.not_true, Bool.and_false, Bool.false_and, Bool.false_eq_true, if_false]
end

/-! ### The PMBus poll (R448, R479) -/

/-- The readings of the second are kept; the histograms are the log's. -/
theorem pmbusPoll_keeps (s : State) (rails : List PmbRail) (w : Sensors) :
    (pmbusPoll s rails w).per.powerMw = (((rails.zipIdx.filter (fun q => decide (q.2 < 16) && (getW s.per.rail q.2).getLsbD 31)).filter
      (fun q => q.1.answered)).map (fun q => q.1.pinMw)).sum ∧
    (pmbusPoll s rails w).pwr.vddMv = BitVec.ofNat 16 w.vddMv ∧ (pmbusPoll s rails w).log.utilMax = 0 := by
  unfold pmbusPoll
  dsimp only
  refine ⟨?_, ?_, rfl⟩
  · split <;> split <;> rfl
  · split <;> split <;> rfl

end Sys2Proof.Machine
end

section
/-! The statement about the peripherals, settled. -/

namespace Sys2Proof.Machine
open Sys2Proof

/-- Settles O60: each command is one of the cases above. -/
theorem peripheralsServeTheirOwners : Obligations.PeripheralsServeTheirOwners := by
  unfold Obligations.PeripheralsServeTheirOwners
  intro s m v b k hr x
  refine ⟨?tx, ?txFull, ?txForeign, ?rx, ?rxEmpty, ?byte, ?overrun, ?sent, ?xfer, ?xferForeign, ?nack, ?lost, ?read, ?compare, ?capture,
    ?tick, ?tickOnce, ?poll⟩
  case tx => exact fun h hl => exec_of_live (c := .uartTxWrite m v) hr rfl (uartTxWrite_appends h hl)
  case txFull => exact fun h hl => exec_of_live (c := .uartTxWrite m v) hr rfl (uartTxWrite_overflows h hl)
  case txForeign => exact fun h => exec_of_live (c := .uartTxWrite m v) hr rfl (uartTxWrite_foreign h)
  case rx => exact fun r h => exec_of_live (c := .uartRxRead m) hr rfl (uartRxRead_pops h)
  case rxEmpty => exact fun h => exec_of_live (c := .uartRxRead m) hr rfl (uartRxRead_empty h)
  case byte => exact fun h hl => exec_of_live (c := .uartRxByte b true) hr rfl (uartRxByte_enters h hl)
  case overrun => exact fun h hl => exec_of_live (c := .uartRxByte b true) hr rfl (uartRxByte_overruns h hl)
  case sent => exact fun r h => exec_of_live (c := .uartTxByteDone) hr rfl (uartTxByteDone_sends h)
  case xfer => exact fun h hv hb => exec_of_live (c := .i2c1Xfer m v) hr rfl (i2c1Xfer_starts h hv hb)
  case xferForeign => exact fun h => exec_of_live (c := .i2c1Xfer m v) hr rfl (i2c1Xfer_foreign h)
  case nack =>
    intro h
    refine ⟨_, exec_of_live (c := .i2c1ByteDone false false b) hr rfl rfl, ?_⟩
    rw [i2c1ByteDone_nack h]
    exact ⟨rfl, rfl, rfl, rfl⟩
  case lost => exact fun h => ⟨_, exec_of_live (c := .i2c1ByteDone true true b) hr rfl rfl, i2c1ByteDone_lost h⟩
  case read => exact fun h hrd => ⟨_, exec_of_live (c := .i2c1ByteDone true false b) hr rfl rfl, i2c1ByteDone_reads h hrd⟩
  case compare =>
    have hexec := exec_of_live (c := .tmrCompare k) hr rfl rfl
    refine fun he hc => ⟨fun hm => ⟨_, hexec, ?_⟩, fun hm => ⟨_, hexec, ?_⟩⟩
    · rw [tmrCompare_reaches he hc (.inl hm), hm, if_neg (by decide)]
    · rw [tmrCompare_reaches he hc (.inr hm), if_pos hm]
  case capture =>
    exact fun he hm hp => ⟨_, exec_of_live (c := .tmrCapture k) hr rfl (tmrCapture_captures he hm hp), State.tmr_setTmr_same s k _,
      fun j hj => State.tmr_setTmr_other s _ hj⟩
  case tick =>
    exact fun hc ho hs hd hl he => exec_of_live (c := .tickOutPulse) hr rfl (tickOutPulse_pulses hc ho hs hd hl he)
  case tickOnce => exact fun hd => exec_of_live (c := .tickOutPulse) hr rfl (tickOutPulse_once hd)
  case poll =>
    intro rails w
    obtain ⟨hpower, hvdd, hlog⟩ := pmbusPoll_keeps s rails w
    rw [List.filter_filter] at hpower
    simp only [Bool.and_comm _ (PmbRail.answered _)]
    exact ⟨_, exec_of_live (c := .pmbusPoll rails w) hr rfl rfl, hpower, hvdd, hlog⟩

end Sys2Proof.Machine
end

section
/-! SUPPORT. The CRC-32C of a changed byte, and the rod copy of a shadow test on a reserve whose spare-row table is out of order
(R159, R245, R410). -/

namespace Sys2Proof.Machine
open Sys2Proof

/-! ### The CRC-32C tells lists apart that differ in one byte (R159) -/

/-- The top bit of what a CRC step leaves is the bit that it shifted out, so the step can be undone. -/
theorem crc32cBit_injective : Function.Injective crc32cBit := by
  have htop : ∀ c : Word, (crc32cBit c).getLsbD 31 = c.getLsbD 0 := fun c => by
    unfold crc32cBit
    cases h : c.getLsbD 0 <;> simp
  intro a b h
  have hlow : a.getLsbD 0 = b.getLsbD 0 := by rw [← htop a, ← htop b, h]
  have hrest : a >>> 1 = b >>> 1 := by
    unfold crc32cBit at h
    rwa [hlow, BitVec.xor_left_inj] at h
  refine BitVec.eq_of_getLsbD_eq fun i _ => ?_
  cases i with
  | zero => exact hlow
  | succ i => simpa [BitVec.getLsbD_ushiftRight, Nat.add_comm] using congrArg (BitVec.getLsbD · i) hrest

theorem iter_injective {α : Type} {f : α → α} (hf : Function.Injective f) (n : Nat) : Function.Injective (iter f n) := by
  induction n with
  | zero => exact fun _ _ h => h
  | succ n ih => exact fun _ _ h => hf (ih h)

theorem crc32cByte_inj {c c' : Word} {b b' : Byte} :
    crc32cByte c b = crc32cByte c' b' ↔ c ^^^ b.zeroExtend 32 = c' ^^^ b'.zeroExtend 32 :=
  (iter_injective crc32cBit_injective 8).eq_iff

theorem foldl_crc32cByte_injective (l : List Byte) : Function.Injective (fun c => l.foldl crc32cByte c) := by
  induction l with
  | nil => exact fun _ _ h => h
  | cons b l ih => exact fun _ _ h => (BitVec.xor_left_inj _).mp (crc32cByte_inj.mp (ih h))

/-- Byte lists that differ in one byte have different checksums. -/
theorem crc32c_ne {a b : Byte} (h : a ≠ b) (u v : List Byte) : crc32c (u ++ a :: v) ≠ crc32c (u ++ b :: v) := by
  intro he
  simp only [crc32c, List.foldl_append, List.foldl_cons] at he
  have hx := crc32cByte_inj.mp (foldl_crc32cByte_injective v he)
  rw [BitVec.xor_right_inj] at hx
  exact h (by simpa using congrArg (BitVec.setWidth 8) hx)

/-! ### Rows of an array -/

theorem mread_mwrite_same (l : List Byte) (m : Mem) (a : Nat) : mread (mwrite m a l) a l.length = l := by
  have hread : ∀ n k, k + n = l.length → mread (mwrite m a l) (a + k) n = l.drop k := by
    intro n
    induction n with
    | zero => intro k hk; rw [List.drop_eq_nil_of_le (by omega)]; rfl
    | succ n ih =>
      intro k hk
      have hlt : k < l.length := by omega
      rw [mread, Nat.add_assoc, ih (k + 1) (by omega), mget_mwrite, if_pos (by omega), Nat.add_sub_cancel_left, List.getD_eq_getElem _ _ hlt,
        ← List.drop_eq_getElem_cons hlt]
  exact hread l.length 0 (by omega)

theorem mread_nil (a n : Nat) : mread [] a n = List.replicate n 0 := by
  induction n generalizing a with
  | zero => rfl
  | succ n ih => rw [mread, ih, mget_nil]; rfl

@[simp] theorem writeRow_remap (a : RodArr) (rows row : Nat) (d : List Byte) (t : BitVec 2) (mark : Bool) :
    (writeRow a rows row d t mark).remap = a.remap := rfl

theorem LaneMem.arr_setArr (m : LaneMem) {k j : Nat} (a : RodArr) (hk : k < 2) (hj : j < 2) :
    (m.setArr k a).arr j = if j = k then a else m.arr j := by
  interval_cases k <;> interval_cases j <;> rfl

theorem LaneMem.arr_of_arrays {m n : LaneMem} (h : m.arrays = n.arrays) (k : Nat) : m.arr k = n.arr k := by
  simp only [LaneMem.arrays, Prod.mk.injEq] at h
  obtain ⟨h0, h1, hi⟩ := h
  rw [LaneMem.arr, LaneMem.arr, h0, h1, hi]

/-! ### The rod copy of a shadow test -/

/-- Place `i` of the first 64 rods is row `i / 2` of home bank `i % 2`. -/
theorem home_place {i : Nat} (hi : i < 64) : arrOf (32 * i) = i % 2 ∧ rowOf (32 * i) = i / 2 := by
  rw [arrOf, rowOf, if_pos (by omega), if_pos (by omega)]
  omega

theorem arrRows_home (i : Nat) : arrRows (i % 2) = 1024 := if_neg (by omega)

theorem State.rodPeek_home (s : State) (p : Nat) {i : Nat} (hi : i < 64) :
    s.rodPeek p (32 * i) = readRow ((s.lmem p).arr (i % 2)) 1024 (i / 2) := by
  obtain ⟨ha, hr⟩ := home_place hi
  rw [State.rodPeek, ha, hr, arrRows_home]

theorem LaneMem.useShare_arrays (m : LaneMem) (k now n : Nat) : (m.useShare k now n).arrays = m.arrays := by
  simp only [LaneMem.useShare, LaneMem.setSp]
  split_ifs <;> rfl

/-- The use of the arrays changes none of them. -/
theorem State.reads_useRods (s : State) (p : Nat) (as : List Nat) : s.Reads (s.useRods p as) :=
  State.reads_setLmem (by rw [LaneMem.useShare_arrays, LaneMem.useShare_arrays, LaneMem.useShare_arrays])

/-- Rod `i` of the copy from lane `src` onto lane `p`. -/
def copyStep (src p : Nat) (s : State) (i : Nat) : State :=
  let q := s.rodRead src (32 * i) 3
  q.2.rodWrite p (32 * i) q.1.data q.1.tags q.1.bad

/-- A rod of the copy leaves the arrays of every other lane. -/
theorem copyStep_other (src p : Nat) (s : State) (i k : Nat) {q : Nat} (hq : q ≠ p) :
    ((copyStep src p s i).lmem q).arr k = (s.lmem q).arr k := by
  have hread := (State.reads_rodRead s src (32 * i) 3).arrays q
  rw [copyStep, State.rodWrite, State.lmem_setLmem_other _ _ hq, LaneMem.arr_of_arrays hread]

/-- A rod of the copy writes its row of its bank. -/
theorem copyStep_written (src p : Nat) (s : State) {i k : Nat} (hi : i < 64) (hk : k < 2) :
    ((copyStep src p s i).lmem p).arr k = if k = i % 2 then
      writeRow ((s.lmem p).arr k) 1024 (i / 2) (s.rodPeek src (32 * i)).data (s.rodPeek src (32 * i)).tags (s.rodPeek src (32 * i)).bad
    else (s.lmem p).arr k := by
  have hread := LaneMem.arr_of_arrays ((State.reads_rodRead s src (32 * i) 3).arrays p)
  obtain ⟨ha, hr⟩ := home_place hi
  rw [copyStep, State.rodWrite, State.lmem_setLmem_same, ha, hr, arrRows_home, LaneMem.arr_setArr _ _ (Nat.mod_lt _ two_pos) hk, hread, hread,
    if_neg (show i % 2 ≠ 2 by omega)]
  split
  case isTrue h => rw [h]; rfl
  case isFalse => rfl

/-- The copy leaves the steward pairs and the reserves' records alone. -/
theorem copyStep_pair (src p : Nat) (s : State) (i : Nat) : (copyStep src p s i).pair = s.pair := by
  simp only [copyStep, State.rodWrite, State.rodRead, State.setLmem]
  split
  · exact State.raise_pair _ _ _ _ _
  · rfl

theorem State.resetLane_pair (s : State) (p : Nat) : (s.resetLane p).pair = s.pair := by
  have habort : ∀ m, (s.abortMaster m).pair = s.pair := fun m => by
    simp only [State.abortMaster]
    split_ifs
    · rfl
    · exact State.raise_pair _ _ _ _ _
  have hclear : ∀ m w, (s.clearLane p m w).pair = s.pair := fun m w => by
    rw [State.clearLane]
    split
    · rfl
    · exact habort _
  have hmbx : ∀ (t : State) (code : Nat), (t.mbxReset code).pair = t.pair := fun t code => by
    refine foldl_keeps State.pair _ (fun u c => ?_) (List.range 64) t
    dsimp only
    split_ifs
    · rfl
    · rfl
    · exact foldl_keeps State.pair (fun s p => s.pendInt p 0) (fun _ _ => rfl) _ _
    · rfl
    · rfl
  simp only [State.resetLane]
  split_ifs
  · rw [hmbx, hclear]
  · rw [hclear]

/-- The addresses of the rods of a shadow test. -/
def shadowRods : List Nat := (List.range 64).map (fun i => 32 * i)

/-- The checksum that a shadow test takes of lane `q`. -/
def State.rodsCrc (s : State) (q : Nat) : Word := crc32c (shadowRods.flatMap (fun a => (s.rodPeek q a).data))

/-- The seat slot of the squad of reserve `p` from which its rods come. -/
def State.shadowSrc (s : State) (p : Nat) : Nat := p / 17 * 17 + s.heatN % 16

/-- The test of `p` is noted in its heat. -/
def State.shadowNoted (s : State) (p : Nat) : State := { s with pair := { s.pair with shadowIn := putN s.pair.shadowIn p (s.heatN + 1) } }

/-- The state after the copy. -/
def State.shadowCopied (s : State) (p : Nat) : State :=
  (List.range 64).foldl (copyStep (s.shadowSrc p) p) ((s.useRods (s.shadowSrc p) shadowRods).useRods p shadowRods)

theorem State.shadowCopied_pair (s : State) (p : Nat) : (s.shadowCopied p).pair = s.pair := by
  rw [State.shadowCopied, foldl_keeps State.pair _ (copyStep_pair _ _)]
  rfl

/-- A reserve whose rods have another checksum than their source after the copy fails its shadow test (R410). -/
theorem shadowTest_counts {s : State} {p : Nat} (hc : s.cooling = true) (hr : isReserve p = true) (hs : s.holdsSeat p = false)
    (hl : s.laneOn p = true) (hx : s.pair.scratched.contains p = false)
    (hcopy : s.pair.copies.any (fun c => decide (c.field = fieldOf p)) = false)
    (hm : s.pair.seatMap.any (fun e => decide (e.2 = some p)) = false) (hin : getN s.pair.shadowIn p ≠ s.heatN + 1)
    (hfirst : getN s.pair.shadow p = 0)
    (hcrc : ((s.shadowNoted p).shadowCopied p).rodsCrc ((s.shadowNoted p).shadowSrc p) ≠ ((s.shadowNoted p).shadowCopied p).rodsCrc p) :
    getN (shadowTest s p true true).pair.shadow p = 1 := by
  unfold shadowTest
  rw [hc, hr, hs, hl, hx, hcopy, hm, decide_eq_false hin, if_neg (by decide)]
  extract_lets _ noted src rods copied crc _ counted reset _
  have hcopied : copied = (s.shadowNoted p).shadowCopied p := rfl
  have hdiff : crc src ≠ crc p := hcrc
  have hreset : reset.pair.shadow = s.pair.shadow := by
    have hcounted : counted.pair.shadow = copied.pair.shadow := rfl
    rw [State.resetLane_pair, hcounted, hcopied, State.shadowCopied_pair]
    rfl
  clear_value reset
  rw [Bool.true_and, Bool.true_and, if_neg (by simpa using hdiff), hreset, if_pos hfirst]
  exact getN_putN_same _ _ _

/-! ### A reserve whose rows share one spare -/

/-- A rod of which only byte 0 is set. -/
def oneRod : List Byte := 1 :: List.replicate 31 0

/-- An array that holds this rod in row 1 and zeros in every other row. -/
def oneRodArr : RodArr := { rodArrReset with cells := mwrite [] (36 * 1) (rodEncode oneRod) }

/-- A spare-row table that is not in canonical form: it lists spare row 0 for each of 32 rows. -/
def sharedRemap : Tab Remap := (List.range 32).map (fun r => (0, ⟨true, false, r⟩))

def sharedArr : RodArr := { rodArrReset with remap := sharedRemap }

/-- A device in the cool-down of heat 0, in which seat slot 0 of the last squad holds the rod and its reserve has the table. -/
def spareShared : State :=
  { State.reset with
    pwr := { pwrReset with inReset := false, clk := 0x703 }
    pacer := { pacerReset with run := true, state := .internal, open_ := true, elapsed := 122000 }
    mems := [(1071, { laneMemReset with h0 := oneRodArr }), (1087, { laneMemReset with h0 := sharedArr, h1 := sharedArr })] }

theorem rodDecode_zero : rodDecode (List.replicate 36 0) = (List.replicate 32 0, .clean, 0) := by decide +kernel

theorem rodDecode_oneRod : rodDecode (rodEncode oneRod) = (oneRod, .clean, 0) := by decide +kernel

theorem rodEncode_zero : rodEncode (List.replicate 32 0) = List.replicate 36 0 := by decide +kernel

theorem oneRodArr_words : ∀ r < 32, mread oneRodArr.cells (36 * r) 36 = if r = 1 then rodEncode oneRod else List.replicate 36 0 := by
  decide +kernel

theorem physRow_shared {a : RodArr} (h : a.remap = sharedRemap) {r : Nat} (hr : r < 32) : physRow a 1024 r = 1024 := by
  have hfind : ∀ r < 32, sharedRemap.find? (fun e => e.2.v && decide (e.2.row = r)) = some (0, ⟨true, false, r⟩) := by decide
  rw [physRow, h, hfind r hr]

theorem readPhys_of_word {a : RodArr} {r : Nat} {d : List Byte × RodOk × Word} (h : rodDecode (mread a.cells (36 * r) 36) = d) :
    (readPhys a r).data = d.1 ∧ (readPhys a r).ok = d.2.1 := by
  subst h
  exact ⟨rfl, rfl⟩

/-- Row `r` of home bank 0 of the source is the rod in row 1 and zeros elsewhere; each row is sound. -/
theorem readRow_oneRodArr {r : Nat} (hr : r < 32) : (readRow oneRodArr 1024 r).data = (if r = 1 then oneRod else List.replicate 32 0) ∧
    (readRow oneRodArr 1024 r).ok = .clean := by
  have hw := oneRodArr_words r hr
  by_cases h : r = 1
  · rw [if_pos h] at hw ⊢
    exact readPhys_of_word (by rw [hw, rodDecode_oneRod])
  · rw [if_neg h] at hw ⊢
    exact readPhys_of_word (by rw [hw, rodDecode_zero])

theorem readRow_reset (r : Nat) : (readRow rodArrReset 1024 r).data = List.replicate 32 0 ∧ (readRow rodArrReset 1024 r).ok = .clean :=
  readPhys_of_word (d := (List.replicate 32 0, .clean, 0)) (by rw [show rodArrReset.cells = [] from rfl, mread_nil, rodDecode_zero])

theorem writePhys_cells (a : RodArr) (r : Nat) (sym : List Byte) (t : BitVec 2) : (writePhys a r sym t).cells = mwrite a.cells (36 * r) sym := rfl

/-- After a write of zeros to one row of a bank with the table, every row in it reads zeros. -/
theorem readRow_writeRow_shared {a : RodArr} (h : a.remap = sharedRemap) {r k : Nat} (hr : r < 32) (hk : k < 32) (t : BitVec 2) :
    (readRow (writeRow a 1024 k (List.replicate 32 0) t false) 1024 r).data = List.replicate 32 0 := by
  have hword : mread (mwrite a.cells (36 * 1024) (List.replicate 36 0)) (36 * 1024) 36 = List.replicate 36 0 :=
    mread_mwrite_same (List.replicate 36 0) _ _
  rw [readRow, physRow_shared (by rw [writeRow_remap, h]) hr, writeRow, physRow_shared h hk, if_neg (by decide), rodEncode_zero]
  have hread : rodDecode (mread (writePhys a 1024 (List.replicate 36 0) t).cells (36 * 1024) 36) = (List.replicate 32 0, .clean, 0) := by
    rw [writePhys_cells, hword, rodDecode_zero]
  exact (readPhys_of_word hread).1

/-- What the copy keeps: the rods of the source, and the table of the reserve. -/
structure SpareShared (s : State) : Prop where
  src0 : (s.lmem 1071).arr 0 = oneRodArr
  src1 : (s.lmem 1071).arr 1 = rodArrReset
  remap : ∀ k < 2, ((s.lmem 1087).arr k).remap = sharedRemap

theorem SpareShared.of_reads {s t : State} (h : SpareShared s) (ht : s.Reads t) : SpareShared t where
  src0 := by rw [LaneMem.arr_of_arrays (ht.arrays 1071), h.src0]
  src1 := by rw [LaneMem.arr_of_arrays (ht.arrays 1071), h.src1]
  remap k hk := by rw [LaneMem.arr_of_arrays (ht.arrays 1087), h.remap k hk]

theorem SpareShared.copyStep {s : State} (h : SpareShared s) {i : Nat} (hi : i < 64) : SpareShared (copyStep 1071 1087 s i) where
  src0 := by rw [copyStep_other _ _ _ _ _ (by decide), h.src0]
  src1 := by rw [copyStep_other _ _ _ _ _ (by decide), h.src1]
  remap k hk := by
    rw [copyStep_written _ _ _ hi hk]
    split
    · exact h.remap k hk
    · exact h.remap k hk

theorem SpareShared.copySteps {s : State} (h : SpareShared s) {n : Nat} (hn : n ≤ 64) :
    SpareShared ((List.range n).foldl (Machine.copyStep 1071 1087) s) := by
  induction n with
  | zero => exact h
  | succ n ih =>
    rw [List.range_succ, List.foldl_append]
    exact (ih (by omega)).copyStep hn

/-- The rods of the source: the rod at place 2, zeros elsewhere, all sound. -/
theorem SpareShared.source {s : State} (h : SpareShared s) {i : Nat} (hi : i < 64) :
    (s.rodPeek 1071 (32 * i)).data = (if i = 2 then oneRod else List.replicate 32 0) ∧ (s.rodPeek 1071 (32 * i)).ok = .clean := by
  rw [State.rodPeek_home _ _ hi]
  obtain hm | hm : i % 2 = 0 ∨ i % 2 = 1 := by omega
  · have hrow : i = 2 ↔ i / 2 = 1 := by omega
    simp only [hm, h.src0, hrow]
    exact readRow_oneRodArr (by omega)
  · rw [hm, h.src1, if_neg (by omega)]
    exact readRow_reset _

/-- Places 62 and 63 of the copy are zeros, and all rows of a bank read what was written last. -/
theorem SpareShared.reserve {s : State} (h : SpareShared s) {i : Nat} (hi : i < 64) :
    (((List.range 64).foldl (Machine.copyStep 1071 1087) s).rodPeek 1087 (32 * i)).data = List.replicate 32 0 := by
  have hzero : ∀ {t : State}, SpareShared t → ∀ j < 64, j ≠ 2 → (t.rodPeek 1071 (32 * j)).data = List.replicate 32 0 ∧
      (t.rodPeek 1071 (32 * j)).bad = false := fun ht j hj hne => by
    obtain ⟨hd, hok⟩ := ht.source hj
    exact ⟨by rw [hd, if_neg hne], by rw [RowRead.bad, hok]⟩
  have h62 := h.copySteps (show 62 ≤ 64 by decide)
  have h63 := h62.copyStep (show 62 < 64 by decide)
  obtain ⟨hd62, hb62⟩ := hzero h62 62 (by decide) (by decide)
  obtain ⟨hd63, hb63⟩ := hzero h63 63 (by decide) (by decide)
  rw [State.rodPeek_home _ _ hi, List.range_succ, List.foldl_append, List.range_succ, List.foldl_append]
  simp only [List.foldl_cons, List.foldl_nil]
  rw [copyStep_written _ _ _ (by decide) (Nat.mod_lt _ two_pos), hd63, hb63, copyStep_written _ _ _ (by decide) (Nat.mod_lt _ two_pos), hd62, hb62]
  obtain hm | hm : i % 2 = 0 ∨ i % 2 = 1 := by omega
  · rw [hm, if_neg (by decide), if_pos (by decide)]
    exact readRow_writeRow_shared (h62.remap 0 (by decide)) (by omega) (by decide) _
  · rw [hm, if_pos (by decide), if_neg (by decide)]
    exact readRow_writeRow_shared (h62.remap 1 (by decide)) (by omega) (by decide) _

/-! ### The shadow test of this reserve -/

theorem spareShared_shared : SpareShared spareShared where
  src0 := rfl
  src1 := rfl
  remap k hk := by interval_cases k <;> rfl

theorem spareShared_opens : SpareShared (((spareShared.shadowNoted 1087).useRods 1071 shadowRods).useRods 1087 shadowRods) :=
  have hnoted : SpareShared (spareShared.shadowNoted 1087) := ⟨spareShared_shared.src0, spareShared_shared.src1, spareShared_shared.remap⟩
  (hnoted.of_reads (State.reads_useRods _ _ _)).of_reads (State.reads_useRods _ _ _)

/-- Rods that are zeros but for the place 2 on one side have different checksums. -/
theorem rodsCrc_ne {s : State} {q p : Nat} (hq : ∀ i < 64, (s.rodPeek q (32 * i)).data = if i = 2 then oneRod else List.replicate 32 0)
    (hp : ∀ i < 64, (s.rodPeek p (32 * i)).data = List.replicate 32 0) : s.rodsCrc q ≠ s.rodsCrc p := by
  have hbytes : ∀ (lane : Nat) (f : Nat → List Byte), (∀ i < 64, (s.rodPeek lane (32 * i)).data = f i) →
      s.rodsCrc lane = crc32c ((List.range 64).flatMap f) := fun lane f h => by
    rw [State.rodsCrc, shadowRods, List.flatMap_map]
    exact congrArg crc32c (List.flatMap_congr fun i hi => h i (List.mem_range.mp hi))
  have hsrc : (List.range 64).flatMap (fun i => if i = 2 then oneRod else List.replicate 32 0) =
    List.replicate 64 0 ++ 1 :: List.replicate 1983 0 := by decide +kernel
  have hres : (List.range 64).flatMap (fun _ => List.replicate 32 (0 : Byte)) = List.replicate 64 0 ++ 0 :: List.replicate 1983 0 := by
    decide +kernel
  rw [hbytes q _ hq, hbytes p _ hp, hsrc, hres]
  exact crc32c_ne (by decide) _ _

/-- The test of this reserve counts a failure, although the image and the copy are sound. -/
theorem spareShared_fails : getN (shadowTest spareShared 1087 true true).pair.shadow 1087 = 1 := by
  have hsrc : (spareShared.shadowNoted 1087).shadowSrc 1087 = 1071 := by decide
  refine shadowTest_counts (by decide) (by decide) (by decide) (by decide) (by decide) (by decide) (by decide) (by decide) (by decide) ?_
  rw [hsrc]
  have hcopied : (spareShared.shadowNoted 1087).shadowCopied 1087 = (List.range 64).foldl (copyStep 1071 1087)
      (((spareShared.shadowNoted 1087).useRods 1071 shadowRods).useRods 1087 shadowRods) := by
    rw [State.shadowCopied, hsrc]
  rw [hcopied]
  exact rodsCrc_ne (fun i hi => ((spareShared_opens.copySteps le_rfl).source hi).1) (fun i hi => spareShared_opens.reserve hi)

end Sys2Proof.Machine
end

section
/-! The statement about repair, boot and tamper, settled. -/

namespace Sys2Proof.Machine
open Sys2Proof

/-- Refutes O56: in a state whose reserve 1087 lists one spare row for several rows of its home banks, the rods of a shadow test
overwrite one another, and a test whose image and copy are sound counts a failure. A table of spare rows that `tput` writes names each
spare once, but the statement is about every state, and nothing in it says that the table is canonical. -/
theorem not_repairBootAndTamper : ¬ Obligations.RepairBootAndTamper := by
  unfold Obligations.RepairBootAndTamper
  intro h
  have hr : spareShared.pwr.inReset = false := rfl
  have hsrc : 1087 / 17 * 17 + spareShared.heatN % 16 = 1071 := by decide
  obtain ⟨-, -, -, -, -, -, hshadow, -⟩ := h spareShared hr
  obtain ⟨hpass, -⟩ := hshadow 1087 (by decide) (by decide) (by decide) (by decide) (by decide) (by decide) (by decide) (by decide)
  obtain ⟨t, hexec, hzero, -⟩ := hpass (fun i hi => by rw [hsrc, RowRead.bad, (spareShared_shared.source hi).2])
  have hstep : exec (.shadowTest 1087 true true) spareShared = .next (shadowTest spareShared 1087 true true) :=
    exec_of_live (c := .shadowTest 1087 true true) hr rfl rfl
  rw [hstep] at hexec
  obtain rfl := Host.Outcome.next.inj hexec
  rw [spareShared_fails] at hzero
  exact absurd hzero (by decide)

end Sys2Proof.Machine
end
